-- ==== Sys2Proof/Word.lean ====
section
/-! DEFINITION. The word types of the K2 (00_scope.md R2): bytes, 32-bit instruction words and
v elements, 64-bit registers. -/

namespace Sys2Proof

/-- One byte. -/
abbrev Byte := BitVec 8
/-- A 32-bit word: an instruction word, a v element. -/
abbrev W32 := BitVec 32
/-- A 64-bit word: an s or e register, a mask over lanes, an address as registers hold it. -/
abbrev W64 := BitVec 64

end Sys2Proof
end

