-- ==== Sys2Proof/Syntax.lean ====
section
/-! DEFINITION. The syntax of the K2's instructions: operand bytes, the fields of the first 64 bits
and the extension words (02_formats.md R18 to R25), the kinds of instruction of the opcode map
(R37), and Instr, one constructor per row of the opcode table. The rows after CLOCK are steps of
engines and of outside agents; their arguments name what the step acts on and what the outside
world supplies. -/

namespace Sys2Proof

/-- An operand byte read through Table 2.5 (02_formats.md R25). A field that names a tile register,
accumulator, token, mask or predicate uses the byte itself (R26), so reserved codes keep their number. -/
inductive Reg where
  | v (n : Fin 160)
  | s (n : Fin 64)
  | e (n : Fin 8)
  | reserved (n : Fin 23)
  | zero
deriving DecidableEq, Repr

/-- What follows the first two words (Table 2.3). -/
inductive Ext where
  | f64
  | f96i (imm : W32)
  | f96x (x0 : W32)
  | f128i (imm : W64)
  | f128x (km x0 : W32)
deriving DecidableEq, Repr

/-- The fields every instruction carries (Table 2.2); OP and the fixed part of SUB are the constructor's. -/
structure Fields where
  last : Bool
  pg   : Fin 8
  pn   : Bool
  kv   : Bool
  kw   : Fin 32
  sub  : Fin 8
  d    : Reg
  a    : Reg
  b    : Reg
  c    : Reg
  m    : Byte
  ext  : Ext
deriving DecidableEq, Repr

/-- An application core's access to a physical address (10_atomics.md R207, 08_ordering.md R177); `ctrlRead` is the management
controller's read of the management space (19_device.md R394; log entry 17). -/
inductive AppAccess where
  | read  (pa size : Nat)
  | write (pa size : Nat) (value : W64)
  | ctrlRead (die offset size : Nat)
  | amoAdd (pa size : Nat) (value : W64)
  | amoSwap (pa size : Nat) (value : W64)
  | amoAnd (pa size : Nat) (value : W64)
  | amoOr (pa size : Nat) (value : W64)
  | amoXor (pa size : Nat) (value : W64)
  | amoMin (pa size : Nat) (signed : Bool) (value : W64)
  | amoMax (pa size : Nat) (signed : Bool) (value : W64)
deriving DecidableEq, Repr

/-- The matrix command and the core of an act of it (11_matrix.md R226, R245). -/
structure MatrixAct where
  op : Nat
  core : Nat
deriving DecidableEq, Repr

/-- Where an ECC error strikes (07_memory.md R158 to R160). -/
inductive ErrTarget where
  | memory (pa : Nat)
  | l2 (pa : Nat)
  | l1 (die cluster core pa : Nat)
  | array (mapAddr : Nat)
  | vreg (ctx n lane : Nat)
deriving DecidableEq, Repr

/-- The remote request a packet carries (15_fabric.md R324 to R331). Addresses are virtual at the target. -/
inductive Request where
  | load (size : Nat) (addrs : List Nat)
  | store (size : Nat) (cells : List (Nat × W64)) (flag : Nat)
  | atom (op ty : Nat) (cells : List (Nat × W64)) (flag : Nat)
  | bulk (dst : Nat) (bytes : List Byte) (flag : Nat) (lastPart : Bool)
  | stage (dst : Nat) (bytes : List Byte) (flag : Nat)
  | commitStage (index : Nat)
  | slot (dst : Nat) (bytes : List Byte) (arrive : Nat)
  | credit (addr : Nat)
deriving DecidableEq, Repr

/-- A packet from a device of the pod. -/
structure Packet where
  peer : Nat
  req  : Request
deriving DecidableEq, Repr

/-- What a target answers to a command: performed with the values it read, or failed
(cause, detail, lane, address). -/
inductive Reply where
  | ok (values : List W64)
  | fail (cause detail lane addr : Nat)
  | members (failed unknown : W32) (cause detail addr : Nat)
deriving DecidableEq, Repr

/-- A stage of firmware (19_device.md R397): the public key it is offered under, its security version, its code and its
Ed448 signature. -/
structure FwStage where
  key       : List Byte
  version   : Nat
  code      : List Byte
  signature : List Byte
deriving DecidableEq, Repr

/-- A firmware image: its stages in the order in which they boot, each verified before it runs. -/
structure Image where
  stages : List FwStage
deriving DecidableEq, Repr

/-- The instruction kinds of the opcode map (Table 2.8), in the order of the opcode table. -/
inductive Kind where
  | nop
  | bra
  | bru
  | brx
  | call
  | callx
  | ret
  | loopL
  | enrol
  | park
  | strike
  | exitL
  | exitSucc
  | yield
  | iadd
  | isub
  | imul
  | imad
  | imin
  | imax
  | iabs
  | ineg
  | andL
  | orL
  | xorL
  | andn
  | orn
  | xnor
  | shl
  | shr
  | sha
  | rol
  | popc
  | clz
  | ctz
  | brev
  | bfx
  | bfi
  | icmp
  | sel
  | mov
  | movI32
  | movI64
  | movs
  | lea
  | plop
  | ballot
  | vote
  | shfl
  | qswap
  | qbc
  | redux
  | scan
  | rdlane
  | wrlane
  | matchL
  | fadd
  | fsub
  | fmul
  | ffma
  | fmin
  | fmax
  | fcmp
  | fclass
  | frnd
  | fdot2
  | fcvt
  | f2i
  | i2f
  | fpack
  | funpk
  | fscl
  | frcp
  | frsq
  | fsqrt
  | fex2
  | flg2
  | fsin
  | fcos
  | ftanh
  | ld
  | st
  | ldu
  | stu
  | prf
  | twr
  | trd
  | tscl
  | acrd
  | acwr
  | resb
  | xlat
  | fence
  | fencek
  | waitk
  | twaitk
  | tkq
  | tkclr
  | tkarr
  | pbinit
  | pbarr
  | pbwait
  | bsync
  | monwait
  | tkpsn
  | atom
  | cas
  | red
  | fatom
  | fred
  | atomu
  | mma
  | mmas
  | aczero
  | acdrain
  | acdrainAdd
  | acload
  | mxset
  | mxq
  | gbind
  | gmv
  | gmva
  | grvrd
  | gabort
  | spawn
  | jcinit
  | jcadd
  | jcwait
  | launchg
  | spq
  | cpy
  | cpyRing
  | cpygGather
  | cpygScatter
  | rinit
  | racqProd
  | racqCons
  | rrelPub
  | rrelPubLast
  | rrelFree
  | sbind
  | sctlStat
  | sctlDlen
  | sctlYlen
  | sctlElen
  | sctlStop
  | srd
  | semit
  | hdec
  | rld
  | rst
  | rstm
  | ratom
  | rcpy
  | collAr
  | collRs
  | collAg
  | rfence
  | collcfg
  | vcfg
  | vcfgClose
  | venc
  | vqry
  | trap
  | eret
  | mfsr
  | mtsr
  | bkpt
  | tmark
  | pcnt
  | haltL
  | clock
deriving DecidableEq, Repr

/-- One constructor per row of the opcode table. -/
inductive Instr where
  | nop (f : Fields)
  | bra (f : Fields)
  | bru (f : Fields)
  | brx (f : Fields)
  | call (f : Fields)
  | callx (f : Fields)
  | ret (f : Fields)
  | loopL (f : Fields)
  | enrol (f : Fields)
  | park (f : Fields)
  | strike (f : Fields)
  | exitL (f : Fields)
  | exitSucc (f : Fields)
  | yield (f : Fields)
  | iadd (f : Fields)
  | isub (f : Fields)
  | imul (f : Fields)
  | imad (f : Fields)
  | imin (f : Fields)
  | imax (f : Fields)
  | iabs (f : Fields)
  | ineg (f : Fields)
  | andL (f : Fields)
  | orL (f : Fields)
  | xorL (f : Fields)
  | andn (f : Fields)
  | orn (f : Fields)
  | xnor (f : Fields)
  | shl (f : Fields)
  | shr (f : Fields)
  | sha (f : Fields)
  | rol (f : Fields)
  | popc (f : Fields)
  | clz (f : Fields)
  | ctz (f : Fields)
  | brev (f : Fields)
  | bfx (f : Fields)
  | bfi (f : Fields)
  | icmp (f : Fields)
  | sel (f : Fields)
  | mov (f : Fields)
  | movI32 (f : Fields)
  | movI64 (f : Fields)
  | movs (f : Fields)
  | lea (f : Fields)
  | plop (f : Fields)
  | ballot (f : Fields)
  | vote (f : Fields)
  | shfl (f : Fields)
  | qswap (f : Fields)
  | qbc (f : Fields)
  | redux (f : Fields)
  | scan (f : Fields)
  | rdlane (f : Fields)
  | wrlane (f : Fields)
  | matchL (f : Fields)
  | fadd (f : Fields)
  | fsub (f : Fields)
  | fmul (f : Fields)
  | ffma (f : Fields)
  | fmin (f : Fields)
  | fmax (f : Fields)
  | fcmp (f : Fields)
  | fclass (f : Fields)
  | frnd (f : Fields)
  | fdot2 (f : Fields)
  | fcvt (f : Fields)
  | f2i (f : Fields)
  | i2f (f : Fields)
  | fpack (f : Fields)
  | funpk (f : Fields)
  | fscl (f : Fields)
  | frcp (f : Fields)
  | frsq (f : Fields)
  | fsqrt (f : Fields)
  | fex2 (f : Fields)
  | flg2 (f : Fields)
  | fsin (f : Fields)
  | fcos (f : Fields)
  | ftanh (f : Fields)
  | ld (f : Fields)
  | st (f : Fields)
  | ldu (f : Fields)
  | stu (f : Fields)
  | prf (f : Fields)
  | twr (f : Fields)
  | trd (f : Fields)
  | tscl (f : Fields)
  | acrd (f : Fields)
  | acwr (f : Fields)
  | resb (f : Fields)
  | xlat (f : Fields)
  | fence (f : Fields)
  | fencek (f : Fields)
  | waitk (f : Fields)
  | twaitk (f : Fields)
  | tkq (f : Fields)
  | tkclr (f : Fields)
  | tkarr (f : Fields)
  | pbinit (f : Fields)
  | pbarr (f : Fields)
  | pbwait (f : Fields)
  | bsync (f : Fields)
  | monwait (f : Fields)
  | tkpsn (f : Fields)
  | atom (f : Fields)
  | cas (f : Fields)
  | red (f : Fields)
  | fatom (f : Fields)
  | fred (f : Fields)
  | atomu (f : Fields)
  | mma (f : Fields)
  | mmas (f : Fields)
  | aczero (f : Fields)
  | acdrain (f : Fields)
  | acdrainAdd (f : Fields)
  | acload (f : Fields)
  | mxset (f : Fields)
  | mxq (f : Fields)
  | gbind (f : Fields)
  | gmv (f : Fields)
  | gmva (f : Fields)
  | grvrd (f : Fields)
  | gabort (f : Fields)
  | spawn (f : Fields)
  | jcinit (f : Fields)
  | jcadd (f : Fields)
  | jcwait (f : Fields)
  | launchg (f : Fields)
  | spq (f : Fields)
  | cpy (f : Fields)
  | cpyRing (f : Fields)
  | cpygGather (f : Fields)
  | cpygScatter (f : Fields)
  | rinit (f : Fields)
  | racqProd (f : Fields)
  | racqCons (f : Fields)
  | rrelPub (f : Fields)
  | rrelPubLast (f : Fields)
  | rrelFree (f : Fields)
  | sbind (f : Fields)
  | sctlStat (f : Fields)
  | sctlDlen (f : Fields)
  | sctlYlen (f : Fields)
  | sctlElen (f : Fields)
  | sctlStop (f : Fields)
  | srd (f : Fields)
  | semit (f : Fields)
  | hdec (f : Fields)
  | rld (f : Fields)
  | rst (f : Fields)
  | rstm (f : Fields)
  | ratom (f : Fields)
  | rcpy (f : Fields)
  | collAr (f : Fields)
  | collRs (f : Fields)
  | collAg (f : Fields)
  | rfence (f : Fields)
  | collcfg (f : Fields)
  | vcfg (f : Fields)
  | vcfgClose (f : Fields)
  | venc (f : Fields)
  | vqry (f : Fields)
  | trap (f : Fields)
  | eret (f : Fields)
  | mfsr (f : Fields)
  | mtsr (f : Fields)
  | bkpt (f : Fields)
  | tmark (f : Fields)
  | pcnt (f : Fields)
  | haltL (f : Fields)
  | clock (f : Fields)
  | tkarrDeferredArrival (i : Nat)
  | tokenComplete (op : Nat)
  | tokenWaitEnd (ctx lane : Nat)
  | twaitkTimeout (ctx lane : Nat)
  | monwaitWake (ctx lane : Nat)
  | monwaitTimeout (ctx lane : Nat)
  | monitorRecheck (ctx lane : Nat)
  | warpEnd (ctx : Nat)
  | successorStart (block : Nat)
  | blockRelaunch (launch core : Nat)
  | reductionHomeFailure (i : Nat)
  | sideLogReplay (ctx : Nat)
  | noticeRepost (die : Nat)
  | invalPage (die vpn : Nat)
  | invalAll (die : Nat)
  | resume (die vpn : Nat)
  | resumeReject (die vpn : Nat)
  | copyEngineStart (op : Nat)
  | matrixCommandPerform (a : MatrixAct)
  | grammarCommandStart (op : Nat)
  | grammarHoldBreak (cluster : Nat)
  | ringClaimGrant (op : Nat)
  | encoderCommandStart (op : Nat)
  | spawnEntryEligible (entry : Nat)
  | fullWarp (cluster launch entry : Nat)
  | ageFlush (cluster launch entry : Nat)
  | idleFlush (cluster : Nat)
  | spillReturn (cluster launch : Nat)
  | childWarpAdmit (cluster core : Nat)
  | eviction (cluster launch : Nat)
  | evictedWarpRestore (ctx core : Nat)
  | fabricPacketArrival (port : Nat) (p : Packet)
  | fabricAck (op : Nat) (r : Reply)
  | rstmCommitMessage (i : Nat)
  | fabricRetransmit (die peer : Nat)
  | connectionDead (die peer : Nat)
  | collSend (die : Nat)
  | collReceive (die : Nat)
  | collTimeout (die : Nat)
  | dieLinkModuleFail (die modul : Nat)
  | launchQueueAppend (q : Nat) (record : List Byte)
  | qctlWrite (q : Nat) (value : W64)
  | launchCopy (q : Nat)
  | hearthEvaluation (place : List Nat)
  | launchComplete (launch : Nat)
  | chimneyHeldRelease (c : Nat)
  | chimneyTimeTrigger (c : Nat)
  | hcancel (tag : W64)
  | hkeyfree (key : W32)
  | debugHalt (dop mask buf arg : W64)
  | debugResume (dop mask buf arg : W64)
  | debugStep (dop mask buf arg : W64)
  | bpset (dop mask buf arg : W64)
  | bpclr (dop mask buf arg : W64)
  | debugRead (dop mask buf arg : W64)
  | debugWrite (dop mask buf arg : W64)
  | debugSample (dop mask buf arg : W64)
  | debugGrant (g : Nat) (tag : W64)
  | debugRevoke (g : Nat)
  | acctlEnable (die : Nat)
  | acctlLock (die : Nat)
  | acsync (die : Nat)
  | cap0Write (value : W64)
  | islclkWrite (island : Nat) (value : W64)
  | pwrlimWrite (value : W64)
  | currentSample (amps tj watts : Nat)
  | thermalTrip (tj : Nat)
  | connreset (die peer : Nat)
  | deviceReset
  | pldmFirmwareUpdate (img : Image)
  | pldmMonitoring (sensor : Nat)
  | spdm
  | registerWrite (master die offset : Nat) (value : W64)
  | applicationCoreAccess (a : AppAccess)
  | softError (t : ErrTarget) (corrected : Bool)
  | collectiveEngineStart (die : Nat)
  | clockChangeEffect (island : Nat)
deriving DecidableEq, Repr

/-- The instruction of a kind with the given fields. -/
def Instr.ofKind (k : Kind) (f : Fields) : Instr :=
  match k with
  | .nop => .nop f
  | .bra => .bra f
  | .bru => .bru f
  | .brx => .brx f
  | .call => .call f
  | .callx => .callx f
  | .ret => .ret f
  | .loopL => .loopL f
  | .enrol => .enrol f
  | .park => .park f
  | .strike => .strike f
  | .exitL => .exitL f
  | .exitSucc => .exitSucc f
  | .yield => .yield f
  | .iadd => .iadd f
  | .isub => .isub f
  | .imul => .imul f
  | .imad => .imad f
  | .imin => .imin f
  | .imax => .imax f
  | .iabs => .iabs f
  | .ineg => .ineg f
  | .andL => .andL f
  | .orL => .orL f
  | .xorL => .xorL f
  | .andn => .andn f
  | .orn => .orn f
  | .xnor => .xnor f
  | .shl => .shl f
  | .shr => .shr f
  | .sha => .sha f
  | .rol => .rol f
  | .popc => .popc f
  | .clz => .clz f
  | .ctz => .ctz f
  | .brev => .brev f
  | .bfx => .bfx f
  | .bfi => .bfi f
  | .icmp => .icmp f
  | .sel => .sel f
  | .mov => .mov f
  | .movI32 => .movI32 f
  | .movI64 => .movI64 f
  | .movs => .movs f
  | .lea => .lea f
  | .plop => .plop f
  | .ballot => .ballot f
  | .vote => .vote f
  | .shfl => .shfl f
  | .qswap => .qswap f
  | .qbc => .qbc f
  | .redux => .redux f
  | .scan => .scan f
  | .rdlane => .rdlane f
  | .wrlane => .wrlane f
  | .matchL => .matchL f
  | .fadd => .fadd f
  | .fsub => .fsub f
  | .fmul => .fmul f
  | .ffma => .ffma f
  | .fmin => .fmin f
  | .fmax => .fmax f
  | .fcmp => .fcmp f
  | .fclass => .fclass f
  | .frnd => .frnd f
  | .fdot2 => .fdot2 f
  | .fcvt => .fcvt f
  | .f2i => .f2i f
  | .i2f => .i2f f
  | .fpack => .fpack f
  | .funpk => .funpk f
  | .fscl => .fscl f
  | .frcp => .frcp f
  | .frsq => .frsq f
  | .fsqrt => .fsqrt f
  | .fex2 => .fex2 f
  | .flg2 => .flg2 f
  | .fsin => .fsin f
  | .fcos => .fcos f
  | .ftanh => .ftanh f
  | .ld => .ld f
  | .st => .st f
  | .ldu => .ldu f
  | .stu => .stu f
  | .prf => .prf f
  | .twr => .twr f
  | .trd => .trd f
  | .tscl => .tscl f
  | .acrd => .acrd f
  | .acwr => .acwr f
  | .resb => .resb f
  | .xlat => .xlat f
  | .fence => .fence f
  | .fencek => .fencek f
  | .waitk => .waitk f
  | .twaitk => .twaitk f
  | .tkq => .tkq f
  | .tkclr => .tkclr f
  | .tkarr => .tkarr f
  | .pbinit => .pbinit f
  | .pbarr => .pbarr f
  | .pbwait => .pbwait f
  | .bsync => .bsync f
  | .monwait => .monwait f
  | .tkpsn => .tkpsn f
  | .atom => .atom f
  | .cas => .cas f
  | .red => .red f
  | .fatom => .fatom f
  | .fred => .fred f
  | .atomu => .atomu f
  | .mma => .mma f
  | .mmas => .mmas f
  | .aczero => .aczero f
  | .acdrain => .acdrain f
  | .acdrainAdd => .acdrainAdd f
  | .acload => .acload f
  | .mxset => .mxset f
  | .mxq => .mxq f
  | .gbind => .gbind f
  | .gmv => .gmv f
  | .gmva => .gmva f
  | .grvrd => .grvrd f
  | .gabort => .gabort f
  | .spawn => .spawn f
  | .jcinit => .jcinit f
  | .jcadd => .jcadd f
  | .jcwait => .jcwait f
  | .launchg => .launchg f
  | .spq => .spq f
  | .cpy => .cpy f
  | .cpyRing => .cpyRing f
  | .cpygGather => .cpygGather f
  | .cpygScatter => .cpygScatter f
  | .rinit => .rinit f
  | .racqProd => .racqProd f
  | .racqCons => .racqCons f
  | .rrelPub => .rrelPub f
  | .rrelPubLast => .rrelPubLast f
  | .rrelFree => .rrelFree f
  | .sbind => .sbind f
  | .sctlStat => .sctlStat f
  | .sctlDlen => .sctlDlen f
  | .sctlYlen => .sctlYlen f
  | .sctlElen => .sctlElen f
  | .sctlStop => .sctlStop f
  | .srd => .srd f
  | .semit => .semit f
  | .hdec => .hdec f
  | .rld => .rld f
  | .rst => .rst f
  | .rstm => .rstm f
  | .ratom => .ratom f
  | .rcpy => .rcpy f
  | .collAr => .collAr f
  | .collRs => .collRs f
  | .collAg => .collAg f
  | .rfence => .rfence f
  | .collcfg => .collcfg f
  | .vcfg => .vcfg f
  | .vcfgClose => .vcfgClose f
  | .venc => .venc f
  | .vqry => .vqry f
  | .trap => .trap f
  | .eret => .eret f
  | .mfsr => .mfsr f
  | .mtsr => .mtsr f
  | .bkpt => .bkpt f
  | .tmark => .tmark f
  | .pcnt => .pcnt f
  | .haltL => .haltL f
  | .clock => .clock f

/-- The kind and fields of an instruction; none for an event. -/
def Instr.view (i : Instr) : Option (Kind × Fields) :=
  match i with
  | .nop f => some (.nop, f)
  | .bra f => some (.bra, f)
  | .bru f => some (.bru, f)
  | .brx f => some (.brx, f)
  | .call f => some (.call, f)
  | .callx f => some (.callx, f)
  | .ret f => some (.ret, f)
  | .loopL f => some (.loopL, f)
  | .enrol f => some (.enrol, f)
  | .park f => some (.park, f)
  | .strike f => some (.strike, f)
  | .exitL f => some (.exitL, f)
  | .exitSucc f => some (.exitSucc, f)
  | .yield f => some (.yield, f)
  | .iadd f => some (.iadd, f)
  | .isub f => some (.isub, f)
  | .imul f => some (.imul, f)
  | .imad f => some (.imad, f)
  | .imin f => some (.imin, f)
  | .imax f => some (.imax, f)
  | .iabs f => some (.iabs, f)
  | .ineg f => some (.ineg, f)
  | .andL f => some (.andL, f)
  | .orL f => some (.orL, f)
  | .xorL f => some (.xorL, f)
  | .andn f => some (.andn, f)
  | .orn f => some (.orn, f)
  | .xnor f => some (.xnor, f)
  | .shl f => some (.shl, f)
  | .shr f => some (.shr, f)
  | .sha f => some (.sha, f)
  | .rol f => some (.rol, f)
  | .popc f => some (.popc, f)
  | .clz f => some (.clz, f)
  | .ctz f => some (.ctz, f)
  | .brev f => some (.brev, f)
  | .bfx f => some (.bfx, f)
  | .bfi f => some (.bfi, f)
  | .icmp f => some (.icmp, f)
  | .sel f => some (.sel, f)
  | .mov f => some (.mov, f)
  | .movI32 f => some (.movI32, f)
  | .movI64 f => some (.movI64, f)
  | .movs f => some (.movs, f)
  | .lea f => some (.lea, f)
  | .plop f => some (.plop, f)
  | .ballot f => some (.ballot, f)
  | .vote f => some (.vote, f)
  | .shfl f => some (.shfl, f)
  | .qswap f => some (.qswap, f)
  | .qbc f => some (.qbc, f)
  | .redux f => some (.redux, f)
  | .scan f => some (.scan, f)
  | .rdlane f => some (.rdlane, f)
  | .wrlane f => some (.wrlane, f)
  | .matchL f => some (.matchL, f)
  | .fadd f => some (.fadd, f)
  | .fsub f => some (.fsub, f)
  | .fmul f => some (.fmul, f)
  | .ffma f => some (.ffma, f)
  | .fmin f => some (.fmin, f)
  | .fmax f => some (.fmax, f)
  | .fcmp f => some (.fcmp, f)
  | .fclass f => some (.fclass, f)
  | .frnd f => some (.frnd, f)
  | .fdot2 f => some (.fdot2, f)
  | .fcvt f => some (.fcvt, f)
  | .f2i f => some (.f2i, f)
  | .i2f f => some (.i2f, f)
  | .fpack f => some (.fpack, f)
  | .funpk f => some (.funpk, f)
  | .fscl f => some (.fscl, f)
  | .frcp f => some (.frcp, f)
  | .frsq f => some (.frsq, f)
  | .fsqrt f => some (.fsqrt, f)
  | .fex2 f => some (.fex2, f)
  | .flg2 f => some (.flg2, f)
  | .fsin f => some (.fsin, f)
  | .fcos f => some (.fcos, f)
  | .ftanh f => some (.ftanh, f)
  | .ld f => some (.ld, f)
  | .st f => some (.st, f)
  | .ldu f => some (.ldu, f)
  | .stu f => some (.stu, f)
  | .prf f => some (.prf, f)
  | .twr f => some (.twr, f)
  | .trd f => some (.trd, f)
  | .tscl f => some (.tscl, f)
  | .acrd f => some (.acrd, f)
  | .acwr f => some (.acwr, f)
  | .resb f => some (.resb, f)
  | .xlat f => some (.xlat, f)
  | .fence f => some (.fence, f)
  | .fencek f => some (.fencek, f)
  | .waitk f => some (.waitk, f)
  | .twaitk f => some (.twaitk, f)
  | .tkq f => some (.tkq, f)
  | .tkclr f => some (.tkclr, f)
  | .tkarr f => some (.tkarr, f)
  | .pbinit f => some (.pbinit, f)
  | .pbarr f => some (.pbarr, f)
  | .pbwait f => some (.pbwait, f)
  | .bsync f => some (.bsync, f)
  | .monwait f => some (.monwait, f)
  | .tkpsn f => some (.tkpsn, f)
  | .atom f => some (.atom, f)
  | .cas f => some (.cas, f)
  | .red f => some (.red, f)
  | .fatom f => some (.fatom, f)
  | .fred f => some (.fred, f)
  | .atomu f => some (.atomu, f)
  | .mma f => some (.mma, f)
  | .mmas f => some (.mmas, f)
  | .aczero f => some (.aczero, f)
  | .acdrain f => some (.acdrain, f)
  | .acdrainAdd f => some (.acdrainAdd, f)
  | .acload f => some (.acload, f)
  | .mxset f => some (.mxset, f)
  | .mxq f => some (.mxq, f)
  | .gbind f => some (.gbind, f)
  | .gmv f => some (.gmv, f)
  | .gmva f => some (.gmva, f)
  | .grvrd f => some (.grvrd, f)
  | .gabort f => some (.gabort, f)
  | .spawn f => some (.spawn, f)
  | .jcinit f => some (.jcinit, f)
  | .jcadd f => some (.jcadd, f)
  | .jcwait f => some (.jcwait, f)
  | .launchg f => some (.launchg, f)
  | .spq f => some (.spq, f)
  | .cpy f => some (.cpy, f)
  | .cpyRing f => some (.cpyRing, f)
  | .cpygGather f => some (.cpygGather, f)
  | .cpygScatter f => some (.cpygScatter, f)
  | .rinit f => some (.rinit, f)
  | .racqProd f => some (.racqProd, f)
  | .racqCons f => some (.racqCons, f)
  | .rrelPub f => some (.rrelPub, f)
  | .rrelPubLast f => some (.rrelPubLast, f)
  | .rrelFree f => some (.rrelFree, f)
  | .sbind f => some (.sbind, f)
  | .sctlStat f => some (.sctlStat, f)
  | .sctlDlen f => some (.sctlDlen, f)
  | .sctlYlen f => some (.sctlYlen, f)
  | .sctlElen f => some (.sctlElen, f)
  | .sctlStop f => some (.sctlStop, f)
  | .srd f => some (.srd, f)
  | .semit f => some (.semit, f)
  | .hdec f => some (.hdec, f)
  | .rld f => some (.rld, f)
  | .rst f => some (.rst, f)
  | .rstm f => some (.rstm, f)
  | .ratom f => some (.ratom, f)
  | .rcpy f => some (.rcpy, f)
  | .collAr f => some (.collAr, f)
  | .collRs f => some (.collRs, f)
  | .collAg f => some (.collAg, f)
  | .rfence f => some (.rfence, f)
  | .collcfg f => some (.collcfg, f)
  | .vcfg f => some (.vcfg, f)
  | .vcfgClose f => some (.vcfgClose, f)
  | .venc f => some (.venc, f)
  | .vqry f => some (.vqry, f)
  | .trap f => some (.trap, f)
  | .eret f => some (.eret, f)
  | .mfsr f => some (.mfsr, f)
  | .mtsr f => some (.mtsr, f)
  | .bkpt f => some (.bkpt, f)
  | .tmark f => some (.tmark, f)
  | .pcnt f => some (.pcnt, f)
  | .haltL f => some (.haltL, f)
  | .clock f => some (.clock, f)
  | .tkarrDeferredArrival _ => none
  | .tokenComplete _ => none
  | .tokenWaitEnd _ _ => none
  | .twaitkTimeout _ _ => none
  | .monwaitWake _ _ => none
  | .monwaitTimeout _ _ => none
  | .monitorRecheck _ _ => none
  | .warpEnd _ => none
  | .successorStart _ => none
  | .blockRelaunch _ _ => none
  | .reductionHomeFailure _ => none
  | .sideLogReplay _ => none
  | .noticeRepost _ => none
  | .invalPage _ _ => none
  | .invalAll _ => none
  | .resume _ _ => none
  | .resumeReject _ _ => none
  | .copyEngineStart _ => none
  | .matrixCommandPerform _ => none
  | .grammarCommandStart _ => none
  | .grammarHoldBreak _ => none
  | .ringClaimGrant _ => none
  | .encoderCommandStart _ => none
  | .spawnEntryEligible _ => none
  | .fullWarp _ _ _ => none
  | .ageFlush _ _ _ => none
  | .idleFlush _ => none
  | .spillReturn _ _ => none
  | .childWarpAdmit _ _ => none
  | .eviction _ _ => none
  | .evictedWarpRestore _ _ => none
  | .fabricPacketArrival _ _ => none
  | .fabricAck _ _ => none
  | .rstmCommitMessage _ => none
  | .fabricRetransmit _ _ => none
  | .connectionDead _ _ => none
  | .collSend _ => none
  | .collReceive _ => none
  | .collTimeout _ => none
  | .dieLinkModuleFail _ _ => none
  | .launchQueueAppend _ _ => none
  | .qctlWrite _ _ => none
  | .launchCopy _ => none
  | .hearthEvaluation _ => none
  | .launchComplete _ => none
  | .chimneyHeldRelease _ => none
  | .chimneyTimeTrigger _ => none
  | .hcancel _ => none
  | .hkeyfree _ => none
  | .debugHalt _ _ _ _ => none
  | .debugResume _ _ _ _ => none
  | .debugStep _ _ _ _ => none
  | .bpset _ _ _ _ => none
  | .bpclr _ _ _ _ => none
  | .debugRead _ _ _ _ => none
  | .debugWrite _ _ _ _ => none
  | .debugSample _ _ _ _ => none
  | .debugGrant _ _ => none
  | .debugRevoke _ => none
  | .acctlEnable _ => none
  | .acctlLock _ => none
  | .acsync _ => none
  | .cap0Write _ => none
  | .islclkWrite _ _ => none
  | .pwrlimWrite _ => none
  | .currentSample _ _ _ => none
  | .thermalTrip _ => none
  | .connreset _ _ => none
  | .deviceReset => none
  | .pldmFirmwareUpdate _ => none
  | .pldmMonitoring _ => none
  | .spdm => none
  | .registerWrite _ _ _ _ => none
  | .applicationCoreAccess _ => none
  | .softError _ _ => none
  | .collectiveEngineStart _ => none
  | .clockChangeEffect _ => none

end Sys2Proof
end

