-- ==== Sys2Proof/WellFormed.lean ====
section
/-! DEFINITION. The checks of encoding (02_formats.md R35 step 2): Table 2.8 as one row per kind, and the
class-specific conditions on M, X0 and the space byte. WellFormed is the conjunction. The position check of
R32 and the checks that need the executing context (R97's segment, R361's PS registers) are made where the
instruction executes. -/

namespace Sys2Proof

/-- A row of the opcode map: OP, the SUB values, the formats (0 F64, 1 F96I, 2 F96X, 3 F128I, 4 F128X), whether
the instruction produces a token, whether it ends its run (Table 2.6), the M bits that may be set, the X0
bits that may be set, and the scopes accepted. -/
structure KindInfo where
  op : Nat
  subs : List Nat
  fmts : List Nat
  token : Bool
  ends : Bool
  mBits : Nat
  xBits : Nat
  scopes : List Nat
deriving DecidableEq, Repr

/-- The opcode map (Table 2.8 with the class tables of M and X0). -/
def Kind.info (k : Kind) : KindInfo :=
  match k with
  | .nop => ⟨0x00, [0], [0], false, false, 0x00, 0x0, [0, 1, 2, 3, 4]⟩
  | .bra => ⟨0x01, [0], [1], false, true, 0x00, 0x0, [0, 1, 2, 3, 4]⟩
  | .bru => ⟨0x02, [0], [1], false, true, 0x00, 0x0, [0, 1, 2, 3, 4]⟩
  | .brx => ⟨0x03, [0], [0], false, true, 0x00, 0x0, [0, 1, 2, 3, 4]⟩
  | .call => ⟨0x04, [0], [1], false, true, 0x00, 0x0, [0, 1, 2, 3, 4]⟩
  | .callx => ⟨0x05, [0], [0], false, true, 0x00, 0x0, [0, 1, 2, 3, 4]⟩
  | .ret => ⟨0x06, [0], [0], false, true, 0x00, 0x0, [0, 1, 2, 3, 4]⟩
  | .loopL => ⟨0x07, [0], [1], false, true, 0x00, 0x0, [0, 1, 2, 3, 4]⟩
  | .enrol => ⟨0x08, [0], [0], false, false, 0x00, 0x0, [0, 1, 2, 3, 4]⟩
  | .park => ⟨0x09, [0], [0], false, true, 0x00, 0x0, [0, 1, 2, 3, 4]⟩
  | .strike => ⟨0x0A, [0], [0], false, false, 0x00, 0x0, [0, 1, 2, 3, 4]⟩
  | .exitL => ⟨0x0B, [0], [0], false, true, 0x00, 0x0, [0, 1, 2, 3, 4]⟩
  | .exitSucc => ⟨0x0B, [1], [0], false, true, 0x00, 0x0, [0, 1, 2, 3, 4]⟩
  | .yield => ⟨0x0C, [0], [0], false, true, 0x00, 0x0, [0, 1, 2, 3, 4]⟩
  | .iadd => ⟨0x10, [0, 1], [0, 1], false, false, 0x07, 0x0, [0, 1, 2, 3, 4]⟩
  | .isub => ⟨0x11, [0, 1], [0, 1], false, false, 0x07, 0x0, [0, 1, 2, 3, 4]⟩
  | .imul => ⟨0x12, [0, 1, 2], [0, 1], false, false, 0x07, 0x0, [0, 1, 2, 3, 4]⟩
  | .imad => ⟨0x13, [0, 1, 2], [0, 1], false, false, 0x07, 0x0, [0, 1, 2, 3, 4]⟩
  | .imin => ⟨0x14, [0], [0, 1], false, false, 0x07, 0x0, [0, 1, 2, 3, 4]⟩
  | .imax => ⟨0x14, [1], [0, 1], false, false, 0x07, 0x0, [0, 1, 2, 3, 4]⟩
  | .iabs => ⟨0x15, [0], [0], false, false, 0x0F, 0x0, [0, 1, 2, 3, 4]⟩
  | .ineg => ⟨0x15, [1], [0], false, false, 0x0F, 0x0, [0, 1, 2, 3, 4]⟩
  | .andL => ⟨0x16, [0], [0, 1], false, false, 0x07, 0x0, [0, 1, 2, 3, 4]⟩
  | .orL => ⟨0x16, [1], [0, 1], false, false, 0x07, 0x0, [0, 1, 2, 3, 4]⟩
  | .xorL => ⟨0x16, [2], [0, 1], false, false, 0x07, 0x0, [0, 1, 2, 3, 4]⟩
  | .andn => ⟨0x16, [3], [0, 1], false, false, 0x07, 0x0, [0, 1, 2, 3, 4]⟩
  | .orn => ⟨0x16, [4], [0, 1], false, false, 0x07, 0x0, [0, 1, 2, 3, 4]⟩
  | .xnor => ⟨0x16, [5], [0, 1], false, false, 0x07, 0x0, [0, 1, 2, 3, 4]⟩
  | .shl => ⟨0x17, [0], [0, 1], false, false, 0x07, 0x0, [0, 1, 2, 3, 4]⟩
  | .shr => ⟨0x17, [1], [0, 1], false, false, 0x07, 0x0, [0, 1, 2, 3, 4]⟩
  | .sha => ⟨0x17, [2], [0, 1], false, false, 0x07, 0x0, [0, 1, 2, 3, 4]⟩
  | .rol => ⟨0x17, [3], [0, 1], false, false, 0x07, 0x0, [0, 1, 2, 3, 4]⟩
  | .popc => ⟨0x18, [0], [0], false, false, 0x07, 0x0, [0, 1, 2, 3, 4]⟩
  | .clz => ⟨0x18, [1], [0], false, false, 0x07, 0x0, [0, 1, 2, 3, 4]⟩
  | .ctz => ⟨0x18, [2], [0], false, false, 0x07, 0x0, [0, 1, 2, 3, 4]⟩
  | .brev => ⟨0x18, [3], [0], false, false, 0x07, 0x0, [0, 1, 2, 3, 4]⟩
  | .bfx => ⟨0x19, [0], [0, 1], false, false, 0x07, 0x0, [0, 1, 2, 3, 4]⟩
  | .bfi => ⟨0x1A, [0], [0, 1], false, false, 0x07, 0x0, [0, 1, 2, 3, 4]⟩
  | .icmp => ⟨0x1B, [0, 1, 2, 3, 4, 5], [0, 1], false, false, 0x0F, 0x0, [0, 1, 2, 3, 4]⟩
  | .sel => ⟨0x1C, [0], [0, 1], false, false, 0x0F, 0x0, [0, 1, 2, 3, 4]⟩
  | .mov => ⟨0x1D, [0], [0], false, false, 0x07, 0x0, [0, 1, 2, 3, 4]⟩
  | .movI32 => ⟨0x1D, [1], [1], false, false, 0x07, 0x0, [0, 1, 2, 3, 4]⟩
  | .movI64 => ⟨0x1D, [2], [3], false, false, 0x00, 0x0, [0, 1, 2, 3, 4]⟩
  | .movs => ⟨0x1E, [0], [0], false, false, 0x3F, 0x0, [0, 1, 2, 3, 4]⟩
  | .lea => ⟨0x1F, [0], [0, 1], false, false, 0x07, 0x0, [0, 1, 2, 3, 4]⟩
  | .plop => ⟨0x20, [0], [0], false, false, 0xFF, 0x0, [0, 1, 2, 3, 4]⟩
  | .ballot => ⟨0x21, [0], [0], false, false, 0x00, 0x0, [0, 1, 2, 3, 4]⟩
  | .vote => ⟨0x22, [0, 1, 2], [0], false, false, 0x08, 0x0, [0, 1, 2, 3, 4]⟩
  | .shfl => ⟨0x23, [0, 1, 2, 3], [0, 1], false, false, 0x3F, 0x0, [0, 1, 2, 3, 4]⟩
  | .qswap => ⟨0x24, [0, 1, 2], [0], false, false, 0x07, 0x0, [0, 1, 2, 3, 4]⟩
  | .qbc => ⟨0x25, [0], [0], false, false, 0x1F, 0x0, [0, 1, 2, 3, 4]⟩
  | .redux => ⟨0x26, [0, 1, 2, 3, 4, 5], [0], false, false, 0x07, 0x0, [0, 1, 2, 3, 4]⟩
  | .scan => ⟨0x27, [0, 1, 2, 3, 4, 5], [0], false, false, 0x0F, 0x0, [0, 1, 2, 3, 4]⟩
  | .rdlane => ⟨0x28, [0], [0, 1], false, false, 0x07, 0x0, [0, 1, 2, 3, 4]⟩
  | .wrlane => ⟨0x29, [0], [0, 1], false, false, 0x07, 0x0, [0, 1, 2, 3, 4]⟩
  | .matchL => ⟨0x2A, [0], [0], false, false, 0x07, 0x0, [0, 1, 2, 3, 4]⟩
  | .fadd => ⟨0x30, [0], [0, 1], false, false, 0x1F, 0x0, [0, 1, 2, 3, 4]⟩
  | .fsub => ⟨0x31, [0], [0, 1], false, false, 0x1F, 0x0, [0, 1, 2, 3, 4]⟩
  | .fmul => ⟨0x32, [0], [0, 1], false, false, 0x1F, 0x0, [0, 1, 2, 3, 4]⟩
  | .ffma => ⟨0x33, [0], [0, 1], false, false, 0x1F, 0x0, [0, 1, 2, 3, 4]⟩
  | .fmin => ⟨0x34, [0, 1], [0, 1], false, false, 0x1C, 0x0, [0, 1, 2, 3, 4]⟩
  | .fmax => ⟨0x35, [0, 1], [0, 1], false, false, 0x1C, 0x0, [0, 1, 2, 3, 4]⟩
  | .fcmp => ⟨0x36, [0, 1, 2, 3, 4, 5, 6, 7], [0, 1], false, false, 0x3C, 0x0, [0, 1, 2, 3, 4]⟩
  | .fclass => ⟨0x37, [0], [0], false, false, 0x1C, 0x0, [0, 1, 2, 3, 4]⟩
  | .frnd => ⟨0x38, [0], [0], false, false, 0x1F, 0x0, [0, 1, 2, 3, 4]⟩
  | .fdot2 => ⟨0x39, [0], [0, 1], false, false, 0x1F, 0x0, [0, 1, 2, 3, 4]⟩
  | .fcvt => ⟨0x40, [0], [0], false, false, 0xFF, 0x0, [0, 1, 2, 3, 4]⟩
  | .f2i => ⟨0x41, [0], [0], false, false, 0xFF, 0x0, [0, 1, 2, 3, 4]⟩
  | .i2f => ⟨0x42, [0], [0], false, false, 0xFF, 0x0, [0, 1, 2, 3, 4]⟩
  | .fpack => ⟨0x43, [0], [0], false, false, 0x3F, 0x0, [0, 1, 2, 3, 4]⟩
  | .funpk => ⟨0x44, [0], [0], false, false, 0x7C, 0x0, [0, 1, 2, 3, 4]⟩
  | .fscl => ⟨0x45, [0], [0, 1], false, false, 0x9F, 0x0, [0, 1, 2, 3, 4]⟩
  | .frcp => ⟨0x46, [0], [0], false, false, 0x1F, 0x0, [0, 1, 2, 3, 4]⟩
  | .frsq => ⟨0x47, [0], [0], false, false, 0x1C, 0x0, [0, 1, 2, 3, 4]⟩
  | .fsqrt => ⟨0x48, [0], [0], false, false, 0x1F, 0x0, [0, 1, 2, 3, 4]⟩
  | .fex2 => ⟨0x49, [0], [0], false, false, 0x1C, 0x0, [0, 1, 2, 3, 4]⟩
  | .flg2 => ⟨0x4A, [0], [0], false, false, 0x1C, 0x0, [0, 1, 2, 3, 4]⟩
  | .fsin => ⟨0x4B, [0], [0], false, false, 0x1C, 0x0, [0, 1, 2, 3, 4]⟩
  | .fcos => ⟨0x4C, [0], [0], false, false, 0x1C, 0x0, [0, 1, 2, 3, 4]⟩
  | .ftanh => ⟨0x4D, [0], [0], false, false, 0x1C, 0x0, [0, 1, 2, 3, 4]⟩
  | .ld => ⟨0x50, [0, 1, 2, 3, 4, 5, 6], [0, 1], true, false, 0x1F, 0x0, [0, 1, 2, 3, 4]⟩
  | .st => ⟨0x51, [0, 1, 2, 3, 6], [0, 1], false, false, 0x00, 0x0, [0, 1, 2, 3, 4]⟩
  | .ldu => ⟨0x52, [0, 1, 2, 3, 4, 5, 6], [0, 1], true, false, 0x1F, 0x0, [0, 1, 2, 3, 4]⟩
  | .stu => ⟨0x53, [0, 1, 2, 3, 6], [0, 1], false, false, 0x00, 0x0, [0, 1, 2, 3, 4]⟩
  | .prf => ⟨0x54, [0], [0, 1], false, false, 0x01, 0x0, [0, 1, 2, 3, 4]⟩
  | .twr => ⟨0x55, [0], [0], false, false, 0x00, 0x0, [0, 1, 2, 3, 4]⟩
  | .trd => ⟨0x56, [0], [0], false, false, 0x00, 0x0, [0, 1, 2, 3, 4]⟩
  | .tscl => ⟨0x57, [0], [0], false, false, 0x07, 0x0, [0, 1, 2, 3, 4]⟩
  | .acrd => ⟨0x58, [0], [0], false, false, 0x00, 0x0, [0, 1, 2, 3, 4]⟩
  | .acwr => ⟨0x59, [0], [0], false, false, 0x00, 0x0, [0, 1, 2, 3, 4]⟩
  | .resb => ⟨0x5A, [0], [0], false, false, 0x01, 0x0, [0, 1, 2, 3, 4]⟩
  | .xlat => ⟨0x5B, [0], [0, 1], true, false, 0x1F, 0x0, [0, 1, 2, 3, 4]⟩
  | .fence => ⟨0x60, [0, 1, 2, 3, 4], [0], false, false, 0x00, 0x0, [0, 1, 2, 3, 4]⟩
  | .fencek => ⟨0x61, [0], [0, 2, 4], true, false, 0x7F, 0x7, [0, 1, 2, 3, 4]⟩
  | .waitk => ⟨0x62, [0], [0, 1], false, true, 0x00, 0x0, [0, 1, 2, 3, 4]⟩
  | .twaitk => ⟨0x63, [0], [0, 1], false, true, 0x00, 0x0, [0, 1, 2, 3, 4]⟩
  | .tkq => ⟨0x64, [0], [0], false, false, 0x3F, 0x0, [0, 1, 2, 3, 4]⟩
  | .tkclr => ⟨0x65, [0], [0, 1], false, false, 0x00, 0x0, [0, 1, 2, 3, 4]⟩
  | .tkarr => ⟨0x66, [0, 1], [0, 1], false, false, 0x03, 0x0, [0, 1, 2, 3, 4]⟩
  | .pbinit => ⟨0x67, [0], [0], false, false, 0x1F, 0x0, [0, 1, 2, 3, 4]⟩
  | .pbarr => ⟨0x68, [0, 1], [0, 1], false, false, 0x03, 0x0, [0, 1, 2, 3, 4]⟩
  | .pbwait => ⟨0x69, [0], [0, 1], true, false, 0x9F, 0x0, [0, 1, 2, 3, 4]⟩
  | .bsync => ⟨0x6A, [0], [0], false, true, 0x00, 0x0, [0, 1, 2, 3, 4]⟩
  | .monwait => ⟨0x6B, [0], [0], false, true, 0x07, 0x0, [0, 1, 2, 3, 4]⟩
  | .tkpsn => ⟨0x6C, [0], [0, 1], false, false, 0x00, 0x0, [0, 1, 2, 3, 4]⟩
  | .atom => ⟨0x70, [0, 1, 2, 3, 4, 5, 6], [2, 4], true, false, 0x7F, 0xFFFFFFFF, [0, 1, 2, 3, 4]⟩
  | .cas => ⟨0x71, [0], [2, 4], true, false, 0x7F, 0xFFFFFFFF, [0, 1, 2, 3, 4]⟩
  | .red => ⟨0x72, [0, 1, 2, 3, 4, 5], [2, 4], false, false, 0x00, 0xFFFFFFF8, [0]⟩
  | .fatom => ⟨0x73, [0, 1, 2, 3, 4], [2, 4], true, false, 0x7F, 0xFFFFFFFF, [0, 1, 2, 3, 4]⟩
  | .fred => ⟨0x74, [0, 1, 2, 3, 4], [2, 4], false, false, 0x00, 0xFFFFFFF8, [0]⟩
  | .atomu => ⟨0x75, [0, 1, 2, 3, 4, 5, 6], [2, 4], true, false, 0x7F, 0xFFFFFFFF, [0, 1, 2, 3, 4]⟩
  | .mma => ⟨0x80, [0, 1, 2, 3], [2, 4], true, false, 0x5F, 0x1FF, [0, 1, 2, 3, 4]⟩
  | .mmas => ⟨0x81, [0, 1, 2, 3], [2, 4], true, false, 0x5F, 0x7FFF, [0, 1, 2, 3, 4]⟩
  | .aczero => ⟨0x82, [0], [0, 4], true, false, 0x1F, 0x7, [0, 1, 2, 3, 4]⟩
  | .acdrain => ⟨0x83, [0], [2, 4], true, false, 0x7F, 0x3FF, [0, 1, 2, 3, 4]⟩
  | .acdrainAdd => ⟨0x83, [1], [2, 4], true, false, 0x7F, 0x3FF, [0, 1, 2, 3, 4]⟩
  | .acload => ⟨0x84, [0], [2, 4], true, false, 0x5F, 0x33F, [0, 1, 2, 3, 4]⟩
  | .mxset => ⟨0x85, [0], [0, 1], false, false, 0x00, 0x0, [0, 1, 2, 3, 4]⟩
  | .mxq => ⟨0x86, [0], [0], false, false, 0x07, 0x0, [0, 1, 2, 3, 4]⟩
  | .gbind => ⟨0x90, [0], [2, 4], true, false, 0x7F, 0x1007, [0, 1, 2, 3, 4]⟩
  | .gmv => ⟨0x91, [0], [2, 4], true, false, 0xFF, 0x1F3F, [0, 1, 2, 3, 4]⟩
  | .gmva => ⟨0x92, [0], [2, 4], true, false, 0xFF, 0x1F3F, [0, 1, 2, 3, 4]⟩
  | .grvrd => ⟨0x93, [0], [2, 4], true, false, 0xFF, 0x1F, [0, 1, 2, 3, 4]⟩
  | .gabort => ⟨0x94, [0], [0], false, false, 0x00, 0x0, [0, 1, 2, 3, 4]⟩
  | .spawn => ⟨0xA0, [0], [0, 1], false, false, 0x01, 0x0, [0, 1, 2, 3, 4]⟩
  | .jcinit => ⟨0xA1, [0], [0, 1], false, false, 0x01, 0x0, [0, 1, 2, 3, 4]⟩
  | .jcadd => ⟨0xA2, [0], [0, 1], false, false, 0x01, 0x0, [0, 1, 2, 3, 4]⟩
  | .jcwait => ⟨0xA3, [0], [0], true, false, 0x9F, 0x0, [0, 1, 2, 3, 4]⟩
  | .launchg => ⟨0xA4, [0], [0, 2, 4], true, false, 0x3F, 0x7, [2, 4]⟩
  | .spq => ⟨0xA5, [0], [0], false, false, 0x07, 0x0, [0, 1, 2, 3, 4]⟩
  | .cpy => ⟨0xB0, [0, 1, 2], [0, 2, 4], true, false, 0x7F, 0x7F, [0, 1, 2, 3, 4]⟩
  | .cpyRing => ⟨0xB0, [0], [2, 4], true, false, 0x7F, 0xFF, [0, 1, 2, 3, 4]⟩
  | .cpygGather => ⟨0xB1, [0], [0, 2, 4], true, false, 0x7F, 0x1FF, [0, 1, 2, 3, 4]⟩
  | .cpygScatter => ⟨0xB1, [1], [0, 2, 4], true, false, 0x7F, 0x1FF, [0, 1, 2, 3, 4]⟩
  | .rinit => ⟨0xB2, [0], [0], false, false, 0x03, 0x0, [0, 1, 2, 3, 4]⟩
  | .racqProd => ⟨0xB3, [0], [0, 2, 4], true, false, 0x5F, 0x1F, [0, 1, 2]⟩
  | .racqCons => ⟨0xB3, [1], [0, 2, 4], true, false, 0x5F, 0x1F, [0, 1, 2]⟩
  | .rrelPub => ⟨0xB4, [0], [0, 2, 4], true, false, 0x3F, 0x1F, [0, 1, 2]⟩
  | .rrelPubLast => ⟨0xB4, [0], [0, 2, 4], true, false, 0xBF, 0x1F, [0, 1, 2]⟩
  | .rrelFree => ⟨0xB4, [1], [0, 2, 4], true, false, 0x3F, 0x1F, [0, 1, 2]⟩
  | .sbind => ⟨0xB5, [0], [0], false, false, 0x00, 0x0, [0, 1, 2, 3, 4]⟩
  | .sctlStat => ⟨0xB6, [0], [0, 1], false, false, 0x07, 0x0, [0, 1, 2, 3, 4]⟩
  | .sctlDlen => ⟨0xB6, [0], [0, 1], false, false, 0x07, 0x0, [0, 1, 2, 3, 4]⟩
  | .sctlYlen => ⟨0xB6, [0], [0, 1], false, false, 0x07, 0x0, [0, 1, 2, 3, 4]⟩
  | .sctlElen => ⟨0xB6, [0], [0, 1], false, false, 0x07, 0x0, [0, 1, 2, 3, 4]⟩
  | .sctlStop => ⟨0xB6, [0], [0, 1], false, false, 0x07, 0x0, [0, 1, 2, 3, 4]⟩
  | .srd => ⟨0xB7, [0], [0], true, false, 0x9F, 0x0, [0, 1, 2, 3, 4]⟩
  | .semit => ⟨0xB8, [0], [0], false, false, 0x0F, 0x0, [0, 1, 2, 3, 4]⟩
  | .hdec => ⟨0xB9, [0], [0, 2, 4], true, false, 0xFF, 0x7, [0, 1, 2, 3, 4]⟩
  | .rld => ⟨0xC0, [0], [2, 4], true, false, 0x5F, 0xFFFFFF3F, [2, 3, 4]⟩
  | .rst => ⟨0xC1, [0], [2, 4], true, false, 0x3F, 0xFFFFFF3F, [2, 3, 4]⟩
  | .rstm => ⟨0xC2, [0], [2, 4], true, false, 0x7F, 0xFFC7, [2, 3, 4]⟩
  | .ratom => ⟨0xC3, [0, 1, 2, 3, 4, 5, 6], [2, 4], true, false, 0x7F, 0xFFFFFF3F, [2, 3, 4]⟩
  | .rcpy => ⟨0xC4, [0], [2, 4], true, false, 0x7F, 0xFFC7, [2, 3, 4]⟩
  | .collAr => ⟨0xC5, [0], [0, 2, 4], true, false, 0x7F, 0xFF07, [2, 3, 4]⟩
  | .collRs => ⟨0xC5, [1], [0, 2, 4], true, false, 0x7F, 0xFF07, [2, 3, 4]⟩
  | .collAg => ⟨0xC5, [2], [0, 2, 4], true, false, 0x7F, 0xFF07, [2, 3, 4]⟩
  | .rfence => ⟨0xC6, [0], [0, 2, 4], true, false, 0x7F, 0x7, [2, 3, 4]⟩
  | .collcfg => ⟨0xC7, [0], [0, 1], false, false, 0x00, 0x0, [0, 1, 2, 3, 4]⟩
  | .vcfg => ⟨0xD0, [0], [0, 2, 4], true, false, 0x5F, 0x7, [0, 1, 2, 3, 4]⟩
  | .vcfgClose => ⟨0xD0, [0], [0, 2, 4], true, false, 0xDF, 0x7, [0, 1, 2, 3, 4]⟩
  | .venc => ⟨0xD1, [0], [0, 2, 4], true, false, 0xFF, 0x3F, [0, 1, 2, 3, 4]⟩
  | .vqry => ⟨0xD2, [0], [0], false, false, 0x07, 0x0, [0, 1, 2, 3, 4]⟩
  | .trap => ⟨0xE0, [0], [0], false, true, 0xFF, 0x0, [0, 1, 2, 3, 4]⟩
  | .eret => ⟨0xE1, [0], [0], false, true, 0x00, 0x0, [0, 1, 2, 3, 4]⟩
  | .mfsr => ⟨0xE2, [0], [0], false, false, 0xFF, 0x0, [0, 1, 2, 3, 4]⟩
  | .mtsr => ⟨0xE3, [0], [0, 1], false, false, 0xFF, 0x0, [0, 1, 2, 3, 4]⟩
  | .bkpt => ⟨0xE4, [0], [0], false, true, 0xFF, 0x0, [0, 1, 2, 3, 4]⟩
  | .tmark => ⟨0xE5, [0], [0, 1], false, false, 0xFF, 0x0, [0, 1, 2, 3, 4]⟩
  | .pcnt => ⟨0xE6, [0], [0], false, false, 0x07, 0x0, [0, 1, 2, 3, 4]⟩
  | .haltL => ⟨0xE7, [0], [0], false, true, 0x00, 0x0, [0, 1, 2, 3, 4]⟩
  | .clock => ⟨0xE8, [0], [0], false, false, 0x01, 0x0, [0, 1, 2, 3, 4]⟩

/-- The format code of an extension (Table 2.3). -/
def Ext.fmt (x : Ext) : Nat :=
  match x with
  | .f64 => 0
  | .f96i _ => 1
  | .f96x _ => 2
  | .f128i _ => 3
  | .f128x _ _ => 4

/-- The extension word X0, where the format has one. -/
def Ext.x0? (x : Ext) : Option W32 :=
  match x with
  | .f96x w => some w
  | .f128x _ w => some w
  | _ => none

/-- Bits hi..lo of a natural number. -/
def nbits (x hi lo : Nat) : Nat := (x >>> lo) % 2 ^ (hi + 1 - lo)

/-- TY, M[2:0] of classes 0x1 and 0x2 (Table 5.1). -/
def Fields.ty (f : Fields) : Nat := nbits f.m.toNat 2 0
/-- FT or the destination CT, M[4:2] of classes 0x3 and 0x4 (Table 6.4). -/
def Fields.ft (f : Fields) : Nat := nbits f.m.toNat 4 2
/-- The upper type field M[7:5] of FCVT, F2I and I2F. -/
def Fields.hiTy (f : Fields) : Nat := nbits f.m.toNat 7 5
/-- RM, M[1:0]. -/
def Fields.rm (f : Fields) : Nat := nbits f.m.toNat 1 0
/-- X0 as a number, 0 when the format has none. -/
def Fields.x (f : Fields) : Nat := ((f.ext.x0?).getD 0).toNat

/-- The space byte of class 0x5 (Table 7.3): zero bits, an accepted hint, an accepted space. -/
def spaceByteOk (x : Ext) (hints : List Nat) (maxSpace : Nat) : Bool :=
  match x with
  | .f96i imm =>
    nbits imm.toNat 31 28 == 0 && hints.contains (nbits imm.toNat 27 26) && nbits imm.toNat 25 24 ≤ maxSpace
  | _ => true

/-- System registers MFSR may name (Table 17.2). -/
def srListed (n : Nat) : Bool :=
  n ≤ 0x0E || (0x10 ≤ n && n ≤ 0x12) || (0x40 ≤ n && n ≤ 0x47)
/-- System registers MTSR may write (Table 17.2, Access RW). -/
def srWritable (n : Nat) : Bool := [0x04, 0x08, 0x09, 0x0A].contains n

/-- Types of A and B in one family (11_matrix.md R229). -/
def typesPair (at' bt : Nat) : Bool :=
  (at' ≤ 1 && bt ≤ 1) || ((at' == 2 || at' == 3) && (bt == 2 || bt == 3)) || (at' == 4 && bt == 4)

/-- X0[15:8] is 0xFF where the field is not used, in the formats that carry X0. -/
def ppUnused (f : Fields) : Bool := f.ext.x0?.isNone || nbits f.x 15 8 == 0xFF

/-- Conditions on M, SUB and X0 beyond the bit masks, by kind, each from the class chapter's rule. -/
def extraOk (k : Kind) (f : Fields) : Bool :=
  let sub := f.sub.val
  match k with
  | .iadd | .isub | .imin | .imax | .andL | .orL | .xorL | .andn | .orn | .xnor | .shl | .shr | .sha | .rol
  | .popc | .clz | .ctz | .brev | .bfx | .bfi | .icmp | .sel | .mov | .movI32 | .shfl | .qswap | .qbc
  | .redux | .scan | .rdlane | .wrlane | .matchL =>
    f.ty ≤ 3 && (k != .shfl || nbits f.m.toNat 5 3 ≤ 6)
  | .imul | .imad => f.ty ≤ 3 && (sub != 2 || f.ty ≤ 1)
  | .iabs | .ineg => f.ty == 1 || f.ty == 3
  | .movs => nbits f.m.toNat 5 0 ≤ 0x14
  | .lea => f.ty ≤ 4
  | .fadd | .fsub | .fmul | .ffma | .fmin | .fmax => f.ft ≤ 4
  | .fcmp | .fclass | .frnd | .fscl | .frcp | .frsq | .fsqrt | .fex2 | .flg2 | .fsin | .fcos | .ftanh => f.ft ≤ 2
  | .fdot2 => f.ft == 3 || f.ft == 4
  | .fcvt => f.ft ≤ 5 && f.hiTy ≤ 5
  | .f2i | .i2f => f.ft ≤ 2 && f.hiTy ≤ 3
  | .fpack => 1 ≤ f.ft && f.ft ≤ 5 && (f.hiTy == 0 || 3 ≤ f.ft)
  | .funpk => 1 ≤ f.ft && f.ft ≤ 5 && (3 ≤ f.ft || nbits f.m.toNat 6 5 ≤ 1)
  | .ld | .ldu => spaceByteOk f.ext [0, 1, 2] 3
  | .st | .stu => spaceByteOk f.ext [0, 2] 3
  | .prf => spaceByteOk f.ext [0, 1, 2] 0
  | .xlat => spaceByteOk f.ext [0] 0
  | .fencek => f.m.getLsbD 5 || f.m.getLsbD 6
  | .tkq => f.m.getLsbD 5 || nbits f.m.toNat 4 0 == 0
  | .pbinit => nbits f.m.toNat 4 2 ≤ 3
  | .atom | .red | .atomu => nbits f.x 7 5 ≤ 3 && nbits f.x 15 8 == 0xFF
  | .cas => nbits f.x 7 5 ≤ 3
  | .fatom | .fred => [0, 3, 4].contains (nbits f.x 7 5) && nbits f.x 15 8 == 0xFF
  | .mma | .mmas => typesPair (nbits f.x 5 3) (nbits f.x 8 6)
  | .acdrain => nbits f.x 5 3 ≤ 5
  | .acdrainAdd => nbits f.x 5 3 ≤ 2
  | .acload => nbits f.x 5 3 ≤ 2
  | .mxq => f.ty ≤ 3
  | .gmv | .gmva => nbits f.x 5 3 ≤ 5
  | .spq => f.ty ≤ 4
  | .cpyRing => f.x.testBit 7 && nbits f.x 4 3 != 0
  | .racqProd | .racqCons | .rrelPub | .rrelFree => f.ext.x0?.isNone || nbits f.x 4 3 != 0
  | .rrelPubLast => f.m.getLsbD 7 && (f.ext.x0?.isNone || nbits f.x 4 3 != 0)
  | .sctlStat => f.ty == 0
  | .sctlDlen => f.ty == 1
  | .sctlYlen => f.ty == 2
  | .sctlElen => f.ty == 3
  | .sctlStop => f.ty == 4
  | .rld | .rst => nbits f.x 5 3 == 0 || nbits f.x 5 3 == 2
  | .ratom => nbits f.x 5 3 ≤ 3
  | .collAr | .collRs | .collAg => ppUnused f
  | .vcfgClose => f.m.getLsbD 7
  | .venc => nbits f.x 5 4 == 0 || nbits f.x 5 4 == 3
  | .vqry => f.ty ≤ 3
  | .mfsr => srListed f.m.toNat
  | .mtsr => srWritable f.m.toNat
  | _ => true

/-- Every condition of R35 step 2 on one kind: SUB and format listed (R21, R37), no KW without KV (R20), no
M or X0 bit that the kind does not use, an accepted scope (R23), and the class's own conditions. -/
def encOk (k : Kind) (f : Fields) : Bool :=
  let i := k.info
  i.subs.contains f.sub.val && i.fmts.contains f.ext.fmt && (f.kv || f.kw == 0)
    && f.m.toNat &&& (0xFF - i.mBits) == 0
    && f.x &&& (0xFFFFFFFF - i.xBits) == 0
    && (f.ext.x0?.isNone || i.scopes.contains (f.x % 8))
    && extraOk k f

/-- Well-formed instructions: encodings that are instructions (R35 step 2). An event has no encoding and is
well-formed. -/
def Instr.wellFormed (i : Instr) : Bool :=
  match i.view with
  | some (k, f) => encOk k f
  | none => true

end Sys2Proof
end

