-- ==== Sys2Proof/Decode.lean ====
section
/-! DEFINITION. Decoding and encoding (02_formats.md R15 to R25, R37). The decoder takes the bytes from an
instruction's address on, lowest address first, and answers a pad word, an instruction with its length in
bytes, or a rejection by name; each rejection but `short` is the illegal-instruction trap of R35 step 2. The
encoder is written from the same tables. -/

namespace Sys2Proof

/-- Why bytes are not an instruction. -/
inductive Reject where
  | short        -- fewer bytes than the length code asks for
  | opcode       -- OP not in Table 2.8 (R37)
  | sub          -- SUB not listed for the opcode (R37)
  | format       -- a length the instruction does not accept (R21)
  | kwWithoutKv  -- KV = 0 with KW not zero (R20)
  | modifier     -- an M bit the instruction does not use (R28)
  | extension    -- an X0 bit the instruction does not use (R23)
  | scope        -- a scope the instruction does not accept (R23)
  | classRule    -- a condition of the class chapter
deriving DecidableEq, Repr

/-- The decoder's answer. -/
inductive Decoded where
  | pad
  | ok (i : Instr) (len : Nat)
  | bad (r : Reject)
deriving DecidableEq, Repr

/-- An operand byte (Table 2.5). -/
def Reg.ofByte (n : Nat) : Reg :=
  if h : n < 160 then .v ⟨n, h⟩
  else if h : n - 160 < 64 then .s ⟨n - 160, h⟩
  else if h : n - 224 < 8 then .e ⟨n - 224, h⟩
  else if h : n - 232 < 23 then .reserved ⟨n - 232, h⟩
  else .zero

/-- The byte of an operand (Table 2.5). -/
def Reg.byte (r : Reg) : Nat :=
  match r with
  | .v n => n.val
  | .s n => 160 + n.val
  | .e n => 224 + n.val
  | .reserved n => 232 + n.val
  | .zero => 255

/-- Little-endian number of a list of bytes (00_scope.md R2). -/
def leNat (bs : List Byte) : Nat :=
  match bs with
  | [] => 0
  | b :: t => b.toNat + 256 * leNat t

/-- The first n bytes of a number, least significant first. -/
def leBytes (n x : Nat) : List Byte :=
  match n with
  | 0 => []
  | k + 1 => BitVec.ofNat 8 x :: leBytes k (x / 256)

/-- Bytes of an instruction by its length code (Table 2.1); a pad word has 4. -/
def lenBytes (code : Nat) : Nat :=
  match code with
  | 0 => 8
  | 1 => 12
  | 2 => 16
  | _ => 4


/-- The kind an OP value names (Table 2.8). Where one OP serves several kinds, SUB, M or X0[7] chooses. -/
def Kind.ofOp (op sub m x0 : Nat) : Except Reject Kind :=
  match op with
  | 0x00 => .ok .nop
  | 0x01 => .ok .bra
  | 0x02 => .ok .bru
  | 0x03 => .ok .brx
  | 0x04 => .ok .call
  | 0x05 => .ok .callx
  | 0x06 => .ok .ret
  | 0x07 => .ok .loopL
  | 0x08 => .ok .enrol
  | 0x09 => .ok .park
  | 0x0A => .ok .strike
  | 0x0B =>
    match sub with
    | 0 => .ok .exitL
    | 1 => .ok .exitSucc
    | _ => .error .sub
  | 0x0C => .ok .yield
  | 0x10 => .ok .iadd
  | 0x11 => .ok .isub
  | 0x12 => .ok .imul
  | 0x13 => .ok .imad
  | 0x14 =>
    match sub with
    | 0 => .ok .imin
    | 1 => .ok .imax
    | _ => .error .sub
  | 0x15 =>
    match sub with
    | 0 => .ok .iabs
    | 1 => .ok .ineg
    | _ => .error .sub
  | 0x16 =>
    match sub with
    | 0 => .ok .andL
    | 1 => .ok .orL
    | 2 => .ok .xorL
    | 3 => .ok .andn
    | 4 => .ok .orn
    | 5 => .ok .xnor
    | _ => .error .sub
  | 0x17 =>
    match sub with
    | 0 => .ok .shl
    | 1 => .ok .shr
    | 2 => .ok .sha
    | 3 => .ok .rol
    | _ => .error .sub
  | 0x18 =>
    match sub with
    | 0 => .ok .popc
    | 1 => .ok .clz
    | 2 => .ok .ctz
    | 3 => .ok .brev
    | _ => .error .sub
  | 0x19 => .ok .bfx
  | 0x1A => .ok .bfi
  | 0x1B => .ok .icmp
  | 0x1C => .ok .sel
  | 0x1D =>
    match sub with
    | 0 => .ok .mov
    | 1 => .ok .movI32
    | 2 => .ok .movI64
    | _ => .error .sub
  | 0x1E => .ok .movs
  | 0x1F => .ok .lea
  | 0x20 => .ok .plop
  | 0x21 => .ok .ballot
  | 0x22 => .ok .vote
  | 0x23 => .ok .shfl
  | 0x24 => .ok .qswap
  | 0x25 => .ok .qbc
  | 0x26 => .ok .redux
  | 0x27 => .ok .scan
  | 0x28 => .ok .rdlane
  | 0x29 => .ok .wrlane
  | 0x2A => .ok .matchL
  | 0x30 => .ok .fadd
  | 0x31 => .ok .fsub
  | 0x32 => .ok .fmul
  | 0x33 => .ok .ffma
  | 0x34 => .ok .fmin
  | 0x35 => .ok .fmax
  | 0x36 => .ok .fcmp
  | 0x37 => .ok .fclass
  | 0x38 => .ok .frnd
  | 0x39 => .ok .fdot2
  | 0x40 => .ok .fcvt
  | 0x41 => .ok .f2i
  | 0x42 => .ok .i2f
  | 0x43 => .ok .fpack
  | 0x44 => .ok .funpk
  | 0x45 => .ok .fscl
  | 0x46 => .ok .frcp
  | 0x47 => .ok .frsq
  | 0x48 => .ok .fsqrt
  | 0x49 => .ok .fex2
  | 0x4A => .ok .flg2
  | 0x4B => .ok .fsin
  | 0x4C => .ok .fcos
  | 0x4D => .ok .ftanh
  | 0x50 => .ok .ld
  | 0x51 => .ok .st
  | 0x52 => .ok .ldu
  | 0x53 => .ok .stu
  | 0x54 => .ok .prf
  | 0x55 => .ok .twr
  | 0x56 => .ok .trd
  | 0x57 => .ok .tscl
  | 0x58 => .ok .acrd
  | 0x59 => .ok .acwr
  | 0x5A => .ok .resb
  | 0x5B => .ok .xlat
  | 0x60 => .ok .fence
  | 0x61 => .ok .fencek
  | 0x62 => .ok .waitk
  | 0x63 => .ok .twaitk
  | 0x64 => .ok .tkq
  | 0x65 => .ok .tkclr
  | 0x66 => .ok .tkarr
  | 0x67 => .ok .pbinit
  | 0x68 => .ok .pbarr
  | 0x69 => .ok .pbwait
  | 0x6A => .ok .bsync
  | 0x6B => .ok .monwait
  | 0x6C => .ok .tkpsn
  | 0x70 => .ok .atom
  | 0x71 => .ok .cas
  | 0x72 => .ok .red
  | 0x73 => .ok .fatom
  | 0x74 => .ok .fred
  | 0x75 => .ok .atomu
  | 0x80 => .ok .mma
  | 0x81 => .ok .mmas
  | 0x82 => .ok .aczero
  | 0x83 =>
    match sub with
    | 0 => .ok .acdrain
    | 1 => .ok .acdrainAdd
    | _ => .error .sub
  | 0x84 => .ok .acload
  | 0x85 => .ok .mxset
  | 0x86 => .ok .mxq
  | 0x90 => .ok .gbind
  | 0x91 => .ok .gmv
  | 0x92 => .ok .gmva
  | 0x93 => .ok .grvrd
  | 0x94 => .ok .gabort
  | 0xA0 => .ok .spawn
  | 0xA1 => .ok .jcinit
  | 0xA2 => .ok .jcadd
  | 0xA3 => .ok .jcwait
  | 0xA4 => .ok .launchg
  | 0xA5 => .ok .spq
  | 0xB0 => if nbits x0 7 7 == 1 then .ok .cpyRing else .ok .cpy
  | 0xB1 =>
    match sub with
    | 0 => .ok .cpygGather
    | 1 => .ok .cpygScatter
    | _ => .error .sub
  | 0xB2 => .ok .rinit
  | 0xB3 =>
    match sub with
    | 0 => .ok .racqProd
    | 1 => .ok .racqCons
    | _ => .error .sub
  | 0xB4 => if sub == 0 then (if nbits m 7 7 == 1 then .ok .rrelPubLast else .ok .rrelPub)
    else if sub == 1 then .ok .rrelFree else .error .sub
  | 0xB5 => .ok .sbind
  | 0xB6 =>
    match nbits m 2 0 with
    | 0 => .ok .sctlStat
    | 1 => .ok .sctlDlen
    | 2 => .ok .sctlYlen
    | 3 => .ok .sctlElen
    | 4 => .ok .sctlStop
    | _ => .error .classRule
  | 0xB7 => .ok .srd
  | 0xB8 => .ok .semit
  | 0xB9 => .ok .hdec
  | 0xC0 => .ok .rld
  | 0xC1 => .ok .rst
  | 0xC2 => .ok .rstm
  | 0xC3 => .ok .ratom
  | 0xC4 => .ok .rcpy
  | 0xC5 =>
    match sub with
    | 0 => .ok .collAr
    | 1 => .ok .collRs
    | 2 => .ok .collAg
    | _ => .error .sub
  | 0xC6 => .ok .rfence
  | 0xC7 => .ok .collcfg
  | 0xD0 => if nbits m 7 7 == 1 then .ok .vcfgClose else .ok .vcfg
  | 0xD1 => .ok .venc
  | 0xD2 => .ok .vqry
  | 0xE0 => .ok .trap
  | 0xE1 => .ok .eret
  | 0xE2 => .ok .mfsr
  | 0xE3 => .ok .mtsr
  | 0xE4 => .ok .bkpt
  | 0xE5 => .ok .tmark
  | 0xE6 => .ok .pcnt
  | 0xE7 => .ok .haltL
  | 0xE8 => .ok .clock
  | _ => .error .opcode

/-- The extension a length code selects for a kind (R21, Table 2.3); none if the kind accepts no such format. -/
def extOf (fmts : List Nat) (len x : Nat) : Option Ext :=
  let w2 : W32 := BitVec.ofNat 32 (x >>> 64)
  let w3 : W32 := BitVec.ofNat 32 (x >>> 96)
  match len with
  | 0 => if fmts.contains 0 then some .f64 else none
  | 1 => if fmts.contains 1 then some (.f96i w2) else if fmts.contains 2 then some (.f96x w2) else none
  | 2 => if fmts.contains 3 then some (.f128i (BitVec.ofNat 64 (x >>> 64)))
         else if fmts.contains 4 then some (.f128x w2 w3) else none
  | _ => none

/-- The common fields (Table 2.2) of the number x with bit 0 the first word's bit 0. -/
def fieldsOf (x : Nat) (ext : Ext) : Fields :=
  { last := nbits x 2 2 == 1
    pg := Fin.ofNat 8 (x >>> 14), pn := nbits x 17 17 == 1
    kv := nbits x 23 23 == 1, kw := Fin.ofNat 32 (x >>> 18)
    sub := Fin.ofNat 8 (x >>> 11)
    d := Reg.ofByte (nbits x 31 24), a := Reg.ofByte (nbits x 39 32)
    b := Reg.ofByte (nbits x 47 40), c := Reg.ofByte (nbits x 55 48)
    m := BitVec.ofNat 8 (x >>> 56), ext := ext }

/-- Which check of encOk an encoding fails, named. -/
def rejectOf (k : Kind) (f : Fields) : Reject :=
  let i := k.info
  if !i.subs.contains f.sub.val then .sub
  else if !i.fmts.contains f.ext.fmt then .format
  else if !f.kv && f.kw != 0 then .kwWithoutKv
  else if f.m.toNat &&& (0xFF - i.mBits) != 0 then .modifier
  else if f.x &&& (0xFFFFFFFF - i.xBits) != 0 then .extension
  else if f.ext.x0?.isSome && !i.scopes.contains (f.x % 8) then .scope
  else .classRule

/-- Decode the number of an instruction's bits. -/
def decodeNat (x : Nat) : Decoded :=
  let len := nbits x 1 0
  if len == 3 then .pad
  else
    match Kind.ofOp (nbits x 10 3) (nbits x 13 11) (nbits x 63 56) (if len == 1 then nbits x 71 64 else if len == 2 then nbits x 103 96 else 0) with
    | .error r => .bad r
    | .ok k =>
      match extOf k.info.fmts len x with
      | none => .bad .format
      | some e =>
        let f := fieldsOf x e
        if encOk k f then .ok (Instr.ofKind k f) (lenBytes len) else .bad (rejectOf k f)

/-- Decode the bytes at an instruction's address. Bytes beyond the instruction are ignored. -/
def decode (bs : List Byte) : Decoded :=
  match bs with
  | b :: _ =>
    let n := lenBytes (b.toNat % 4)
    if bs.length < n then .bad .short else decodeNat (leNat (bs.take n))
  | [] => .bad .short

/-- The instruction the decoder reads from bits numbered as spec/opcode_table.json numbers them; bits above
nbits are 0. The words go to the decoder as the hardware stores them, each little-endian, lowest first. -/
def decodeTableWord (nbits w : Nat) : Option Instr :=
  match decode (leBytes 16 (w % 2 ^ nbits)) with
  | .ok i _ => some i
  | _ => none

/-- One bit of a number. -/
def bitOf (b : Bool) : Nat := if b then 1 else 0

/-- The length code and the bits above the first 64 of an extension. -/
def Ext.bits (x : Ext) : Nat × Nat :=
  match x with
  | .f64 => (0, 0)
  | .f96i imm => (1, imm.toNat)
  | .f96x x0 => (1, x0.toNat)
  | .f128i imm => (2, imm.toNat)
  | .f128x km x0 => (2, km.toNat + 2 ^ 32 * x0.toNat)

/-- The bits of an instruction of opcode op (Table 2.2, Table 2.3). -/
def Fields.bits (op : Nat) (f : Fields) : Nat :=
  f.ext.bits.1 + 2 ^ 2 * bitOf f.last + 2 ^ 3 * op + 2 ^ 11 * f.sub.val + 2 ^ 14 * f.pg.val
    + 2 ^ 17 * bitOf f.pn + 2 ^ 18 * f.kw.val + 2 ^ 23 * bitOf f.kv + 2 ^ 24 * f.d.byte
    + 2 ^ 32 * f.a.byte + 2 ^ 40 * f.b.byte + 2 ^ 48 * f.c.byte + 2 ^ 56 * f.m.toNat
    + 2 ^ 64 * f.ext.bits.2

/-- The number of an instruction's bits and its length in bytes; an event has no encoding. -/
def encodeNat (i : Instr) : Option (Nat × Nat) :=
  match i.view with
  | some (k, f) => some (f.bits k.info.op, lenBytes f.ext.bits.1)
  | none => none

/-- The bytes of an instruction as memory holds them, lowest address first. -/
def encode (i : Instr) : Option (List Byte) :=
  (encodeNat i).map fun p => leBytes p.2 p.1

/-- The 32-bit words of an instruction, first word first. -/
def encodeWords (i : Instr) : Option (List W32) :=
  (encodeNat i).map fun p => (List.range (p.2 / 4)).map fun j => BitVec.ofNat 32 (p.1 >>> (32 * j))

end Sys2Proof
end

