-- ==== Sys2Proof/Machine/Flags.lean ====
section
/-! DEFINITION. Conditions and exact integer arithmetic (05_integer_lane.md R80 to R101). The K2 has no flag register:
an instruction's only conditions are the predicates it writes, computed here. Every operation converts its operands
to integers, computes exactly and narrows once. -/

namespace Sys2Proof.Machine

/-- A pattern of N bits read as signed or unsigned (Ext of R82). -/
def extN (n : Nat) (signed : Bool) (x : W64) : Int :=
  let u := x.toNat % 2 ^ n
  if signed && u ≥ 2 ^ (n - 1) then (u : Int) - (2 ^ n : Nat) else u

/-- WrapN: an integer modulo 2^N as a pattern. -/
def wrapN (n : Nat) (i : Int) : W64 := BitVec.ofNat 64 (i % (2 ^ n : Nat)).toNat

/-- The least and the greatest value of a type. -/
def tyMin (n : Nat) (signed : Bool) : Int := if signed then -(2 ^ (n - 1) : Nat) else 0
/-- The greatest value of a type. -/
def tyMax (n : Nat) (signed : Bool) : Int := if signed then (2 ^ (n - 1) : Nat) - 1 else (2 ^ n : Nat) - 1

/-- SatT: clamp to the type's range, as a pattern. -/
def satN (n : Nat) (signed : Bool) (i : Int) : W64 := wrapN n (max (tyMin n signed) (min (tyMax n signed) i))

/-- Element width of TY (Table 5.1). -/
def tyBits (ty : Nat) : Nat := if ty == 2 || ty == 3 then 64 else 32
/-- Signedness of TY (Table 5.1). -/
def tySigned (ty : Nat) : Bool := ty == 1 || ty == 3

/-- R82. -/
def addOp (ty : Nat) (sat sub : Bool) (a b : W64) : W64 :=
  let n := tyBits ty
  let sg := tySigned ty
  let r := if sub then extN n sg a - extN n sg b else extN n sg a + extN n sg b
  if sat then satN n sg r else wrapN n r

/-- R83: SUB 0 .LO, 1 .HI, 2 .WIDE; c is the addend of IMAD, 0 for IMUL. -/
def mulOp (ty sub : Nat) (a b c : W64) : W64 :=
  let n := tyBits ty
  let sg := tySigned ty
  let p := extN n sg a * extN n sg b
  match sub with
  | 0 => wrapN n (p + extN n sg c)
  | 1 => wrapN n ((p / (2 ^ n : Nat)) + extN n sg c)
  | _ => wrapN 64 (p + extN 64 sg c)

/-- R84: the lesser or the greater value. -/
def minOp (ty : Nat) (a b : W64) : W64 :=
  let n := tyBits ty
  wrapN n (min (extN n (tySigned ty) a) (extN n (tySigned ty) b))
/-- R84. -/
def maxOp (ty : Nat) (a b : W64) : W64 :=
  let n := tyBits ty
  wrapN n (max (extN n (tySigned ty) a) (extN n (tySigned ty) b))
/-- R84: |a| or -a. -/
def absOp (ty : Nat) (sat : Bool) (a : W64) : W64 :=
  let n := tyBits ty
  let r := (extN n true a).natAbs
  if sat then satN n true r else wrapN n r
/-- R84. -/
def negOp (ty : Nat) (sat : Bool) (a : W64) : W64 :=
  let n := tyBits ty
  let r := -(extN n true a)
  if sat then satN n true r else wrapN n r

/-- The low N bits of a pattern. -/
def lowN (n : Nat) (x : W64) : W64 := BitVec.ofNat 64 (x.toNat % 2 ^ n)

/-- R85: 0 AND, 1 OR, 2 XOR, 3 ANDN, 4 ORN, 5 XNOR. -/
def logicOp (op ty : Nat) (a b : W64) : W64 :=
  lowN (tyBits ty) (match op with
    | 0 => a &&& b
    | 1 => a ||| b
    | 2 => a ^^^ b
    | 3 => a &&& ~~~b
    | 4 => a ||| ~~~b
    | _ => ~~~(a ^^^ b))

/-- R86: 0 SHL, 1 SHR, 2 SHA, 3 ROL, by k. -/
def shiftOp (op ty k : Nat) (a : W64) : W64 :=
  let n := tyBits ty
  let x := a.toNat % 2 ^ n
  match op with
  | 0 => if k ≥ n then 0 else BitVec.ofNat 64 (x * 2 ^ k % 2 ^ n)
  | 1 => if k ≥ n then 0 else BitVec.ofNat 64 (x / 2 ^ k)
  | 2 => wrapN n (extN n true a / (2 ^ (min k (n - 1)) : Nat))
  | _ =>
    let r := k % n
    BitVec.ofNat 64 ((x * 2 ^ r) % 2 ^ n + x / 2 ^ (n - r))

/-- Number of set bits among the low n. -/
def popCount (n : Nat) (x : Nat) : Nat :=
  match n with
  | 0 => 0
  | k + 1 => x % 2 + popCount k (x / 2)

/-- Zero bits below the lowest set bit, n for zero. -/
def trailing (n : Nat) (x : Nat) : Nat :=
  match n with
  | 0 => 0
  | k + 1 => if x % 2 == 1 then 0 else 1 + trailing k (x / 2)

/-- The low n bits reversed. -/
def revBits (n : Nat) (x : Nat) : Nat :=
  match n with
  | 0 => 0
  | k + 1 => (x % 2) * 2 ^ k + revBits k (x / 2)

/-- R87: 0 POPC, 1 CLZ, 2 CTZ, 3 BREV. -/
def bitOp (op ty : Nat) (a : W64) : W64 :=
  let n := tyBits ty
  let x := a.toNat % 2 ^ n
  BitVec.ofNat 64 (match op with
    | 0 => popCount n x
    | 1 => trailing n (revBits n x)
    | 2 => trailing n x
    | _ => revBits n x)

/-- R88, BFX: the field of a at the control operand's position and length. -/
def bfxOp (ty : Nat) (a : W64) (ctl : W32) : W64 :=
  let n := tyBits ty
  let sg := tySigned ty
  let pos := nbits ctl.toNat 7 0
  let len := min (nbits ctl.toNat 15 8) n
  let f := (extN n sg a / (2 ^ pos : Nat)) % (2 ^ len : Nat)
  if len == 0 then 0
  else wrapN n (if sg && f ≥ (2 ^ (len - 1) : Nat) then f - (2 ^ len : Nat) else f)

/-- R88, BFI: b's low bits inserted into a. -/
def bfiOp (ty : Nat) (a b : W64) (ctl : W32) : W64 :=
  let n := tyBits ty
  let pos := nbits ctl.toNat 7 0
  let len := min (nbits ctl.toNat 15 8) n
  let field := (2 ^ len - 1) * 2 ^ pos % 2 ^ n
  let ins := (b.toNat % 2 ^ len) * 2 ^ pos % 2 ^ n
  lowN n ((a &&& ~~~(BitVec.ofNat 64 field)) ||| BitVec.ofNat 64 ins)

/-- Conditions of ICMP (R89): 0 EQ, 1 NE, 2 LT, 3 LE, 4 GT, 5 GE. -/
def icmp (cc ty : Nat) (a b : W64) : Bool :=
  let x := extN (tyBits ty) (tySigned ty) a
  let y := extN (tyBits ty) (tySigned ty) b
  match cc with
  | 0 => x == y
  | 1 => x != y
  | 2 => x < y
  | 3 => x ≤ y
  | 4 => y < x
  | _ => y ≤ x

/-- True as 1 and false as 0. -/
def boolWord (b : Bool) : W64 := if b then 1 else 0

/-- Reduction operations (R99, R211): 0 ADD, 1 MIN, 2 MAX, 3 AND, 4 OR, 5 XOR, 6 EXCH. -/
def redOp (op ty : Nat) (a b : W64) : W64 :=
  match op with
  | 0 => addOp ty false false a b
  | 1 => minOp ty a b
  | 2 => maxOp ty a b
  | 3 => logicOp 0 ty a b
  | 4 => logicOp 1 ty a b
  | 5 => logicOp 2 ty a b
  | _ => lowN (tyBits ty) b

/-- The identity of a reduction (R99). -/
def redUnit (op ty : Nat) : W64 :=
  let n := tyBits ty
  match op with
  | 1 => wrapN n (tyMax n (tySigned ty))
  | 2 => wrapN n (tyMin n (tySigned ty))
  | 3 => wrapN n (-1)
  | _ => 0

end Sys2Proof.Machine
end

