-- ==== Sys2Proof/Config.lean ====
section
/-! DEFINITION. What an implementation fixes and the manual leaves open, and the free values: opaque constants,
applied to the operands they depend on or to the counter State.freeIdx. Each is named in the assumption log. -/

namespace Sys2Proof.Config

/-- Nanoseconds of device time that pass in a step (log entry 9). -/
opaque stepNs : Nat → Nat
/-- Core cycles of an island that pass in a step (log entry 9). -/
opaque stepCycles : Nat → Nat → Nat
/-- The result a special function offers (opcode, FT, operand bits); taken only within the bound of
06_float.md R125 (log entry 13). -/
opaque special : Nat → Nat → Nat → Nat
/-- The L2 slice 0 to 15 that is home to a line (07_memory.md R425; log entry 14). -/
opaque l2Slice : Nat → Nat
/-- Whether an access misses the L2 (07_memory.md R151; log entry 10). -/
opaque l2Miss : Nat → Bool
/-- The coded bytes of a part of a frame: free counter, part, settings, and the frame's luma, Cb and Cr samples
(16_encoder.md R339, R341; log entry 15). -/
opaque payload : Nat → Nat → List Nat → List (List Nat) → List Byte
/-- The QP that rate control chooses from a session's settings, its buffer's level and the bytes of the frames before
(16_encoder.md R340; log entry 15). -/
opaque frameQp : List Nat → Nat → List Nat → Nat
/-- A choice among n allowed outcomes, by the free counter (log entry 20). -/
opaque choose : Nat → Nat → Nat
/-- The place at which an engine takes the next part of a command among those it has taken: operation, part (log entry 24). -/
opaque order : Nat → Nat → Nat
/-- A free 32-bit value, by the free counter and an index (log entry 20). -/
opaque freeWord : Nat → Nat → W32
/-- What a counter event of timing adds in a step: core, event, free counter (log entry 20). -/
opaque timingCount : Nat → Nat → Nat → Nat
/-- The digests of the stages of the firmware that the device is shipped with (log entry 21). -/
opaque factoryDigests : List (List Byte)
/-- The certificate chain of the package's identity key (log entry 21). -/
opaque certChain : List Byte
/-- The signature of a message with the package's identity key, which is never exported (log entry 21). -/
opaque identitySign : List Byte → List Byte

end Sys2Proof.Config
end

