-- ==== Sys2Proof/Machine/Float.lean ====
section
/-! DEFINITION. Number formats and floating arithmetic (06_float.md R103 to R126): exact values as sign, integer
significand and power of two, one rounding at the end. Bit patterns are natural numbers. -/

namespace Sys2Proof.Machine

/-- A decoded value: (-1)^neg * m * 2^e, an infinity, or a NaN. -/
inductive FVal where
  | nan
  | inf (neg : Bool)
  | fin (neg : Bool) (m : Nat) (e : Int)
deriving DecidableEq, Repr

/-- An IEEE-like format: exponent and fraction widths, bias, pattern of the largest finite value, canonical NaN,
and whether it has infinities (Table 6.1). -/
structure Fmt where
  ebits : Nat
  fbits : Nat
  bias : Nat
  maxFin : Nat
  nan : Nat
  hasInf : Bool
deriving DecidableEq, Repr

/-- The five IEEE-like formats by CT code (Table 6.5): 0 f32, 1 f16, 2 bf16, 3 e4m3, 4 e5m2. -/
def fmtOf (ct : Nat) : Fmt :=
  match ct with
  | 0 => ⟨8, 23, 127, 0x7F7FFFFF, 0x7FC00000, true⟩
  | 1 => ⟨5, 10, 15, 0x7BFF, 0x7E00, true⟩
  | 2 => ⟨8, 7, 127, 0x7F7F, 0x7FC0, true⟩
  | 3 => ⟨4, 3, 7, 0x7E, 0x7F, false⟩
  | _ => ⟨5, 2, 15, 0x7B, 0x7E, true⟩

/-- Width of a format without its sign. -/
def Fmt.mag (f : Fmt) : Nat := f.ebits + f.fbits

/-- Decode a pattern of an IEEE-like format (R103). -/
def Fmt.decode (f : Fmt) (x : Nat) : FVal :=
  let neg := x.testBit f.mag
  let a := x % 2 ^ f.mag
  let e := a >>> f.fbits
  let m := a % 2 ^ f.fbits
  if f.maxFin < a then
    (if f.hasInf && m == 0 then .inf neg else .nan)
  else if e == 0 then .fin neg m (1 - (f.bias : Int) - f.fbits)
  else .fin neg (m + 2 ^ f.fbits) ((e : Int) - f.bias - f.fbits)

/-- m * 2^k for a possibly negative k, rounded toward zero. -/
def shiftBy (m : Nat) (k : Int) : Nat := if 0 ≤ k then m <<< k.toNat else m >>> (-k).toNat

/-- Whether a magnitude n + r/2^s (r below 2^s, sticky for a further part) rounds up (R108):
0 RN, 1 RZ, 2 RU, 3 RD. -/
def roundsUp (rm : Nat) (neg odd : Bool) (r s : Nat) (sticky : Bool) : Bool :=
  let inexact := r != 0 || sticky
  match rm with
  | 0 => decide (2 ^ s < 2 * r) || (2 * r == 2 ^ s && s != 0 && (sticky || odd))
  | 1 => false
  | 2 => inexact && !neg
  | _ => inexact && neg

/-- Round m * 2^e (sticky: plus a nonzero part below the last bit) to an IEEE-like format (R108, R110). -/
def Fmt.round (f : Fmt) (rm : Nat) (neg : Bool) (m : Nat) (e : Int) (sticky : Bool) : Nat :=
  let sg := if neg then 2 ^ f.mag else 0
  if m == 0 && !sticky then sg
  else
    let emin : Int := 1 - (f.bias : Int)
    let top : Int := Nat.log2 m + e
    let qe : Int := max top emin - f.fbits
    let s := (qe - e).toNat
    let n := shiftBy m (e - qe)
    let r := if e < qe then m % 2 ^ s else 0
    let up := roundsUp rm neg (n % 2 == 1) r s sticky
    let bits := n + bif up then 1 else 0
    let pat := bits + (qe + f.fbits + f.bias - 1).toNat * 2 ^ f.fbits
    if pat ≤ f.maxFin then sg + pat
    else if !f.hasInf then sg + f.maxFin
    else if rm == 0 || (rm == 2 && !neg) || (rm == 3 && neg) then sg + (2 ^ f.ebits - 1) * 2 ^ f.fbits
    else sg + f.maxFin

/-- Round a decoded value to an IEEE-like format; an infinity becomes NaN where the format has none (R110). -/
def Fmt.encode (f : Fmt) (rm : Nat) (v : FVal) : Nat :=
  match v with
  | .nan => f.nan
  | .inf neg => if f.hasInf then (if neg then 2 ^ f.mag else 0) + (2 ^ f.ebits - 1) * 2 ^ f.fbits else f.nan
  | .fin neg m e => f.round rm neg m e false

/-- T of Table 6.2. -/
def lgT (i : Nat) : Nat := match i with | 0 => 0x8000 | 1 => 0x9838 | 2 => 0xB505 | _ => 0xD745

/-- L of an LG6 code, -16 to 15. -/
def lgL (x : Nat) : Int := let u := x % 32; if u < 16 then u else (u : Int) - 32

/-- 2^floor(s/4) * T[s mod 4] / 2^15 with a sign (R104, R105). -/
def lgVal (neg : Bool) (s : Int) : FVal := .fin neg (lgT (s % 4).toNat) (s / 4 - 15)

/-- Decode an LG6 code (R104). -/
def lgDecode (x : Nat) : FVal :=
  let neg := x.testBit 5
  if lgL x == -16 then (if neg then .nan else .fin false 0 0) else lgVal neg (lgL x)

/-- The product of two LG6 codes (R105). -/
def lgMul (x y : Nat) : FVal :=
  let a := lgDecode x
  let b := lgDecode y
  if a == .nan || b == .nan then .nan
  else if lgL x == -16 || lgL y == -16 then .fin false 0 0
  else lgVal (x.testBit 5 != y.testBit 5) (lgL x + lgL y)

/-- Magnitude of log L in units of 2^-19; 0 for L = -16. -/
def lgMag (i : Nat) : Nat := if i == 0 then 0 else let l : Int := (i : Int) - 16; lgT (l % 4).toNat <<< (l / 4 + 4).toNat

/-- The number of candidates 1 to n whose magnitude does not exceed m * 2^e (e in units of 2^-19). -/
def lgBelow (m : Nat) (e : Int) (n : Nat) : Nat :=
  match n with
  | 0 => 0
  | k + 1 => if shiftBy (lgMag (k + 1)) (-e) ≤ m && (0 ≤ -e || lgMag (k + 1) ≤ m <<< e.toNat) then k + 1 else lgBelow m e k

/-- Round m * 2^e to LG6 (R110): linear, ties to even L with +0 as L = -16. -/
def lgRound (rm : Nat) (neg : Bool) (m : Nat) (e : Int) : Nat :=
  let u := e + 19
  let i := lgBelow m u 31
  let lo := lgMag i
  let k := (-u).toNat
  let x := m <<< u.toNat
  let lo' := lo <<< k
  let up :=
    if i == 31 || lo' == x then false
    else
      let hi' := lgMag (i + 1) <<< k
      match rm with
      | 0 => decide (lo' + hi' < 2 * x) || (lo' + hi' == 2 * x && i % 2 == 1)
      | 1 => false
      | 2 => !neg
      | _ => neg
  let j := if up then i + 1 else i
  if j == 0 then 0x10 else (if neg then 32 else 0) + (j + 16) % 32

/-- Round to LG6; an infinity and a NaN give NaN. -/
def lgEncode (rm : Nat) (v : FVal) : Nat :=
  match v with
  | .nan | .inf _ => 0x30
  | .fin neg m e => lgRound rm neg m e

/-- Decode a pattern of conversion type ct (R107: bits above the element are ignored). -/
def fdec (ct x : Nat) : FVal :=
  if ct == 5 then lgDecode x else (fmtOf ct).decode (x % 2 ^ ((fmtOf ct).mag + 1))

/-- Round a value to conversion type ct. -/
def fenc (ct rm : Nat) (v : FVal) : Nat := if ct == 5 then lgEncode rm v else (fmtOf ct).encode rm v

/-- Whether a value is a NaN. -/
def FVal.isNan (v : FVal) : Bool := match v with | .nan => true | _ => false

/-- The sign of a value. -/
def FVal.sign (v : FVal) : Bool := match v with | .nan => false | .inf n => n | .fin n _ _ => n

/-- Negate. -/
def FVal.negate (v : FVal) : FVal := match v with | .nan => .nan | .inf n => .inf !n | .fin n m e => .fin (!n) m e

/-- The exact product (R113). -/
def FVal.mul (a b : FVal) : FVal :=
  match a, b with
  | .nan, _ | _, .nan => .nan
  | .inf n, .inf k => .inf (n != k)
  | .inf n, .fin k m _ => if m == 0 then .nan else .inf (n != k)
  | .fin n m _, .inf k => if m == 0 then .nan else .inf (n != k)
  | .fin n m e, .fin k m' e' => .fin (n != k) (m * m') (e + e')

/-- A finite value as an integer multiple of 2^e0, for e0 no greater than its exponent. -/
def FVal.scaled (v : FVal) (e0 : Int) : Int :=
  match v with
  | .fin n m e => let x : Int := (m : Int) * 2 ^ (e - e0).toNat; if n then -x else x
  | _ => 0

/-- The exponent of a finite value. -/
def FVal.exp (v : FVal) : Int := match v with | .fin _ _ e => e | _ => 0

/-- The exact sum of finite values, infinities and NaNs; `zneg` is the sign of an exact zero sum. -/
def fsum (vs : List FVal) (zneg : Bool) : FVal :=
  let infs := vs.filterMap fun v => match v with | .inf n => some n | _ => none
  if vs.any FVal.isNan || (infs.contains true && infs.contains false) then .nan
  else match infs with
    | n :: _ => .inf n
    | [] =>
      let e0 := vs.foldl (fun e v => min e v.exp) 0
      let t := vs.foldl (fun t v => t + v.scaled e0) (0 : Int)
      if t == 0 then .fin zneg 0 0 else .fin (decide (t < 0)) t.natAbs e0

/-- Whether a value is a zero of the given sign. -/
def FVal.isZero (v : FVal) (neg : Bool) : Bool := match v with | .fin n m _ => m == 0 && n == neg | _ => false

/-- The sum of two values with the zero rule of R108. -/
def FVal.add (rm : Nat) (a b : FVal) : FVal :=
  fsum [a, b] (if a.isZero true && b.isZero true then true else if a.isZero false && b.isZero false then false else rm == 3)

/-- The CT of a scalar FT, and of a half of a packed one (Table 6.5). -/
def ftCt (ft : Nat) : Nat := match ft with | 3 => 1 | 4 => 2 | t => t

/-- Whether an FT is packed. -/
def ftPacked (ft : Nat) : Bool := ft == 3 || ft == 4

/-- Apply an element operation to a container, or to both halves of a packed one (R107). -/
def lanewise (ft : Nat) (g : Nat → Nat → Nat → Nat → Nat) (a b c : Nat) : Nat :=
  let ct := ftCt ft
  if ftPacked ft then
    g ct (a % 65536) (b % 65536) (c % 65536)
      + 65536 * g ct (a / 65536 % 65536) (b / 65536 % 65536) (c / 65536 % 65536)
  else g ct a b c

/-- FADD, FSUB, FMUL, FFMA on one element (R113): 0, 1, 2, 3. -/
def farith (op rm ct a b c : Nat) : Nat :=
  let x := fdec ct a
  let y := fdec ct b
  let z := fdec ct c
  fenc ct rm (match op with
    | 0 => x.add rm y
    | 1 => x.add rm y.negate
    | 2 => x.mul y
    | _ => (x.mul y).add rm z)

/-- Order of two non-NaN values, with equality by value (−0 = +0). -/
def FVal.lt (a b : FVal) : Bool :=
  match a, b with
  | .nan, _ | _, .nan => false
  | .inf n, .inf k => n && !k
  | .inf n, _ => n
  | _, .inf k => !k
  | x, y => let e0 := min x.exp y.exp; decide (x.scaled e0 < y.scaled e0)

/-- Equality by value. -/
def FVal.eqv (a b : FVal) : Bool := !a.isNan && !b.isNan && !a.lt b && !b.lt a

/-- FMIN and FMAX on one element (R114): mx for the maximum, nanFlavour for .NAN. -/
def fminmax (mx nanFlavour : Bool) (ct a b : Nat) : Nat :=
  let x := fdec ct a
  let y := fdec ct b
  let w := (fmtOf ct).mag + 1
  let nan := (fmtOf ct).nan
  if x.isNan && y.isNan then nan
  else if x.isNan then (if nanFlavour then nan else b % 2 ^ w)
  else if y.isNan then (if nanFlavour then nan else a % 2 ^ w)
  else
    let less := x.lt y || (x.eqv y && x.sign && !y.sign)
    if less != mx then a % 2 ^ w else b % 2 ^ w

/-- FCMP's conditions (R115) by SUB: 0 EQ, 1 NE, 2 LT, 3 LE, 4 GT, 5 GE, 6 UN, 7 ORD. -/
def fcmp (cc ct a b : Nat) : Bool :=
  let x := fdec ct a
  let y := fdec ct b
  let un := x.isNan || y.isNan
  match cc with
  | 0 => x.eqv y
  | 1 => !x.eqv y
  | 2 => x.lt y
  | 3 => x.lt y || x.eqv y
  | 4 => y.lt x
  | 5 => y.lt x || x.eqv y
  | 6 => un
  | _ => !un

/-- FCLASS (R116). -/
def fclass (ct a : Nat) : Nat :=
  let f := fmtOf ct
  let sub := a % 2 ^ f.mag < 2 ^ f.fbits
  match fdec ct a with
  | .nan => if a.testBit (f.fbits - 1) then 2 ^ 9 else 2 ^ 8
  | .inf n => if n then 1 else 2 ^ 7
  | .fin n m _ =>
    if m == 0 then (if n then 2 ^ 3 else 2 ^ 4)
    else if sub then (if n then 2 ^ 2 else 2 ^ 5)
    else if n then 2 else 2 ^ 6

/-- The magnitude of m * 2^e rounded to an integer under RM. -/
def roundInt (rm : Nat) (neg : Bool) (m : Nat) (e : Int) : Nat :=
  if 0 ≤ e then m <<< e.toNat
  else
    let s := (-e).toNat
    let n := m >>> s
    if roundsUp rm neg (n % 2 == 1) (m % 2 ^ s) s false then n + 1 else n

/-- FRND (R117). -/
def frnd (rm ct a : Nat) : Nat :=
  match fdec ct a with
  | .fin n m e => fenc ct rm (.fin n (roundInt rm n m e) 0)
  | v => fenc ct rm v

/-- FDOT2 (R118): exact sum of two products and an FP32 addend. -/
def fdot2 (rm ct a b c : Nat) : Nat :=
  let p0 := (fdec ct (a % 65536)).mul (fdec ct (b % 65536))
  let p1 := (fdec ct (a / 65536)).mul (fdec ct (b / 65536))
  let z := fdec 0 c
  let ts := [p0, p1, z]
  fenc 0 rm (fsum ts (rm == 3 || ts.all fun t => t.isZero true))

/-- FCVT (R119). -/
def fcvt (rm dt st a : Nat) : Nat := fenc dt rm (fdec st a)

/-- F2I (R120) to integer type it (0 n32, 1 i32, 2 n64, 3 i64), as a 64-bit pattern. -/
def f2i (rm it ct a : Nat) : W64 :=
  let n := if 2 ≤ it then 64 else 32
  let sg := it % 2 == 1
  let hi : Int := if sg then 2 ^ (n - 1) - 1 else 2 ^ n - 1
  let lo : Int := if sg then -2 ^ (n - 1) else 0
  let r : Int := match fdec ct a with
    | .nan => 0
    | .inf neg => if neg then lo else hi
    | .fin neg m e =>
      let x : Int := roundInt rm neg m e
      max lo (min hi (if neg then -x else x))
  BitVec.ofNat 64 (r % 2 ^ n).toNat

/-- I2F (R121) of an exact integer. -/
def i2f (rm ct : Nat) (i : Int) : Nat :=
  fenc ct rm (if i == 0 then .fin false 0 0 else .fin (decide (i < 0)) i.natAbs 0)

/-- FPACK (R122). -/
def fpack (rm ct : Nat) (hi : Bool) (a b c : Nat) : Nat :=
  let x := fcvt rm ct 0 a
  let y := fcvt rm ct 0 b
  if ct ≤ 2 then x + 65536 * y
  else if hi then c % 65536 + 65536 * x + 2 ^ 24 * y
  else x + 256 * y + c / 65536 * 65536

/-- FUNPK (R123). -/
def funpk (ct i a : Nat) : Nat :=
  let w := if ct ≤ 2 then 16 else 8
  fcvt 0 0 ct (a / 2 ^ (w * i) % 2 ^ w)

/-- FSCL (R124): the scale is clamped where every format has long overflowed or underflowed. -/
def fscl (e8 : Bool) (rm ct a : Nat) (b : W32) : Nat :=
  let nan := e8 && b.toNat % 256 == 255
  let n : Int := if e8 then (b.toNat % 256 : Int) - 127 else max (-4096) (min 4096 b.toInt)
  if nan then fenc ct rm .nan
  else fenc ct rm (match fdec ct a with
    | .fin s m e => .fin s m (e + n)
    | v => v)

/-- Integer square root by one bit at a time from bit k down. -/
def isqrt (x r k : Nat) : Nat :=
  match k with
  | 0 => if (r + 1) * (r + 1) ≤ x then r + 1 else r
  | j + 1 => if (r + 2 ^ k) * (r + 2 ^ k) ≤ x then isqrt x (r + 2 ^ k) j else isqrt x r j

/-- FRCP of a nonzero finite value, correctly rounded (R125). -/
def frcpFin (rm ct : Nat) (neg : Bool) (m : Nat) (e : Int) : Nat :=
  (fmtOf ct).round rm neg (2 ^ 80 / m) (-80 - e) (2 ^ 80 % m != 0)

/-- FSQRT of a positive finite value, correctly rounded (R125). -/
def fsqrtFin (rm ct m : Nat) (e : Int) : Nat :=
  let k := if e % 2 == 0 then 80 else 81
  let x := m <<< k
  let r := isqrt x 0 60
  (fmtOf ct).round rm false r ((e - k) / 2) (r * r != x)

/-- FRCP (R125, R126). -/
def frcp (rm ct a : Nat) : Nat :=
  match fdec ct a with
  | .nan => fenc ct rm .nan
  | .inf n => fenc ct rm (.fin n 0 0)
  | .fin n m e => if m == 0 then fenc ct rm (.inf n) else frcpFin rm ct n m e

/-- FSQRT (R125, R126). -/
def fsqrt (rm ct a : Nat) : Nat :=
  match fdec ct a with
  | .nan => fenc ct rm .nan
  | .inf n => if n then fenc ct rm .nan else fenc ct rm (.inf false)
  | .fin n m e => if m == 0 then fenc ct rm (.fin n 0 0) else if n then fenc ct rm .nan else fsqrtFin rm ct m e

/-! Fixed-point values of the transcendental functions, in units of 2^-400, by their series. -/

/-- The unit. -/
def fxOne : Int := 2 ^ 400
/-- ln 2 in units of 2^-400. -/
def fxLn2 : Int := 0xb17217f7d1cf79abc9e3b39803f2f6af40f343267298b62d8a0d175b8baafa2be7b876206debac98559552fb4afa1b10ed2e
/-- 2 pi in units of 2^-600. -/
def fxTwoPi : Int := 0x6487ed5110b4611a62633145c06e0e68948127044533e63a0105df531d89cd9128a5043cc71a026ef7ca8cd9e69d218d98158536f92f8a1ba7f09ab6b6a8e122f242dabb312f3f637a26217

/-- Sum of a power series: `term` is term k, each next term is term * x / (d k); the step adds k by `dk`. -/
def fxSeries (x term : Int) (k dk : Nat) (d : Nat → Int) (fuel : Nat) : Int :=
  match fuel with
  | 0 => 0
  | n + 1 => term + fxSeries x (term * x / fxOne / d k) (k + dk) dk d n

/-- e^t for 0 ≤ t < 1. -/
def fxExp (t : Int) : Int := fxSeries t fxOne 1 1 (fun k => k) 110

/-- 2^a for a fixed-point a: significand in [1, 2) and exponent. -/
def fxExp2 (a : Int) : Int × Int := (fxExp (a % fxOne * fxLn2 / fxOne), a / fxOne)

/-- The odd-power sum z + z^3/3 + z^5/5 + ... -/
def fxAtanh (z z2 : Int) (k fuel : Nat) : Int :=
  match fuel with
  | 0 => 0
  | n + 1 => z / (k : Int) + fxAtanh (z * z2 / fxOne) z2 (k + 2) n

/-- log2 of a significand y in [1, 2). -/
def fxLog2 (y : Int) : Int :=
  let z := (y - fxOne) * fxOne / (y + fxOne)
  2 * fxAtanh z (z * z / fxOne) 1 140 * fxOne / fxLn2

/-- An angle m * 2^e (signed) reduced to [-pi, pi), in units of 2^-400. -/
def fxReduce (m : Int) (e : Int) : Int :=
  let u := e + 600
  let a : Int := if 0 ≤ u then m * 2 ^ u.toNat else m / 2 ^ (-u).toNat
  let r := (a + fxTwoPi / 2) % fxTwoPi - fxTwoPi / 2
  r / 2 ^ 200

/-- sin r: terms r, -r^3/3!, ... -/
def fxSin (r : Int) : Int := fxSeries (-(r * r / fxOne)) r 2 2 (fun k => (k : Int) * (k + 1)) 70
/-- cos r. -/
def fxCos (r : Int) : Int := fxSeries (-(r * r / fxOne)) fxOne 1 2 (fun k => (k : Int) * (k + 1)) 70

/-- A value m * 2^e in units of 2^-400. -/
def fxOf (neg : Bool) (m : Nat) (e : Int) : Int :=
  let x : Int := shiftBy m (e + 400)
  if neg then -x else x

/-- tanh of a fixed-point a. -/
def fxTanh (a : Int) : Int :=
  let t := if a < 0 then -a else a
  let r :=
    if 128 * fxOne < t then fxOne - 1
    else
      let (s, k) := fxExp2 (2 * t * fxOne / fxLn2)
      let x := s * 2 ^ k.toNat
      (x - fxOne) * fxOne / (x + fxOne)
  if a < 0 then -r else r

/-- The true value of a special function on a nonzero finite argument, as an integer times a power of two:
0 FRSQ, 1 FEX2, 2 FLG2, 3 FSIN, 4 FCOS, 5 FTANH. -/
def specialTrue (fn : Nat) (neg : Bool) (m : Nat) (e : Int) : Int × Int :=
  match fn with
  | 0 =>
    let k := if e % 2 == 0 then 400 else 401
    let r := isqrt (m <<< k) 0 230
    ((2 ^ 600 / r : Nat), -600 - (e - k) / 2)
  | 1 =>
    let (s, k) := fxExp2 (fxOf neg m e)
    (s, k - 400)
  | 2 =>
    let t := Nat.log2 m
    (((t : Int) + e) * fxOne + fxLog2 (shiftBy m (400 - (t : Int))), -400)
  | 3 => (fxSin (fxReduce (if neg then -(m : Int) else m) e), -400)
  | 4 => (fxCos (fxReduce (if neg then -(m : Int) else m) e), -400)
  | _ => (fxTanh (fxOf neg m e), -400)

/-- The exponent of one unit in the last place at a value t * 2^e (R125): that of the binade of the true value, and of the subnormals
below the smallest normal (log entry 106). -/
def ulpExp (f : Fmt) (t e : Int) : Int :=
  max (Nat.log2 t.natAbs + e) (1 - (f.bias : Int)) - f.fbits

/-- Whether |x * 2^ex - y * 2^ey| ≤ b * 2^eb. -/
def within (x ex y ey b eb : Int) : Bool :=
  let e0 := min ex (min ey eb)
  let d := x * 2 ^ (ex - e0).toNat - y * 2 ^ (ey - e0).toNat
  decide ((d.natAbs : Int) ≤ b * 2 ^ (eb - e0).toNat)

/-- Whether a finite result c meets the bound of Table 6.8 (FP32) or of 1 ulp (FT 1 and 2) around t * 2^e, for the
argument a. -/
def specialBound (fn ct : Nat) (arg : Nat) (t e : Int) (c : FVal) : Bool :=
  match c with
  | .fin n m ec =>
    let x : Int := if n then -(m : Int) else m
    let u := ulpExp (fmtOf ct) t e
    if ct != 0 then within x ec t e 1 u
    else match fn with
      | 0 => within x ec t e 1 u
      | 1 => within x ec t e 2 u
      | 2 =>
        within x ec t e 2 u || (decide (0x3F000000 ≤ arg) && decide (arg ≤ 0x40000000) && within x ec t e 1 (-22))
      | _ => within x ec t e 1 (-21) && within x ec 0 0 1 0
  | _ => false

/-- Whether the exact result must be given (R125): FEX2 of an integer with 2^a representable, FLG2 of a power of
two, both in FP32, and FLG2 of 1.0 in every type (R126). -/
def specialExact (fn ct : Nat) (neg : Bool) (m : Nat) (e : Int) (exact : FVal) : Bool :=
  match fn with
  | 1 => ct == 0 && (fdec ct (fenc ct 0 exact)).eqv exact && (0 ≤ e || m % 2 ^ (-e).toNat == 0)
  | 2 => m == 2 ^ Nat.log2 m && (ct == 0 || (Nat.log2 m : Int) + e == 0) && !neg
  | _ => false

/-- A special function on a nonzero finite argument (R125): the free value the implementation offers when it
meets the bound, else the true value rounded to nearest; FEX2 of -4096 and below is +0, which meets it too (log entry 13). -/
def specialFin (fn op ct arg : Nat) (neg : Bool) (m : Nat) (e : Int) : Nat :=
  if fn == 1 && !neg && 4096 ≤ shiftBy m e then fenc ct 0 (.inf false)
  else if fn == 1 && neg && 4096 ≤ shiftBy m e then fenc ct 0 (.fin false 1 (-4096))
  else
    let (t, et) := specialTrue fn neg m e
    let exact : FVal := if t == 0 then .fin false 0 0 else .fin (decide (t < 0)) t.natAbs et
    let r := fenc ct 0 exact
    let ovf := match fdec ct r with | .inf _ => true | _ => false
    let cand := Config.special op ct arg % 2 ^ ((fmtOf ct).mag + 1)
    if ovf || specialExact fn ct neg m e exact then r
    else if specialBound fn ct arg t et (fdec ct cand) then cand else r

/-- FRSQ, FEX2, FLG2, FSIN, FCOS, FTANH (R125, R126) by fn 0 to 5. -/
def special (fn op ct a : Nat) : Nat :=
  let one := FVal.fin false 1 0
  let arg := a % 2 ^ ((fmtOf ct).mag + 1)
  match fdec ct arg with
  | .nan => fenc ct 0 .nan
  | .inf n => fenc ct 0 (match fn with
    | 0 => if n then .nan else .fin false 0 0
    | 1 => if n then .fin false 0 0 else .inf false
    | 2 => if n then .nan else .inf false
    | 5 => if n then one.negate else one
    | _ => .nan)
  | .fin n m e =>
    if m == 0 then fenc ct 0 (match fn with
      | 0 => .inf n
      | 1 | 4 => one
      | 2 => .inf true
      | _ => .fin n 0 0)
    else if (fn == 0 || fn == 2) && n then fenc ct 0 .nan
    else specialFin fn op ct arg n m e

end Sys2Proof.Machine
end

