-- ==== Sys2Proof/Machine/State.lean ====
section
/-! DEFINITION. The machine state of the K2: everything INVENTORY.md lists under State, as plain data.
Sparse tables are lists of (key, value) pairs with strictly rising keys and no entry equal to what an
unlisted key reads as (Machine/Sparse.lean); memory is such a table of bytes. -/

namespace Sys2Proof.Machine

/-- A sparse table keyed by natural numbers. -/
abbrev Table (α : Type) := List (Nat × α)

/-- Kinds of context (01_machine.md, Contexts). -/
inductive CtxKind where
  | lane | seq | slot
deriving DecidableEq, Repr

/-- Where a context runs; core 24 names the cluster sequencer (09_tokens_barriers.md R187). -/
structure Loc where
  die : Nat
  cluster : Nat
  core : Nat
deriving DecidableEq, Repr

/-- The waits of Table 2.6 other than PARK, with what Table 17.7 keeps of each. `pc` is the waiting
instruction's address; `deadline` is in ns of device time (in the effect not yet performed, the limit in cycles). -/
inductive Wait where
  | waitk (mask : W32) (dst : Reg) (pc : W64)
  | twaitk (mask : W32) (dst : Fin 8) (deadline : Nat) (pc : W64)
  | bsync (id : Fin 4)
  | monwait (is64 : Bool) (space addr : Nat) (dst : Reg) (exp : W64) (deadline : Nat) (held : Bool) (pc : W64)
deriving DecidableEq, Repr

/-- The four lane states of 04_control.md R55. -/
inductive LaneSt where
  | runnable
  | parked (m : Fin 8)
  | waiting (w : Wait)
  | exited
deriving DecidableEq, Repr

/-- A trap taken at the entry of a lane's next run (17_system.md R426, 09_tokens_barriers.md R189).
`psn` marks a poisoned wait, whose lowest token is `token`. -/
structure Deferred where
  cause : Nat
  detail : Nat
  psn : Bool
  token : Nat
  taddr : W64
  tepc : W64
  tval : W64
  trec : Nat
deriving DecidableEq, Repr

/-- One lane: PC, whether a legal row of pads at it is skipped (it was not reached by a branch, call or return, 02_formats.md
R16), state, debug halt (the state before the halt is kept in `st`), single step, whether it has left that halt, deferred
trap, the poisoned run-entry waits (R189) that the run at an address meets, as (address, token), the fetch that holds it as (address
of its run, page) (R59), and for child warps its generation and join counter (0: none) with its space. -/
structure Lane where
  pc : W64
  fell : Bool
  met : List (W64 × Nat)
  fetchHold : Option (W64 × Nat) := none
  st : LaneSt
  halted : Bool
  stepping : Bool
  left : Bool
  deferred : Option Deferred
  gen : Nat
  jc : Nat
  jcMap : Bool
deriving DecidableEq, Repr

/-- Token states (09_tokens_barriers.md R184). A pending token names its operation. -/
inductive TokSt where
  | free
  | pending (op : Nat)
  | done
  | poisoned (rec : Nat)
deriving DecidableEq, Repr

/-- The system registers of Table 17.2 that are a context's own (CAP0 to CAP7 are the device's, PSCAUSE
to PSLANES the core's, CNTBANK that of the launch's counter bank, DBGST.RIGHT that of the debug grants). -/
structure SysRegs where
  tcause : W64
  tlanes : W64
  tfault : W64
  taddr  : W64
  tepc   : W64
  tval   : W64
  trec   : W64
  prbase : W64
  pmode  : W64
  pstat  : W64
  trctl  : W64
  stctl  : W64
  dbgRev : Bool
  tentry : W64
deriving DecidableEq, Repr

/-- One lane's access: lane, address, and up to two operands. -/
structure Acc where
  lane : Nat
  addr : Nat
  x : W64 × W64
  y : W64
deriving DecidableEq, Repr

/-- Read-modify-write operations (10_atomics.md R211 to R214); `ty` is Table 10.1's TY code. -/
inductive Rmw where
  | int (op ty : Nat)
  | cas (ty : Nat)
  | flt (op ty : Nat)
deriving DecidableEq, Repr

/-- Element accesses of token-producing thread instructions. -/
inductive AccKind where
  | load (signed : Bool)
  | rmw (op : Rmw)
  | xlat
  | srd
deriving DecidableEq, Repr

/-- Matrix commands (11_matrix.md R234) with captured operands; `idle` is one whose guard was false (R19). -/
inductive MCmd where
  | mma (keep dup : Bool) (at' bt steps c y : Nat) (bw sw : W64)
  | aczero (c : Nat)
  | acdrain (add : Bool) (rm ot space c : Nat) (base pitch cstr : W64)
  | acload (it space c : Nat) (base pitch cstr : W64)
  | idle
deriving DecidableEq, Repr

/-- Grammar commands (12_grammar.md R258). -/
inductive GCmd where
  | bind (dglb : Bool) (dsc hdr : W64)
  | mv (add hold dglb : Bool) (bw xsp ysp : Nat) (dsc x y : W64)
  | grvrd (hold : Bool) (space : Nat) (dst first count : W64)
deriving DecidableEq, Repr

/-- Copy-engine commands (14_copy_streams.md R294, R296, R304, R311). -/
inductive CCmd where
  | cpy (ring : Bool) (dsp ssp : Nat) (dst src rowBytes rows planes sp dp sps dps : Nat) (bad : Bool)
  | cpyg (scatter : Bool) (dsp ssp isp : Nat) (dst src list count esz : Nat) (wide bad : Bool)
  | hdec (jloc : Bool) (job : W64) (seg : W64) (lanes : List Nat)
deriving DecidableEq, Repr

/-- Fabric commands (15_fabric.md R323); `s0` and `s1` are the peer pair. `members` is the member list as read at
the start, each with 0 while it can still answer, else the DETAIL with which it failed at its issuer (0x75: its connection died
after the sending); `data` is the descriptor with its peer list as read at the start. Both are empty before. -/
inductive FCmd where
  | rld (ty : Nat) (s0 s1 : W64) (accs : List Acc)
  | rst (ty : Nat) (s0 s1 : W64) (accs : List Acc)
  | ratom (op ty : Nat) (s0 s1 : W64) (accs : List Acc)
  | rcpy (ssp : Nat) (s0 s1 dst src size : W64)
  | rstm (ssp : Nat) (s0 s1 dst src size : W64) (members : List (Nat × Nat))
  | coll (op : Nat) (desc : W64) (data : List Byte)
deriving DecidableEq, Repr

/-- What a token-producing instruction does once its preconditions are met. -/
inductive Cmd where
  | inactive                       -- guard false in every lane that tests it (R19)
  | access (k : AccKind) (space esz : Nat) (accs : List Acc)
  | fencek
  | rfence
  | pbwait (cur : Bool) (phase : W32) (space : Nat) (base : W64)
  | jcwait (space : Nat) (base : W64)
  | launchg (rec q : W64)
  | racq (cons : Bool) (space : Nat) (base : W64)
  | rrel (free last : Bool) (space : Nat) (base slot bytes : W64)
  | matrix (mask : Nat) (seq : Nat) (c : MCmd)
  | grammar (c : GCmd)
  | copy (c : CCmd)
  | fabric (c : FCmd)
  | vcfg (close : Bool) (a : W64)
  | venc (key arr : Bool) (bsp : Nat) (h y buf cap bar : W64)
deriving DecidableEq, Repr

/-- Destination of a token-producing instruction: a v register (group), an s or e register (pair), none. -/
inductive Dst where
  | none
  | v (n : Nat) (words : Nat)
  | s (n : Nat) (words : Nat)
deriving DecidableEq, Repr

/-- A precondition as the dispatch found it (09_tokens_barriers.md R185), with its token number. -/
inductive Pre where
  | met
  | poisoned (rec : Nat)
  | on (op : Nat)
deriving DecidableEq, Repr

/-- How an operation ended: register values (lane, word, value), or failed, or poisoned by a precondition. -/
inductive Result where
  | ok (writes : List (Nat × Nat × W64))
  | fail (cause detail lane : Nat) (addr aux : W64)
  | skipped (rec : Nat)
  | phasePoison (rec : Nat)
deriving DecidableEq, Repr

/-- The operand-collector latch of a core (11_matrix.md R231): A bytes and scale bytes. -/
structure Latch where
  a : List Byte
  scales : List Byte
deriving DecidableEq, Repr

/-- A matrix command's work on a core (11_matrix.md R235, R236, R245): the steps finished; between a step's latch and its update
what the update will write to the accumulator and its shadow; the A that the last step used; what stood there before the first
step (accumulator, shadow, mirrored bit), for a command that fails; the address whose page the work waits for; when the first step
collected its operands (R247). -/
structure MWork where
  core : Nat
  step : Nat
  after : Option (List Nat × List Nat)
  used : Option Latch
  undo : List Nat × List Nat × Bool
  page : Option Nat
  since : Nat
deriving DecidableEq, Repr

/-- Progress of an operation. `waiting`: preconditions pending, or in an engine's queue; `running`: a collective between its
steps; `cores`: a matrix command on the cores where it has not ended, with its lowest failing core; `held` lists the accesses still waiting for pages; `armed` waits at a home
(barrier phase, join counter, ring); `sent` waits for acknowledgements. -/
inductive Stage where
  | waiting
  | running (step : Nat)
  | cores (work : List MWork) (bad : Option (Nat × Nat × Nat × W64))
  | held (todo : List Acc) (got : List (Nat × Nat × W64)) (bad : Option (Nat × Nat × Nat × W64)) (page : Nat) (kind : Nat)
  | armed (pa phase : Nat)
  | sent
  | finished (r : Result)
deriving DecidableEq, Repr

/-- What a load or atomic that later accesses of its context have passed keeps from that moment (log entry 85): the values of the
elements that could be read; the PBWAITs among its preconditions that were armed then and whose phase no .REL arrival has joined
since; whether an edge of the happens-before relation has come to it by a precondition (08_ordering.md R170); and the bytes that
its context has written since: address and length. -/
structure Overtaken where
  got : List (Nat × Nat × W64)
  relaxed : List Nat
  edge : Bool
  wrote : List (Nat × Nat)
deriving DecidableEq, Repr

/-- An outstanding token-producing operation. `stall` is since when something that its context has committed waits behind its
preconditions (cycles plus 1, 0 for nothing), `overtaken` what it keeps since that passed it (log entry 85). -/
structure Op where
  id : Nat
  ctx : Nat
  launch : Nat
  gang : Nat
  block : Nat
  kind : CtxKind
  loc : Loc
  token : Nat
  opc : Nat
  pc : W64
  rel : Bool
  acq : Bool
  scope : Nat
  dst : Dst
  pre : List (Nat × Pre)
  cmd : Cmd
  stage : Stage
  time : Nat
  stall : Nat := 0
  overtaken : Option Overtaken := none
deriving DecidableEq, Repr

/-- One lane of a SPAWN: lane, whether its entry is on chip and that entry's number (on chip or in the spill ring), entry index,
payload, join counter (0: none), generation of the child. -/
structure SpawnReq where
  lane : Nat
  onChip : Bool
  id : Nat
  entry : Nat
  p0 : W32
  p1 : W32
  p2 : W32
  p3 : W32
  jc : Nat
  gen : Nat
deriving DecidableEq, Repr

/-- Effects performed at commit, in program order (02_formats.md R33). -/
inductive Act where
  | store (space esz : Nat) (accs : List Acc)
  | reduce (op : Rmw) (space esz : Nat) (accs : List Acc)
  | jcDec (space : Nat) (accs : List Acc)
  | prefetch (l1 : Bool) (accs : List Acc)
  | tileWrite (y : Nat) (words : List (Nat × W32))
  | scaleWrite (y : Nat) (bytes : List (Nat × Byte))
  | accWrite (c : Nat) (words : List (Nat × W32))
  | resb (unbind : Bool) (off bytes : W64)
  | fence (scope : Nat)
  | tkclr (mask : W32)
  | tkarr (rel : Bool) (k space : Nat) (base bytes : W64)
  | arrive (opc token space : Nat) (base n bytes : W64) (psn : Option Nat)
  | pbinit (scope space : Nat) (base arr bytes : W64)
  | pbarr (rel : Bool) (space : Nat) (base n bytes : W64)
  | tkpsn (k : Nat) (value : W32)
  | mxset (mask : W64)
  | gabort
  | spawn (jmap : Bool) (reqs : List SpawnReq) (failGen failRoom : Nat)
  | rinit (space : Nat) (base off cfg : W64)
  | sbind (entry arg : W64)
  | sctl (sel : Nat) (a : W64)
  | semit (space esz : Nat) (accs : List Acc) (k : Nat)
  | collcfg (share : Nat)
  | mtsr (sr : Nat) (value : W64)
  | tmark (tag : Nat) (value : W64)
  | park (m : Fin 8) (lanes : List Nat)
  | exit (lanes : List Nat)
  | succ (entry : Nat) (arg : W64)
  | wait (w : Wait) (lanes : List Nat)
  | eret
  | haltLanes (lanes : List Nat) (pc next : W64) (detail : Nat)
  | haltTrap (lanes : List Nat) (pc next : W64) (detail : Nat)
  | yieldWarp
  | dispatch (token : Nat) (pres : List Nat) (opc : Nat) (rel acq : Bool) (scope : Nat) (dst : Dst) (cmd : Cmd)
  | taken (targets : List (W64 × W64))
deriving DecidableEq, Repr

/-- An effect with the address of its instruction and its OP and SUB (OP + 256 SUB). -/
structure Eff where
  pc : W64
  code : Nat
  act : Act
deriving DecidableEq, Repr

/-- A register write held until commit (02_formats.md R33). -/
inductive Held where
  | v (n lane : Nat) (x : W32)
  | s (n : Nat) (x : W64)
  | p (n lane : Nat) (x : Bool)
  | m (n : Nat) (x : W64)
deriving DecidableEq, Repr

/-- An open run: its lanes, first PC, the PC of its next instruction, instructions executed, e registers
(key 64 n + lane), held writes and effects in program order, new PCs of lanes that transferred, and the
addresses of its instructions that R30 traps: the first of each pair that writes one register, one of them as a
token-producing instruction. -/
structure Run where
  ctx : Nat
  lanes : List Nat
  first : W64
  pc : W64
  count : Nat
  e : Table W64
  held : List Held
  effs : List Eff
  jumps : List (Nat × W64)
  clash : List W64
deriving DecidableEq, Repr

/-- A context. v is keyed by 64 n + lane, p and m by register number with a lane mask as value. `image` is the
address of its saved image, virtual (true) or physical, and `fileAt` that of the saved part of the sequencer file; `cost` is
what a warp's admission added to its island's energy (18_launch.md R384). `streak` counts the runs it began in its core's
active set while a ready warp was pending (R387), `passed` the runs that others began on its core while it was ready (R389). -/
structure Ctx where
  id : Nat
  kind : CtxKind
  launch : Nat
  gang : Nat
  block : Nat
  warp : Nat
  loc : Loc
  slotNo : Nat
  width : Nat
  vregs : Nat
  lanes : List Lane
  v : Table W32
  s : Table W64
  p : Table W64
  m : Table W64
  tok : Table TokSt
  sr : SysRegs
  last : Option Nat
  commitQ : List Eff
  npay : Nat
  spqLast : Nat
  coreMask : Nat
  seqNo : W32
  behind : Nat
  traceSync : Bool
  traceLost : Nat
  saved : Bool
  image : Option (Bool × Nat)
  waitSince : Nat
  cost : Nat
  fileAt : Nat
  streak : Nat
  passed : Nat
  stopReq : Bool
  ended : Bool
deriving DecidableEq, Repr

/-- What a block's producer slot leaves to be read: status and counters (14_copy_streams.md R306, R307) and the trap
registers PSCAUSE to PSLANES (17_system.md R355). -/
structure SlotStat where
  ended : Bool
  stopped : Bool
  killed : Bool
  dset : Bool
  lenerr : Bool
  dlen : W64
  ylen : W64
  elen : W64
  pscause : W64
  psaddr : W64
  pslanes : W64
deriving DecidableEq, Repr

/-- A block (01_machine.md R6): one core, its warps, its scratchpad region, its successor slot, its producer slot. `saved` is
the physical address of the image of a pre-empted block; `holds` tells that it holds its core's tile files. -/
structure Block where
  id : Nat
  launch : Nat
  gang : Nat
  index : Nat
  loc : Loc
  base : Nat
  size : Nat
  succSlot : Option (Nat × W64)
  child : Bool
  holds : Bool
  gen : Nat
  relaunched : Bool
  killed : Bool
  saved : Option Nat
  cost : Nat
  slotCtx : Option Nat
  stat : SlotStat
deriving DecidableEq, Repr

/-- A gang (01_machine.md R7). `lost` are the cores where a block of it was killed (11_matrix.md R244), `extent` the bytes that it
takes of the save area from `image` on while it is saved (17_system.md R368). -/
structure Gang where
  id : Nat
  launch : Nat
  linear : Nat
  die : Nat
  cluster : Nat
  seqCtx : Option Nat
  order : Nat
  saved : Bool
  image : Nat
  lost : List Nat := []
  extent : Nat := 0
deriving DecidableEq, Repr

/-- The fields of a launch record (Table 18.2). -/
structure Rec where
  tag : W64
  vregs : Nat
  lane : Nat
  trapOff : Nat
  seqOff : Nat
  priority : Nat
  spawn : Nat
  chimney : Nat
  width : Nat
  warps : Nat
  blocks : Nat
  gx : Nat
  gy : Nat
  gz : Nat
  ctxSlots : Nat
  spillN : Nat
  quota : Nat
  idemp : Bool
  energy : Nat
  progress : Nat
  spKib : Nat
  deadline : Nat
  key : Nat
  blockNs : Nat
  regions : List (Nat × Nat)
  reserve : Nat
  poison : Nat
  cs : Bool
  ts : Bool
  stamp : Nat
  result : Nat
  spill : Nat
  context : Nat
  events : List Nat
  args : List W64
deriving DecidableEq, Repr

/-- The first killing fault of a launch (18_launch.md R390). -/
structure KillInfo where
  taddr : W64
  cause : Nat
  lane : Nat
  loc : Loc
  faddr : W64
deriving DecidableEq, Repr

/-- An active launch. `voided` lists the spilled entries, by cluster and number, whose SPAWN was discarded (R157, R274). -/
structure Launch where
  id : Nat
  record : Rec
  queue : Nat
  order : Nat
  started : Bool
  start : Nat
  nextGang : Nat
  relaunchQ : List (Nat × Nat)
  firstKill : Option KillInfo
  kills : Nat
  poisonedEnd : Nat
  preempts : Nat
  pre : Bool
  rev : Bool
  resLost : Bool
  relaunch : Bool
  psn : Bool
  killed : Bool
  status : Nat
  dying : Bool
  held : Bool
  finish : Nat
  share : List Nat
  breaks : List (Nat × W64)
  spillHead : Table Nat
  spillTail : Table Nat
  voided : List (Nat × Nat)
deriving DecidableEq, Repr

/-- One side-log entry (07_memory.md R155), with its instruction's OP and SUB (OP + 256 SUB, 17_system.md R367); `seq` orders
the entries of a warp, which may lie on several cores (13_spawn.md R286, R287). -/
structure LogEntry where
  seq : Nat
  ctx : Nat
  launch : Nat
  block : Nat
  pc : W64
  code : Nat
  act : Act
deriving DecidableEq, Repr

/-- The stamp episode of an accumulator (11_matrix.md R247). -/
structure Episode where
  copyIn : Nat
  opWait : Nat
  cstart : Nat
  cend : Nat
  steps : Nat
deriving DecidableEq, Repr

/-- A counter bank with the launch that holds it (17_system.md R363). -/
structure Bank where
  launch : Option Nat
  counters : List W64
deriving DecidableEq, Repr

/-- A residency region (18_launch.md R385), with the launch that bound it. -/
structure Region where
  launch : Nat
  key : Nat
  off : Nat
  size : Nat
  gang : Nat
  block : Nat
  base : Nat
deriving DecidableEq, Repr

/-- What a core holds besides its windows of the on-chip map. Shadows are keyed by 1024 c + word; `active` is its active set
of warps (18_launch.md R386). -/
structure Core where
  log : List LogEntry
  shadow : Table W32
  mirrored : List Bool
  latch : Option Latch
  holder : Option Nat
  banks : List Bank
  regions : List Region
  episodes : List Episode
  active : List Nat
deriving DecidableEq, Repr

/-- One spawn entry (Table 13.1) with its place of issue; `spill` is its number in the spill ring where it came back from
there. -/
structure Spawned where
  id : Nat
  launch : Nat
  cluster : Nat
  entry : Nat
  p0 : W32
  p1 : W32
  p2 : W32
  p3 : W32
  jc : Nat
  jcMap : Bool
  gen : Nat
  eligible : Option Nat
  added : Bool
  spill : Option Nat
deriving DecidableEq, Repr

/-- A formed warp waiting for a core (13_spawn.md R276). -/
structure Formed where
  launch : Nat
  entry : Nat
  members : List Spawned
deriving DecidableEq, Repr

/-- The grammar hold (12_grammar.md R257); `since` is the cycle in which its command completed into its token, none before. -/
structure GHold where
  ctx : Nat
  nrules : Nat
  bw : Nat
  since : Option Nat
deriving DecidableEq, Repr

/-- What a cluster holds besides its windows of the map. The engines' queues are the operations of State.ops not
yet started, in dispatch order; `claims` lists the ring claims waiting at their homes, in order of arrival;
`broken` lists the contexts whose most recent hold was broken; `evictSince` tells, by launch, since which cycle the
conditions of R285 have held; `gread` holds the words that the executing grammar command has read, latest first, `gkept` those
that one held on a page had read before (12_grammar.md R264). -/
structure Cluster where
  hold : Option GHold
  broken : List Nat
  spawnQ : List Spawned
  formed : List Formed
  claims : List Nat
  seqBanks : List Bank
  evictSince : Table Nat
  gread : List Nat
  gkept : List Nat
deriving DecidableEq, Repr

/-- A reliable connection to a peer (15_fabric.md R320, 19_device.md R403); `since` is when it last made progress, in ns;
`seq` is the sequence number of its next packet. -/
structure Conn where
  dead : Bool
  seq : W32
  retx : Nat
  spilled : Bool
  since : Nat
deriving DecidableEq, Repr

/-- A payload staged by an incoming multicast store until its commit message (15_fabric.md R328), and the port that it came by. -/
structure Staged where
  die : Nat
  port : Nat
  peer : Nat
  dst : Nat
  bytes : List Byte
  flag : Nat
deriving DecidableEq, Repr

/-- A frame that a VENC has encoded and is writing to its buffer (16_encoder.md R346): `sent` bytes are written. -/
structure Coded where
  op : Nat
  stream : List Byte
  sent : Nat
  key : Bool
  qp : Nat
deriving DecidableEq, Repr

/-- An encoder session (16_encoder.md R338 to R346). `sizes` are the bytes of its frames in order, for the rate buffer of R340;
`coded` is the frame being written; a session that is `closed` has freed its slot and units and keeps the commands that stood
behind the CLOSE. -/
structure Session where
  handle : Nat
  key : Nat
  launch : Nat
  codec : Nat
  width : Nat
  height : Nat
  d10 : Bool
  gop : Nat
  qp : Nat
  rc : Nat
  pitch : Nat
  fps : Nat
  target : Nat
  peak : Nat
  vbv : Nat
  units : Nat
  queue : List Nat
  frames : Nat
  bytes : W64
  sinceKey : Nat
  dropped : Bool
  sizes : List Nat
  coded : Option Coded
  closed : Bool
deriving DecidableEq, Repr

/-- A leaf in a TLB (07_memory.md R149): which TLB of the die holds it (`tlbUnits`), the page (of 64 MiB where large), the
address of its entry and the entry. -/
structure TlbLeaf where
  unit : Nat
  page : Nat
  entryAddr : Nat
  entry : W64
  large : Bool
deriving DecidableEq, Repr

/-- What a die holds: the leaves of its TLBs, notices posted and notices that wait for
room, connections by peer, staged payloads. -/
structure Die where
  tlb : List TlbLeaf
  posted : List (Nat × Nat)
  unposted : List (Nat × Nat × W64)
  conns : Table Conn
  staged : List Staged
deriving DecidableEq, Repr

/-- A TKARR arrival waiting for its operation (09_tokens_barriers.md R200). -/
structure Late where
  op : Nat
  outcome : Option (Option Nat)
  ctx : Nat
  launch : Nat
  gang : Nat
  block : Nat
  kind : CtxKind
  loc : Loc
  pc : W64
  rel : Bool
  k : Nat
  space : Nat
  base : W64
  bytes : W64
  holdPage : Option Nat
deriving DecidableEq, Repr

/-- A reduction that met an uncorrectable granule and whose issuing core has not been told (10_atomics.md R218); the place of its
block in the grid, and whether that is a relaunched block or a child warp's. -/
structure RedFail where
  launch : Nat
  loc : Loc
  block : Nat
  gang : Nat
  index : Nat
  relaunched : Bool
  child : Bool
  ctx : Nat
  pc : W64
  addr : W64
  lane : Nat
deriving DecidableEq, Repr

/-- What a chimney remembers for its interrupt (18_launch.md R392): records written since the last one, and when
the oldest of them was written. -/
structure Chimney where
  fresh : Nat
  oldest : Nat
deriving DecidableEq, Repr

/-- One debug breakpoint set, one act of the schedule: run one run of a context, or an event. -/
inductive Turn where
  | run (ctx : Nat)
  | event (i : Instr)
  | evictTlb (die index : Nat)
deriving DecidableEq, Repr

/-- The machine. `regs` holds the management registers that were written, keyed by die * 2^24 + offset;
an unlisted register reads as its reset value (Machine/Mgmt.lean). Cores are keyed by
200 die + 25 cluster + core (core 24 holds the side log of the cluster's sequencer contexts), clusters by 8 die + cluster.
`heldRecs` lists the launches whose completion waits for room in a chimney, in order; `copied` the slots of launch
queues whose records a cancel has copied ahead of HEAD; `lostKeys` the residency keys whose regions were lost and that no
launch has been told; `freeKeys` those written to HKEYFREE while a launch with the key was active. `badGranules` gives the
unit of Table 19.6 whose error a granule of memory holds. Of the root of trust (19_device.md R397): `fusedKey` is the fused
SHAKE256 digest of its key, `version` the fused rollback counter, `installed` the image that boots (none: the firmware the
device is shipped with), `verified` its stages verified at the last boot, `newImage` an update that no reset has taken yet. -/
structure State where
  mem : List Host.Cell
  badGranules : Table Nat
  badWords : Table Bool
  badVregs : List (Nat × Nat × Nat)
  regs : Table W64
  caps : Table Nat
  islCaps : Table Nat
  rise : Nat
  hot : Bool
  halfRate : Bool
  ns : Nat
  cyc : Table Nat
  ctxs : List Ctx
  blocks : List Block
  gangs : List Gang
  launches : List Launch
  cores : Table Core
  clusters : Table Cluster
  dies : Table Die
  ops : List Op
  lates : List Late
  redFails : List RedFail
  sessions : List Session
  heldRecs : List Nat
  chimneys : Table Chimney
  copied : List (Nat × Nat)
  lostKeys : List Nat
  freeKeys : List Nat
  irqs : List (Nat × W64)
  outbox : List (Nat × Nat × Request)
  answers : List W64
  nextId : Nat
  run : Option Run
  agenda : List Turn
  freeIdx : Nat
  recovery : Bool
  tripped : Bool
  version : Nat
  fusedKey : List Byte
  installed : Option Image
  verified : List FwStage
  newImage : Option Image
deriving DecidableEq, Repr

/-- A block that has bound no producer slot. -/
def SlotStat.reset : SlotStat :=
  { ended := false, stopped := false, killed := false, dset := false, lenerr := false
    dlen := 0, ylen := 0, elen := 0, pscause := 0, psaddr := 0, pslanes := 0 }

/-- An empty counter bank. -/
def Bank.reset : Bank := { launch := none, counters := List.replicate 8 0 }

/-- An episode that has no step: a drain of one writes 0 in its four times (log entry 100). -/
def Episode.reset : Episode := { copyIn := 0, opWait := 0, cstart := 0, cend := 0, steps := 0 }

/-- A core as reset leaves it. -/
def Core.reset : Core :=
  { log := [], shadow := [], mirrored := List.replicate 8 true, latch := none, holder := none
    banks := List.replicate 16 Bank.reset, regions := []
    episodes := List.replicate 8 Episode.reset, active := [] }

/-- A cluster as reset leaves it. -/
def Cluster.reset : Cluster :=
  { hold := none, broken := [], spawnQ := [], formed := []
    claims := [], seqBanks := List.replicate 16 Bank.reset, evictSince := [], gread := [], gkept := [] }

/-- A die as reset leaves it: empty TLBs, no connection. -/
def Die.reset : Die :=
  { tlb := [], posted := [], unposted := [], conns := [], staged := [] }

/-- The machine right after reset: registers at their reset values, memory with nothing listed, no launch. -/
def State.reset : State :=
  { mem := [], badGranules := [], badWords := [], badVregs := [], regs := [], caps := [], islCaps := [], rise := 0, hot := false, halfRate := false
    ns := 0, cyc := [], ctxs := [], blocks := [], gangs := [], launches := [], cores := [], clusters := []
    dies := [], ops := [], lates := [], redFails := [], sessions := [], heldRecs := [], chimneys := [], copied := [], lostKeys := [], freeKeys := [], irqs := []
    outbox := [], answers := [], nextId := 0, run := none, agenda := [], freeIdx := 0
    recovery := false, tripped := false, version := 0, fusedKey := List.replicate 64 0, installed := none, verified := [], newImage := none }

/-- Why the model stops with a fault. Each is safe: the hardware takes no such step. -/
inductive Fault where
  /-- An instruction was executed with no run open for it. Raised by the meanings of the instruction map;
  the step function never does this. Safe. -/
  | noRun
  /-- The open run names a context that does not exist; unreachable from reset. Safe. -/
  | noContext
  /-- An event was taken in a state in which it cannot happen (its operation, context or unit is not in
  the state the event needs). Raised by the meanings of events. Safe. -/
  | notEnabled
deriving DecidableEq, Repr

/-- Why the model has no meaning for a step. -/
inductive Refusal where
  /-- The instruction has no meaning in the model yet. Safe. -/
  | notModelled (mnemonic : String)
deriving DecidableEq, Repr

end Sys2Proof.Machine
end

