-- ==== Sys2Proof/Machine/Sparse.lean ====
section
/-! DEFINITION. Sparse tables: reading, writing, and the canonical form that memory and every table of the state
keeps (keys strictly rising, no entry equal to the default). -/

namespace Sys2Proof.Machine

/-- The value at a key; d where the key is not listed. -/
def Table.get (t : List (Nat × α)) (k : Nat) (d : α) : α :=
  match t with
  | [] => d
  | (j, x) :: r => if j = k then x else Table.get r k d

/-- Write a key, keeping the canonical form for default d. -/
def Table.set [DecidableEq α] (t : List (Nat × α)) (k : Nat) (x d : α) : List (Nat × α) :=
  match t with
  | [] => if x = d then [] else [(k, x)]
  | (j, y) :: r =>
    if j < k then (j, y) :: Table.set r k x d
    else if j = k then (if x = d then r else (k, x) :: r)
    else (if x = d then (j, y) :: r else (k, x) :: (j, y) :: r)

/-- Every key of the list is above k. -/
def Table.above (k : Nat) (t : List (Nat × α)) : Bool := t.all fun p => decide (k < p.1)

/-- The canonical form of a table with default d. -/
def Table.wf [DecidableEq α] (d : α) (t : List (Nat × α)) : Bool :=
  match t with
  | [] => true
  | (k, x) :: r => Table.above k r && decide (x ≠ d) && Table.wf d r

/-- What a byte of memory that is not listed reads as (log entry 4). -/
def unlistedByte : Byte := 0

/-- The canonical form of memory. -/
def Memory.wf (m : List Host.Cell) : Bool := Table.wf unlistedByte m

/-- The element of a list at a position, or the default. -/
def nth (l : List α) (i : Nat) (d : α) : α :=
  match l, i with
  | [], _ => d
  | x :: _, 0 => x
  | _ :: r, k + 1 => nth r k d

/-- The list with position i replaced. -/
def setNth (l : List α) (i : Nat) (x : α) : List α :=
  match l, i with
  | [], _ => []
  | _ :: r, 0 => x :: r
  | y :: r, k + 1 => y :: setNth r k x

/-- Put an element at a position of a list. -/
def putAt (l : List α) (i : Nat) (x : α) : List α :=
  match l, i with
  | [], _ => [x]
  | l, 0 => x :: l
  | y :: r, k + 1 => y :: putAt r k x

/-- The parts of an operation in some order, where no rule says which: a free one, the same whenever it is asked for (log entry
24). -/
def freeOrder (op : Nat) (l : List α) : List α :=
  ((List.range l.length).zip l).foldl (fun r p => putAt r (Config.order op p.1 % (p.1 + 1)) p.2) []

/-- Change the elements of a list that satisfy p. -/
def updWhere (l : List α) (p : α → Bool) (g : α → α) : List α := l.map fun x => if p x then g x else x

end Sys2Proof.Machine
end

