-- ==== Sys2Proof/Machine/Mem.lean ====
section
/-! DEFINITION. Memory and addresses: bytes and elements of the 52-bit physical space, uncorrectable errors
(07_memory.md R158 to R160), the on-chip map and its rights (R129, R130), physical ranges (R425), access
tables (19_device.md R400), translation with heat (R147 to R150), notices (R152), the four address spaces (R131). -/

namespace Sys2Proof.Machine

/-- Bits hi..lo of a 64-bit word. -/
def bits (x : W64) (hi lo : Nat) : Nat := nbits x.toNat hi lo

/-- The byte at a physical address. -/
def State.readByte (s : State) (pa : Nat) : Byte := Table.get s.mem pa unlistedByte

/-- Store one byte. -/
def State.writeByte (s : State) (pa : Nat) (b : Byte) : State :=
  { s with mem := Table.set s.mem pa b unlistedByte }

/-- n bytes from a physical address as a little-endian number (00_scope.md R2). -/
def State.readN (s : State) (pa n : Nat) : Nat :=
  match n with
  | 0 => 0
  | k + 1 => (s.readByte pa).toNat + 256 * s.readN (pa + 1) k

/-- The n bytes from a physical address. -/
def State.readBytes (s : State) (pa n : Nat) : List Byte :=
  match n with
  | 0 => []
  | k + 1 => s.readByte pa :: s.readBytes (pa + 1) k

/-- Store bytes from a physical address on, without touching error marks. -/
def State.putBytes (s : State) (pa : Nat) (bs : List Byte) : State :=
  match bs with
  | [] => s
  | b :: r => (s.writeByte pa b).putBytes (pa + 1) r

/-- Clear marks k, k+1, ... of a table. -/
def clearMarks {α : Type} [DecidableEq α] (d : α) (t : Table α) (k n : Nat) : Table α :=
  match n with
  | 0 => t
  | j + 1 => clearMarks d (Table.set t k d d) (k + 1) j

/-- A write clears the error of each granule and each word it covers whole (07_memory.md R159, R160). -/
def State.heal (s : State) (pa n : Nat) : State :=
  let g := (pa + 31) / 32
  let w := (pa + 3) / 4
  { s with
    badGranules := if s.badGranules.isEmpty then [] else clearMarks 0 s.badGranules g ((pa + n) / 32 - g)
    badWords := if s.badWords.isEmpty then [] else clearMarks false s.badWords w ((pa + n) / 4 - w) }

/-- Whether a read of n bytes at pa meets an uncorrectable error. -/
def State.badRead (s : State) (pa n : Nat) : Bool :=
  s.badGranules.any (fun g => g.2 != 0 && decide (g.1 * 32 < pa + n) && decide (pa < g.1 * 32 + 32))
    || s.badWords.any (fun w => w.2 && decide (w.1 * 4 < pa + n) && decide (pa < w.1 * 4 + 4))

/-- Replace an element of a list of records by its id. -/
def State.ctx? (s : State) (id : Nat) : Option Ctx := s.ctxs.find? fun c => c.id == id
/-- A block by its id. -/
def State.block? (s : State) (id : Nat) : Option Block := s.blocks.find? fun b => b.id == id
/-- A gang by its id. -/
def State.gang? (s : State) (id : Nat) : Option Gang := s.gangs.find? fun g => g.id == id
/-- A launch by its id. -/
def State.launch? (s : State) (id : Nat) : Option Launch := s.launches.find? fun l => l.id == id
/-- An operation by its id. -/
def State.op? (s : State) (id : Nat) : Option Op := s.ops.find? fun o => o.id == id
/-- Change one context. -/
def State.updCtx (s : State) (id : Nat) (g : Ctx → Ctx) : State :=
  { s with ctxs := updWhere s.ctxs (fun c => c.id == id) g }
/-- Change one block. -/
def State.updBlock (s : State) (id : Nat) (g : Block → Block) : State :=
  { s with blocks := updWhere s.blocks (fun b => b.id == id) g }
/-- Change one gang. -/
def State.updGang (s : State) (id : Nat) (g : Gang → Gang) : State :=
  { s with gangs := updWhere s.gangs (fun b => b.id == id) g }
/-- Change one launch. -/
def State.updLaunch (s : State) (id : Nat) (g : Launch → Launch) : State :=
  { s with launches := updWhere s.launches (fun l => l.id == id) g }
/-- Change one operation. -/
def State.updOp (s : State) (id : Nat) (g : Op → Op) : State :=
  { s with ops := updWhere s.ops (fun o => o.id == id) g }

/-- The key of a core in State.cores. -/
def coreKey (l : Loc) : Nat := 200 * l.die + 25 * l.cluster + l.core
/-- The key of a cluster in State.clusters. -/
def clusterKey (l : Loc) : Nat := 8 * l.die + l.cluster
/-- The core at a place. -/
def State.core (s : State) (l : Loc) : Core := Table.get s.cores (coreKey l) Core.reset
/-- Replace a core. -/
def State.setCore (s : State) (l : Loc) (c : Core) : State :=
  { s with cores := Table.set s.cores (coreKey l) c Core.reset }
/-- A cluster by key. -/
def State.cluster (s : State) (k : Nat) : Cluster := Table.get s.clusters k Cluster.reset
/-- Replace a cluster. -/
def State.setCluster (s : State) (k : Nat) (c : Cluster) : State :=
  { s with clusters := Table.set s.clusters k c Cluster.reset }
/-- A die. -/
def State.die (s : State) (d : Nat) : Die := Table.get s.dies d Die.reset
/-- Replace a die. -/
def State.setDie (s : State) (d : Nat) (x : Die) : State :=
  { s with dies := Table.set s.dies d x Die.reset }

/-- Capability values of the full part (19_device.md R402; log entry 1): NCLU0, NCLU1, HBM, UAL, POD, PODSIZE. -/
def capReset (i : Nat) : Nat :=
  match i with
  | 0 => 8
  | 1 => 8
  | 2 => 0xFF
  | 3 => 0xFFFF
  | 5 => 1
  | _ => 0

/-- A capability value: 0 NCLU0, 1 NCLU1, 2 HBM, 3 UAL, 4 POD, 5 PODSIZE. -/
def State.cap (s : State) (i : Nat) : Nat := Table.get s.caps i (capReset i)

/-- Reset values of the management registers by offset; 0 where not listed (Tables 7.7, 17.9, 18.1, 18.4, 19.2,
19.3, 19.5, 19.6, 19.7). -/
def regReset (off : Nat) : W64 :=
  if 0x140800 ≤ off && off < 0x140C00 && (off - 0x140800) % 0x40 == 0x20 then 1
  else if off == 0x140C00 || off == 0x140C08 then 0x0010001000100010
  else if 0x140D00 ≤ off && off < 0x140D80 then 0xFFFFFFFF
  else if 0x160000 ≤ off && off < 0x160080 then 1200 + 1200 * 2 ^ 16
  else if off == 0x160100 then 4000
  else 0

/-- A management register. -/
def State.reg (s : State) (die off : Nat) : W64 := Table.get s.regs (die * 2 ^ 24 + off) (regReset off)
/-- Set a management register. -/
def State.setReg (s : State) (die off : Nat) (v : W64) : State :=
  { s with regs := Table.set s.regs (die * 2 ^ 24 + off) v (regReset off) }

/-- Windows of the on-chip map (Table 7.1). -/
inductive Win where
  | scratch | tile | scale | acc | seqFile | rules
deriving DecidableEq, Repr

/-- What a physical address names (Table 7.10). -/
inductive Place where
  | hbm (stack : Nat)
  | cxl (die : Nat)
  | mgmt (die : Nat)
  | map (die cluster unit off : Nat) (w : Win)
  | nothing
deriving DecidableEq, Repr

/-- The first address of a unit's windows (07_memory.md R129). -/
def mapBase (die cluster unit : Nat) : Nat := 0xFFF * 2 ^ 40 + die * 2 ^ 32 + cluster * 2 ^ 28 + unit * 2 ^ 23

/-- The window an offset of a unit lies in (Table 7.1). -/
def winOf (unit off : Nat) : Option Win :=
  if unit < 24 then
    if off < 0x80000 then some .scratch
    else if 0x400000 ≤ off && off < 0x408000 then some .tile
    else if 0x408000 ≤ off && off < 0x408400 then some .scale
    else if 0x480000 ≤ off && off < 0x488000 then some .acc
    else none
  else if unit == 24 then (if off < 0x10000 then some .seqFile else none)
  else if unit == 25 then (if off < 0x80000 then some .rules else none)
  else none

/-- Classify a physical address (R129, R425), by the units the capability registers report. -/
def State.place (s : State) (pa : Nat) : Place :=
  if pa < 2 ^ 39 then
    let st := pa / 2 ^ 36
    if (s.cap 2).testBit st && pa % 2 ^ 36 < 64 * 2 ^ 30 then .hbm st else .nothing
  else if pa / 2 ^ 48 == 0xC then .cxl 0
  else if pa / 2 ^ 48 == 0xD then .cxl 1
  else if 0xFFE000000000 ≤ pa && pa < 0xFFE001000000 then .mgmt 0
  else if 0xFFE100000000 ≤ pa && pa < 0xFFE101000000 then .mgmt 1
  else if pa / 2 ^ 40 == 0xFFF && nbits pa 39 33 == 0 then
    let die := nbits pa 32 32
    let cl := nbits pa 31 28
    if cl < s.cap die then
      match winOf (nbits pa 27 23) (nbits pa 22 0) with
      | some w => .map die cl (nbits pa 27 23) (nbits pa 22 0) w
      | none => .nothing
    else .nothing
  else .nothing

/-- In whose name an access is made: its context's launch, gang and block, the kind of context, where it runs,
the die that translates, the access-table master (19_device.md R400), the notice SOURCE (R152), and the
issuing device of a remote access. -/
structure Who where
  launch : Nat
  gang : Nat
  block : Nat
  ctx : Nat
  kind : CtxKind
  loc : Loc
  die : Nat
  master : Nat
  source : Nat
  peer : Nat
deriving DecidableEq, Repr

/-- The issuer of a context's own accesses. -/
def whoOf (c : Ctx) : Who :=
  { launch := c.launch, gang := c.gang, block := c.block, ctx := c.id, kind := c.kind, loc := c.loc
    die := c.loc.die, master := 8 * c.loc.die + c.loc.cluster
    source := if c.kind == .seq then 1 else 0, peer := 0 }

/-- Where a block's scratchpad region lies: on its core, or in the image of a pre-empted block (17_system.md R368). -/
def Block.start (b : Block) : Nat :=
  match b.saved with
  | some a => a + 4096
  | none => mapBase b.loc.die b.loc.cluster b.loc.core + b.base

/-- Where a sequencer context's part of the sequencer file lies; that of a pre-empted one stands after its image
(log entry 30). -/
def Ctx.filePa (c : Ctx) : Nat :=
  match c.saved, c.image with
  | true, some (false, _) => c.fileAt
  | _, _ => mapBase c.loc.die c.loc.cluster 24 + 16384 * c.slotNo

/-- Where a block's scratchpad region lies on its core. -/
def Block.home (b : Block) : Nat := mapBase b.loc.die b.loc.cluster b.loc.core + b.base
/-- Where a sequencer context's part of the sequencer file lies on its cluster. -/
def Ctx.homeFile (c : Ctx) : Nat := mapBase c.loc.die c.loc.cluster 24 + 16384 * c.slotNo

/-- Round up to a multiple of 4,096. -/
def pageUp (n : Nat) : Nat := (n + 4095) / 4096 * 4096

/-- The naturally aligned 32-byte parts of n bytes from an address: address and length. -/
def parts32 (a n fuel : Nat) : List (Nat × Nat) :=
  match fuel with
  | 0 => []
  | k + 1 =>
    if n == 0 then []
    else
      let l := min n (32 - a % 32)
      (a, l) :: parts32 (a + l) (n - l) k

/-- Where storage of a pre-empted gang lies in its image (R246, 17_system.md R368; log entry 30), for an access made in the gang's
name: what its commands and arrivals still do reaches it there (09_tokens_barriers.md R200, R204). -/
def State.imageOf (s : State) (w : Who) (die cl unit off : Nat) (wn : Win) : Option Nat :=
  if !s.gangs.any fun g => g.id == w.gang && g.saved then none
  else
    let mine := fun (b : Block) => b.gang == w.gang && !b.child && !b.killed && b.loc == (⟨die, cl, unit⟩ : Loc)
    let files := fun (o : Nat) => (s.blocks.find? fun b => mine b && b.holds).bind fun b => b.saved.map fun a => a + 4096 + pageUp b.size + o
    match wn with
    | .scratch => (s.blocks.find? fun b => mine b && b.saved.isSome && decide (b.base ≤ off) && decide (off < b.base + b.size)).map
        fun b => b.start + (off - b.base)
    | .seqFile => (s.ctxs.find? fun c => c.kind == .seq && c.gang == w.gang && c.saved && c.loc.die == die && c.loc.cluster == cl
        && c.slotNo == off / 16384).map fun c => c.filePa + off % 16384
    | .tile => files (off - 0x400000)
    | .scale => files (0x8000 + (off - 0x408000))
    | .acc => files (0x9000 + (off - 0x480000))
    | .rules => none

/-- Where an access to a place of the on-chip map is performed. -/
def State.performedAt (s : State) (w : Who) (pa : Nat) : Nat :=
  match s.place pa with
  | .map d c u o wn => (s.imageOf w d c u o wn).getD pa
  | _ => pa

/-- The block at a core whose region holds an offset and that belongs to a launch. -/
def State.regionOf (s : State) (launch : Nat) (l : Loc) (off : Nat) : Option Block :=
  s.blocks.find? fun b => b.launch == launch && b.loc == l && !b.killed && b.saved.isNone && decide (b.base ≤ off) && decide (off < b.base + b.size)

/-- The hold of a cluster's rule-value file, while it lasts: it is broken 65,536 cycles after its command completed (12_grammar.md
R257). -/
def State.liveHold (s : State) (k : Nat) : Option GHold :=
  (s.cluster k).hold.filter fun h => h.since.all fun t => decide (Table.get s.cyc k 0 < t + 65536)

/-- R130: whether an access of a launch may reach a place of the on-chip map. -/
def State.mapRight (s : State) (launch : Nat) (die cl unit off size : Nat) (w : Win) (write : Bool) : Bool :=
  let l : Loc := ⟨die, cl, unit⟩
  match w with
  | .scratch =>
    match s.regionOf launch l off with
    | some b => off + size ≤ b.base + b.size
    | none => false
  | .tile | .scale | .acc =>
    match (s.core l).holder with
    | some b => (s.blocks.any fun x => x.id == b && x.launch == launch)
    | none => false
  | .seqFile =>
    s.ctxs.any fun c => c.kind == .seq && c.launch == launch && c.loc.die == die && c.loc.cluster == cl
      && !c.saved && c.slotNo == off / 16384
  | .rules =>
    !write && (s.ops.any (fun o => o.launch == launch && o.loc.die == die && o.loc.cluster == cl
        && (match o.cmd, o.stage with | .grammar _, .running _ | .grammar _, .held _ _ _ _ _ => true | _, _ => false))
      || (s.liveHold (8 * die + cl)).any fun h => s.ctxs.any fun c => c.id == h.ctx && c.launch == launch)

/-- Whether an issuer may reach a place of the on-chip map (R130), on chip or in its own gang's image. -/
def State.mayReach (s : State) (w : Who) (die cl unit off size : Nat) (wn : Win) (write : Bool) : Bool :=
  s.mapRight w.launch die cl unit off size wn write
    || match s.imageOf w die cl unit off wn, s.imageOf w die cl unit (off + size - 1) wn with
      | some a, some b => b + 1 == a + size
      | _, _ => false

/-- One entry of an access table permits an access (19_device.md R400). -/
def State.entryPermits (s : State) (die target e : Nat) (w : Who) (pa size : Nat) (rd wr : Bool) : Bool :=
  let o := 0x180000 + 0x800 * target + 32 * e
  let x0 := s.reg die o
  let x1 := s.reg die (o + 8)
  let x2 := s.reg die (o + 16)
  let x3 := s.reg die (o + 24)
  x0.getLsbD 0 && decide (bits x0 51 12 ≤ pa / 4096) && decide ((pa + size - 1) / 4096 ≤ bits x1 51 12)
    && x2.getLsbD w.master && (!rd || x1.getLsbD 0) && (!wr || x1.getLsbD 1)
    && (w.master != 20 || x3.getLsbD 10 || bits x3 9 0 == w.peer)

/-- The access table of a target permits an access, or checking is off on the die. -/
def State.tablePermits (s : State) (die target : Nat) (w : Who) (pa size : Nat) (rd wr : Bool) : Bool :=
  !(s.reg die 0x19FFF8).getLsbD 0
    || (List.range 64).any fun e => s.entryPermits die target e w pa size rd wr

/-- Every access table on the way to a place permits an access (R400; log entry 14 for the L2 slice). -/
def State.tablesPermit (s : State) (w : Who) (pa size : Nat) (rd wr : Bool) : Bool :=
  match s.place pa with
  | .hbm st =>
    let d := st / 4
    ((List.range ((pa % 128 + size + 127) / 128)).all fun i => s.tablePermits d (4 + Config.l2Slice (pa / 128 + i) % 16) w pa size rd wr)
      && s.tablePermits d (st % 4) w pa size rd wr
  | .cxl d => s.tablePermits d 36 w pa size rd wr
  | .map d cl _ _ _ => s.tablePermits d (20 + cl) w pa size rd wr
  | .mgmt d => s.tablePermits d 37 w pa size rd wr
  | .nothing => false

/-- Kinds of access for translation, notices and heat. -/
inductive AccessType where
  | read | write | rmw | fetch | prefetch | probe
deriving DecidableEq, Repr

/-- Whether an access needs R. -/
def AccessType.reads (t : AccessType) : Bool := t == .read || t == .rmw || t == .prefetch
/-- Whether an access needs W. -/
def AccessType.writes (t : AccessType) : Bool := t == .write || t == .rmw
/-- Whether an access is a read for the access tables, as a fetch is (R400). -/
def AccessType.fetches (t : AccessType) : Bool := t.reads || t == .fetch
/-- The KIND of a not-present notice (R152). -/
def AccessType.notice (t : AccessType) : Nat :=
  match t with
  | .write | .rmw => 2
  | .fetch => 3
  | _ => 1

/-- A page-table walk's outcome; `bad` is an entry that R148 makes a violation, with a malformed large leaf itself. -/
inductive Walk where
  | leaf (entryAddr : Nat) (entry : W64) (large : Bool)
  | absent
  | bad (large : Option W64)
  | error (pa : Nat)
deriving DecidableEq, Repr

/-- The walk from a level (4 levels, R147, R148); `lv` levels remain. A table's bytes are read wherever its address points, in a
stack that CAP2.HBM does not report too (log entry 74). -/
def State.walkFrom (s : State) (table va lv : Nat) : Walk :=
  match lv with
  | 0 => .bad none
  | k + 1 =>
    let ea := table + 8 * nbits va (25 + 10 * k) (16 + 10 * k)
    if s.badRead ea 8 then .error ea
    else
      let e : W64 := BitVec.ofNat 64 (s.readN ea 8)
      if !e.getLsbD 0 then .absent
      else if e.getLsbD 1 then
        if k == 0 then .leaf ea e false
        else if k == 1 then (if bits e 25 16 == 0 then .leaf ea e true else .bad (some e))
        else .bad none
      else if k == 0 then .bad none
      else s.walkFrom (bits e 51 13 * 8192) va k

/-- The walk of a virtual address on a die through its PTROOT. -/
def State.walk (s : State) (die va : Nat) : Walk :=
  let r := s.reg die 0x100000
  s.walkFrom (bits r 51 13 * 8192) va 4

/-- The TLBs of its die that an access looks up (R149): a core's own and its cluster's, the cluster's alone for a sequencer
context and a cluster's engine, and for an engine of the die one of its own. -/
def tlbUnits (l : Loc) (source : Nat) : List Nat :=
  if 5 ≤ source then [200 + source]
  else if source == 0 && l.core != 24 then [25 * l.cluster + l.core, 25 * l.cluster + 24]
  else [25 * l.cluster + 24]

/-- The TLBs an issuer's accesses look up. -/
def Who.units (w : Who) : List Nat := tlbUnits w.loc w.source

/-- Whether a leaf maps an address. -/
def TlbLeaf.maps (t : TlbLeaf) (va : Nat) : Bool := t.page == (if t.large then va / 2 ^ 26 else va / 2 ^ 16)

/-- A cached leaf that maps an address in the TLBs looked up, in their order (R149). -/
def State.tlbHit (s : State) (die : Nat) (units : List Nat) (va : Nat) : Option Walk :=
  units.findSome? fun u => ((s.die die).tlb.find? fun t => t.unit == u && t.maps va).map fun t => .leaf t.entryAddr t.entry t.large

/-- How many leaves a TLB holds (R149): 512 in a core's, 8,192 in a cluster's and, by the model's choice, in one of a die's engine
(log entry 10). -/
def tlbSize (unit : Nat) : Nat := if unit < 200 && unit % 25 != 24 then 512 else 8192

/-- The leaves of a die's TLBs with one more in a TLB, newest first; a full TLB loses its oldest (log entry 10). -/
def tlbAdd (leaves : List TlbLeaf) (t : TlbLeaf) : List TlbLeaf :=
  let mine := leaves.filter fun x => x.unit == t.unit
  t :: (if mine.length < tlbSize t.unit then leaves else leaves.filter fun x => some x != mine.getLast?)

/-- Add a leaf that a walk found to the TLBs looked up. -/
def State.tlbFill (s : State) (die : Nat) (units : List Nat) (va ea : Nat) (e : W64) (large : Bool) : State :=
  let d := s.die die
  let vpn := if large then va / 2 ^ 26 else va / 2 ^ 16
  s.setDie die { d with
    tlb := units.foldl (fun ts u => tlbAdd ts { unit := u, page := vpn, entryAddr := ea, entry := e, large := large }) d.tlb }

/-- The physical address a leaf gives. -/
def leafPa (e : W64) (large : Bool) (va : Nat) : Nat :=
  if large then bits e 51 26 * 2 ^ 26 + va % 2 ^ 26 else bits e 51 16 * 2 ^ 16 + va % 2 ^ 16

/-- A leaf's R, W and X permit an access (R148). -/
def leafPermits (e : W64) (t : AccessType) : Bool :=
  (!t.reads || e.getLsbD 2) && (!t.writes || e.getLsbD 3) && (t != .fetch || e.getLsbD 4)

/-- Raise a leaf's heat, saturating at 3 (R150). -/
def State.heat (s : State) (ea : Nat) (t : AccessType) : State :=
  let e := s.readN ea 8
  let lo := if t.writes then 10 else 8
  let h := nbits e (lo + 1) lo
  if h == 3 then s else s.putBytes ea (leBytes 8 (e + 2 ^ lo))

/-- Outcome of translating one access. -/
inductive Trans where
  | ok (pa : Nat)
  | violation
  | absent
  | error (pa : Nat)
deriving DecidableEq, Repr

/-- Write one notice word pair at the ring's TAIL and advance it (R152); the ring must have room. A ring base in a stack that
CAP2.HBM does not report is written as memory (log entry 92). -/
def State.pushNotice (s : State) (die : Nat) (w0 w1 : W64) : State :=
  let base := bits (s.reg die 0x100018) 51 14 * 16384
  let ptr := s.reg die 0x100020
  let tail := bits ptr 25 16
  let s1 := (s.putBytes (base + 16 * tail) (leBytes 8 w0.toNat ++ leBytes 8 w1.toNat))
  let s2 := s1.setReg die 0x100020 (BitVec.ofNat 64 (bits ptr 9 0 + (tail + 1) % 1024 * 2 ^ 16))
  { s2 with irqs := s2.irqs ++ [(2 ^ 16 + die, 0)] }

/-- Whether a die's notice ring has room (R152). -/
def State.noticeRoom (s : State) (die : Nat) : Bool :=
  let ptr := s.reg die 0x100020
  (bits ptr 25 16 + 1) % 1024 != bits ptr 9 0

/-- Word 1 of a notice (R152). -/
def noticeAgent (w : Who) : W64 :=
  let cl := if w.source ≤ 4 then w.loc.cluster else 0
  let co := if w.source == 0 then w.loc.core else if w.source ≤ 4 then 24 else 0
  BitVec.ofNat 64 (w.die + 2 * cl + 2 ^ 5 * co + 2 ^ 10 * w.source + 2 ^ 32 * (if w.source == 7 then w.peer else 0))

/-- Post a not-present notice: one per page and KIND that waits, now or when the ring has room (R155). -/
def State.postNotice (s : State) (w : Who) (va kind : Nat) : State :=
  let d := s.die w.die
  let key := (va / 2 ^ 16, kind)
  if d.posted.contains key then s
  else
    let s1 := s.setDie w.die { d with posted := key :: d.posted }
    if s1.noticeRoom w.die then
      s1.pushNotice w.die (BitVec.ofNat 64 (va / 2 ^ 16 * 2 ^ 16 + kind)) (noticeAgent w)
    else
      let d1 := s1.die w.die
      s1.setDie w.die { d1 with unposted := d1.unposted ++ [(va / 2 ^ 16, kind, noticeAgent w)] }

/-- Count an access for migration (R151) when its leaf asks for it and it misses the L2 to CXL or the other die. -/
def State.countMigration (s : State) (w : Who) (va ea : Nat) (e : W64) (pa : Nat) : State :=
  let far := match s.place pa with
    | .hbm st => st / 4 != w.die
    | .cxl _ => true
    | _ => false
  let thresh := bits (s.reg w.die 0x100028) 15 0
  if e.getLsbD 12 && far && thresh != 0 && Config.l2Miss s.freeIdx then
    let s := { s with freeIdx := s.freeIdx + 1 }
    let cw := s.readN (ea + 0x2000) 8
    let cnt := if cw % 2 ^ 16 < thresh then cw % 2 ^ 16 + 1 else cw % 2 ^ 16
    if cnt == thresh && nbits cw 16 16 == 0 then
      if s.noticeRoom w.die then
        let w1 : W64 := if w.source == 0 then noticeAgent w else BitVec.ofNat 64 w.die
        (s.pushNotice w.die (BitVec.ofNat 64 (va / 2 ^ 16 * 2 ^ 16 + 4)) w1).putBytes (ea + 0x2000) (leBytes 8 (2 ^ 16))
      else
        let o := bits (s.reg w.die 0x100030) 31 0
        (s.setReg w.die 0x100030 (BitVec.ofNat 64 (min (o + 1) 0xFFFFFFFF))).putBytes (ea + 0x2000) (leBytes 8 (nbits cw 16 16 * 2 ^ 16 + cnt))
    else s.putBytes (ea + 0x2000) (leBytes 8 (nbits cw 16 16 * 2 ^ 16 + cnt))
  else s

/-- Translate a virtual address for an access (R147 to R150) and check the access tables (R400): the physical address. A miss walks,
raises heat when the leaf permits the access, and fills the TLB when the leaf names a place too (R425); a not-present page is not
noticed here. -/
def State.translateRaw (s : State) (w : Who) (va size : Nat) (t : AccessType) : State × Trans :=
  if !(s.reg w.die 0x100000).getLsbD 0 then (s, .violation)
  else
    let hit := s.tlbHit w.die w.units va
    match hit.getD (s.walk w.die va) with
    | .absent => (s, .absent)
    | .bad _ => (s, .violation)
    | .error pa => (s, .error pa)
    | .leaf ea e large =>
      let pa := leafPa e large va
      if !leafPermits e t then (s, .violation)
      else
        let reaches := match s.place pa with | .hbm _ | .cxl _ | .map _ _ _ _ _ => true | _ => false
        let s0 := if hit.isNone then s.heat ea t else s
        let s1 := if hit.isNone && reaches then s0.tlbFill w.die w.units va ea e large else s0
        let ok := match s.place pa with
          | .hbm _ | .cxl _ => s1.tablesPermit w pa size t.fetches t.writes
          | .map d c u o wn => s1.mayReach w d c u o size wn t.writes && s1.tablesPermit w pa size t.fetches t.writes
          | _ => false
        if ok then (s1.countMigration w va ea e pa, .ok pa) else (s1, .violation)

/-- Translate a virtual address to the physical address where the access is performed. -/
def State.translate (s : State) (w : Who) (va size : Nat) (t : AccessType) : State × Trans :=
  match s.translateRaw w va size t with
  | (s1, .ok pa) => (s1, .ok (s1.performedAt w pa))
  | r => r

/-- The scratchpad block of a gang on a core. -/
def State.gangBlock (s : State) (gang core : Nat) : Option Block :=
  s.blocks.find? fun b => b.gang == gang && !b.child && b.loc.core == core && !b.killed

/-- What the fetch of the 32-byte block of a virtual address meets for a core or sequencer, without side effect (04_control.md R59): a
page that is not present, a forbidden block, an uncorrectable word, or the physical address. On the on-chip map the launch's own
right (R130) is left to the fetch itself (log entry 58). -/
def State.peekCode (s : State) (l : Loc) (va : Nat) : Trans :=
  if va / 2 ^ 56 != 0 || !(s.reg l.die 0x100000).getLsbD 0 then .violation
  else
    match (s.tlbHit l.die (tlbUnits l 0) va).getD (s.walk l.die va) with
    | .absent => .absent
    | .bad _ => .violation
    | .error pa => .error pa
    | .leaf _ e large =>
      let pa := leafPa e large va
      let block := pa / 32 * 32
      let w : Who := { launch := 0, gang := 0, block := 0, ctx := 0, kind := .lane, loc := l, die := l.die
                       master := 8 * l.die + l.cluster, source := 0, peer := 0 }
      let reaches := match s.place pa with | .hbm _ | .cxl _ | .map _ _ _ _ _ => true | _ => false
      if !leafPermits e .fetch || !reaches || !s.tablesPermit w block 32 true false then .violation
      else if s.badRead block 32 then .error block
      else .ok pa

/-- Whether every word from an address up to the end of its 32-byte block is a pad word (02_formats.md R16). -/
def State.padsToEnd (s : State) (pa : Nat) (words : Nat) : Bool :=
  match words with
  | 0 => true
  | k + 1 => (s.readByte pa).toNat % 4 == 3 && s.padsToEnd (pa + 4) k

/-- The address reached past at most `blocks` legal rows of pads (R16), in blocks that can be fetched. -/
def State.skipPads (s : State) (l : Loc) (pc : W64) (blocks : Nat) : W64 :=
  match blocks with
  | 0 => pc
  | k + 1 =>
    let a := pc.toNat
    match s.peekCode l a with
    | .ok pa =>
      if s.padsToEnd pa (8 - a % 32 / 4) then s.skipPads l (BitVec.ofNat 64 ((a / 32 + 1) * 32)) k else pc
    | _ => pc

/-- The address at which execution goes on that reaches an address other than by a branch, call or return: past the
legal rows of pads there (R16). -/
def State.pastPads (s : State) (l : Loc) (pc : W64) : W64 := s.skipPads l pc 65536

/-- The space checks of R131 and R130 for .LOC, .CLU and .MAP: the address in the on-chip map. -/
def State.spacePa (s : State) (w : Who) (space : Nat) (addr : W64) (size : Nat) (t : AccessType) : Option Nat :=
  let a := addr.toNat
  match space with
  | 1 =>
    if w.kind == .seq then
      match s.ctx? w.ctx with
      | some c =>
        if a + size ≤ 16384 then some (c.homeFile + a) else none
      | none => none
    else
      match s.block? w.block with
      | some b =>
        if a + size ≤ b.size && !b.child then some (b.home + a) else none
      | none => none
  | 2 =>
    if a / 2 ^ 24 != 0 then none
    else if w.kind != .seq && (match s.block? w.block with | some b => b.child | none => false) then none
    else
      let unit := nbits a 23 19
      let off := nbits a 18 0
      if unit < 24 then
        match s.gangBlock w.gang unit with
        | some b => if off + size ≤ b.size then some (b.home + off) else none
        | none => none
      else if unit == 24 then
        match s.ctxs.find? fun c => c.kind == .seq && c.gang == w.gang with
        | some c => if off + size ≤ 16384 then some (c.homeFile + off) else none
        | none => none
      else none
  | _ =>
    if a / 2 ^ 52 != 0 then none
    else
      match s.place a with
      | .map d c u o wn => if s.mayReach w d c u o size wn t.writes then some a else none
      | _ => none

/-- R131: resolve an address of a space to the physical address where the access is performed. -/
def State.resolve (s : State) (w : Who) (space : Nat) (addr : W64) (size : Nat) (t : AccessType) : State × Trans :=
  if space == 0 then
    (if addr.toNat / 2 ^ 56 == 0 then s.translate w addr.toNat size t else (s, .violation))
  else
    match s.spacePa w space addr size t with
    | none => (s, .violation)
    | some pa => if s.tablesPermit w pa size t.reads t.writes then (s, .ok (s.performedAt w pa)) else (s, .violation)

end Sys2Proof.Machine
end

