-- ==== Sys2Proof/Machine/Operands.lean ====
section
/-! DEFINITION. The operand forms: which registers each field of each instruction may hold (02_formats.md R22,
R25 to R27 and the operand tables of the class chapters), and which context may execute it (01_machine.md
R11, Table 1.4). -/

namespace Sys2Proof

/-- What an operand field may hold. `reg` allows v, s, e and zero as its flags say, with `n` consecutive v
registers aligned to `n` (a pair, a quad) and, for s, numbers that are a multiple of `sm`; `num b` is a number
of b bits (R26); `dash` must hold 0xFF; `ign` is ignored past the reserved-code check (R60);
`pay` is SPAWN's payload, four v registers or zero; `raw` is the 8-bit byte offset of F64 memory forms (R22). -/
inductive Slot where
  | reg (v s e z : Bool) (n sm : Nat)
  | num (bits : Nat)
  | dash
  | ign
  | pay
  | raw
deriving DecidableEq, Repr

/-- v, s, e or zero, of n v registers. -/
def Slot.any (n : Nat) : Slot := .reg true true true true n 1
/-- s, e or zero. -/
def Slot.sez : Slot := .reg false true true true 1 1
/-- s or e. -/
def Slot.se : Slot := .reg false true true false 1 1
/-- an s register. -/
def Slot.sOnly : Slot := .reg false true false false 1 1
/-- v or zero, of n v registers. -/
def Slot.vz (n : Nat) : Slot := .reg true false false true n 1

/-- The four operand fields D, A, B, C of an instruction. -/
structure Slots where
  d : Slot
  a : Slot
  b : Slot
  c : Slot
deriving DecidableEq, Repr

/-- v registers per element of TY (two when N = 64, R80). -/
def Fields.tyW (f : Fields) : Nat := if f.ty == 2 || f.ty == 3 then 2 else 1

/-- v registers per element of a load or store size SUB (Table 7.4). -/
def sizeRegs (sub : Nat) : Nat := if sub == 6 then 4 else if sub == 3 then 2 else 1

/-- Element bytes of a load or store SUB (Table 2.8). -/
def sizeBytes (sub : Nat) : Nat :=
  match sub with
  | 0 | 4 => 1
  | 1 | 5 => 2
  | 2 => 4
  | 3 => 8
  | _ => 16

/-- Operand fields of every kind: Tables 4.1, 5.2, 6.6, 7.4, 8.4, 9.5, 10.2, 11.4, 12.4, 13.3, 14.1, 15.2,
16.3 and 17.4. In an immediate format the replaced field is `dash` (R22). -/
def Kind.slots (k : Kind) (f : Fields) : Slots :=
  let imm := f.ext.fmt == 1
  let w := f.tyW
  let bI (x : Slot) : Slot := if imm then .dash else x
  let pd (x : Slot) (bit : Nat) : Slot := if f.m.getLsbD bit then .num 3 else x
  let memC : Slot := if imm then .dash else .raw
  let xw := if nbits f.x 7 5 == 2 || nbits f.x 7 5 == 3 then 2 else 1
  let rw := if nbits f.x 5 3 == 2 || nbits f.x 5 3 == 3 then 2 else 1
  match k with
  | .nop | .yield | .exitL => ⟨.ign, .ign, .ign, .ign⟩
  | .bra | .bru => ⟨.ign, .ign, .dash, .ign⟩
  | .brx => ⟨.ign, .sez, .any 1, .ign⟩
  | .call => ⟨.reg true true false true 2 1, .ign, .dash, .ign⟩
  | .callx => ⟨.reg true true false true 2 1, .sez, .any 1, .ign⟩
  | .ret => ⟨.ign, .any 2, .ign, .ign⟩
  | .loopL => ⟨.reg true true false true 1 1, .ign, .dash, .ign⟩
  | .enrol | .park | .strike => ⟨.num 3, .ign, .ign, .ign⟩
  | .exitSucc => ⟨.ign, .sez, .sez, .ign⟩
  | .iadd | .isub | .imin | .imax | .andL | .orL | .xorL | .andn | .orn | .xnor => ⟨.any w, .any w, bI (.any w), .dash⟩
  | .shl | .shr | .sha | .rol => ⟨.any w, .any w, bI (.any w), .dash⟩
  | .imul => ⟨.any (if f.sub == 2 then 2 else w), .any w, bI (.any w), .dash⟩
  | .imad => ⟨.any (if f.sub == 2 then 2 else w), .any w, bI (.any w), .any (if f.sub == 2 then 2 else w)⟩
  | .iabs | .ineg | .popc | .clz | .ctz | .brev => ⟨.any w, .any w, .dash, .dash⟩
  | .bfx => ⟨.any w, .any w, bI (.any 1), .dash⟩
  | .bfi => ⟨.any w, .any w, bI (.any w), .any 1⟩
  | .icmp => ⟨pd (.any w) 3, .any w, bI (.any w), .dash⟩
  | .sel => ⟨.any w, .any w, bI (.any w), .num 3⟩
  | .mov => ⟨.any w, .any w, .dash, .dash⟩
  | .movI32 => ⟨.any w, .dash, .dash, .dash⟩
  | .movI64 => ⟨.any 2, .dash, .dash, .dash⟩
  | .movs => ⟨.reg true true true false (if f.m.toNat == 0x10 then 2 else 1) 1, .dash, .dash, .dash⟩
  | .lea => ⟨.any 2, .any 2, bI (.any 1), .any 2⟩
  | .plop => ⟨.num 3, .num 3, .num 3, .num 3⟩
  | .ballot => ⟨.any 2, .num 3, .dash, .dash⟩
  | .vote => ⟨pd (.any 1) 3, .num 3, .dash, .dash⟩
  | .shfl => ⟨.reg true false true false w 1, .reg true true true false w 1, bI (.any w), .dash⟩
  | .qswap | .qbc | .scan => ⟨.reg true false true false w 1, .reg true true true false w 1, .dash, .dash⟩
  | .redux => ⟨.reg true true true false w 1, .reg true true true false w 1, .dash, .dash⟩
  | .rdlane => ⟨.reg true true true false w 1, .reg true false true false w 1, bI .sez, .dash⟩
  | .wrlane => ⟨.reg true false false false w 1, .sez, bI .sez, .dash⟩
  | .matchL => ⟨.any 2, .reg true true true false w 1, .dash, .dash⟩
  | .fadd | .fsub | .fmul | .fmin | .fmax | .fscl => ⟨.any 1, .any 1, bI (.any 1), .dash⟩
  | .ffma | .fdot2 => ⟨.any 1, .any 1, bI (.any 1), .any 1⟩
  | .fcmp => ⟨pd (.any 1) 5, .any 1, bI (.any 1), .dash⟩
  | .fclass | .frnd | .fcvt | .funpk | .frcp | .frsq | .fsqrt | .fex2 | .flg2 | .fsin | .fcos | .ftanh =>
    ⟨.any 1, .any 1, .dash, .dash⟩
  | .f2i => ⟨.any (if 2 ≤ f.hiTy then 2 else 1), .any 1, .dash, .dash⟩
  | .i2f => ⟨.any 1, .any (if 2 ≤ f.hiTy then 2 else 1), .dash, .dash⟩
  | .fpack => ⟨.any 1, .any 1, .any 1, if f.ft ≤ 2 then .dash else .any 1⟩
  | .ld => ⟨.vz (sizeRegs f.sub.val), .sOnly, .any 1, memC⟩
  | .ldu => ⟨.reg false true false true 1 (if f.sub == 6 then 2 else 1), .sOnly, .sez, memC⟩
  | .st =>
    ⟨if f.sub == 6 then .reg true true false true 4 2 else .any (sizeRegs f.sub.val), .sOnly, .any 1, memC⟩
  | .stu => ⟨.reg false true (f.sub != 6) true 1 (if f.sub == 6 then 2 else 1), .sOnly, .sez, memC⟩
  | .prf => ⟨.dash, .sOnly, .any 1, memC⟩
  | .xlat => ⟨.reg true true false true 2 1, .sOnly, .any 1, memC⟩
  | .twr => ⟨.num 4, .any 1, .sez, .dash⟩
  | .acwr => ⟨.num 3, .any 1, .sez, .dash⟩
  | .trd => ⟨.reg true false true false 1 1, .num 4, .sez, .dash⟩
  | .acrd => ⟨.reg true false true false 1 1, .num 3, .sez, .dash⟩
  | .tscl => ⟨.num 4, .any 1, .sez, .dash⟩
  | .resb => ⟨.reg false true false true 1 1, .sez, .sez, .dash⟩
  | .fence | .fencek | .rfence | .gabort | .eret | .bkpt | .haltL => ⟨.dash, .dash, .dash, .dash⟩
  | .waitk => ⟨.sez, bI .sez, .dash, .dash⟩
  | .twaitk => ⟨.num 3, bI .sez, .sez, .dash⟩
  | .tkq => ⟨.sez, .dash, .dash, .dash⟩
  | .tkclr => ⟨.dash, bI .sez, .dash, .dash⟩
  | .tkarr => ⟨.num 5, .se, bI .sez, .dash⟩
  | .pbinit => ⟨.dash, .se, .sez, .sez⟩
  | .pbarr => ⟨.dash, .se, bI .sez, .sez⟩
  | .pbwait => ⟨.num 2, .se, bI .sez, .dash⟩
  | .bsync => ⟨.num 2, .dash, .dash, .dash⟩
  | .monwait => ⟨.sez, .se, .sez, .sez⟩
  | .tkpsn => ⟨.num 5, bI .sez, .dash, .dash⟩
  | .atom => ⟨.vz xw, .sOnly, .any 1, .any xw⟩
  | .fatom => ⟨.vz 1, .sOnly, .any 1, .any 1⟩
  | .cas => ⟨.vz xw, .sOnly, .any 1, .any xw⟩
  | .red => ⟨.dash, .sOnly, .any 1, .any xw⟩
  | .fred => ⟨.dash, .sOnly, .any 1, .any 1⟩
  | .atomu => ⟨.reg false true false true 1 1, .sOnly, .sez, .sez⟩
  | .mma => ⟨.num 3, .num 4, .sez, .dash⟩
  | .mmas => ⟨.num 3, .num 4, .sez, .sez⟩
  | .aczero => ⟨.num 3, .dash, .dash, .dash⟩
  | .acdrain | .acdrainAdd | .acload => ⟨.num 3, .se, .sez, .sez⟩
  | .mxset => ⟨.dash, bI .sez, .dash, .dash⟩
  | .mxq | .pcnt | .clock | .mfsr | .spq => ⟨.se, .dash, .dash, .dash⟩
  | .gbind => ⟨.dash, .se, .se, .dash⟩
  | .gmv | .gmva => ⟨.dash, .se, .se, .se⟩
  | .grvrd => ⟨.dash, .se, .sez, .sez⟩
  | .spawn => ⟨.num 3, .pay, bI (.any 1), .any 2⟩
  | .jcinit | .jcadd => ⟨.dash, .se, bI .sez, .dash⟩
  | .jcwait => ⟨.dash, .se, .dash, .dash⟩
  | .launchg => ⟨.dash, .se, .sez, .dash⟩
  | .cpy | .cpyRing =>
    ⟨.dash, .se, .se, if f.sub == 0 then .sez else .reg false true false false 1 (if f.sub == 1 then 2 else 4)⟩
  | .cpygGather | .cpygScatter => ⟨.dash, .se, .se, .reg false true false false 1 2⟩
  | .rinit => ⟨.dash, .se, .sez, .sez⟩
  | .racqProd | .racqCons => ⟨.sez, .se, .dash, .dash⟩
  | .rrelPub | .rrelPubLast => ⟨.dash, .se, .se, .sez⟩
  | .rrelFree => ⟨.dash, .se, .se, .dash⟩
  | .sbind => ⟨.sez, .sez, .sez, .dash⟩
  | .sctlStat | .sctlDlen | .sctlYlen | .sctlElen | .sctlStop => ⟨.sez, bI .sez, .dash, .dash⟩
  | .srd => ⟨.vz 1, .sOnly, .any 1, .dash⟩
  | .semit => ⟨.sez, .se, .any (if nbits f.m.toNat 1 0 == 3 then 2 else 1), .dash⟩
  | .hdec => ⟨.vz 1, .se, .sez, .dash⟩
  | .rld => ⟨.vz rw, .sOnly, .any 1, .dash⟩
  | .rst => ⟨.any rw, .sOnly, .any 1, .dash⟩
  | .ratom => ⟨.vz rw, .sOnly, .any 1, .any rw⟩
  | .rstm | .rcpy => ⟨.dash, .se, .se, .sez⟩
  | .collAr | .collRs | .collAg => ⟨.dash, .se, .dash, .dash⟩
  | .collcfg => ⟨.sez, bI .sez, .dash, .dash⟩
  | .vcfg | .vcfgClose => ⟨.sez, .se, .dash, .dash⟩
  | .venc => ⟨.sez, .se, .se, .reg false true false false 1 4⟩
  | .vqry => ⟨.se, .sez, .dash, .dash⟩
  | .trap => ⟨.dash, .sez, .dash, .dash⟩
  | .mtsr | .tmark => ⟨.dash, bI .sez, .dash, .dash⟩

/-- Whether a field holds a legal operand for its slot in a kernel of V v registers (R25, R26, R136). -/
def slotOk (vregs : Nat) (sl : Slot) (r : Reg) : Bool :=
  match sl with
  | .dash => r == .zero
  | .ign =>
    match r with
    | .reserved _ => false
    | _ => true
  | .num b => r.byte < 2 ^ b
  | .raw => true
  | .pay =>
    match r with
    | .v n => n.val + 3 < vregs
    | .zero => true
    | _ => false
  | .reg v s e z n sm =>
    match r with
    | .v x => v && x.val % n == 0 && x.val + n - 1 < vregs
    | .s x => s && x.val % sm == 0
    | .e _ => e
    | .reserved _ => false
    | .zero => z

/-- Whether Table 2.5 governs a slot (01_machine.md R11): not a number under R26. -/
def Slot.governed (sl : Slot) : Bool :=
  match sl with
  | .num _ => false
  | .raw => false
  | _ => true

/-- Whether an operand field is used as a register: not a number, and not ignored (R60). -/
def Slot.used (sl : Slot) : Bool :=
  match sl with
  | .ign => false
  | _ => sl.governed

/-- Whether an operand is a v register. -/
def Reg.isV (r : Reg) : Bool :=
  match r with
  | .v _ => true
  | _ => false

/-- Whether an operand is an s register. -/
def Reg.isS (r : Reg) : Bool :=
  match r with
  | .s _ => true
  | _ => false

/-- The extra operand byte of X0: CAS's NEW (Table 10.1) and the peer pair (15_fabric.md R323). -/
def extraOperandOk (vregs : Nat) (k : Kind) (f : Fields) : Bool :=
  let r := Reg.ofByte (nbits f.x 15 8)
  match k with
  | .cas => slotOk vregs (.any (if nbits f.x 7 5 == 2 || nbits f.x 7 5 == 3 then 2 else 1)) r
  | .rld | .rst | .ratom | .rcpy | .rstm => slotOk vregs (.reg false true false false 1 2) r
  | _ => true

/-- Kinds whose s destination may have a v source (R27). -/
def reducesLanes (k : Kind) : Bool :=
  [.ballot, .vote, .redux, .rdlane, .matchL, .movs, .semit].contains k

/-- Whether D is a destination register field (not data or a number). -/
def dIsDest (k : Kind) : Bool :=
  match k with
  | .st | .stu | .rst => false
  | _ => true

/-- The operand checks of R35 step 4 that one instruction decides alone: R22, R25, R26, R27 and the operand
classes of its table. -/
def operandsOk (vregs : Nat) (k : Kind) (f : Fields) : Bool :=
  let sl := k.slots f
  slotOk vregs sl.d f.d && slotOk vregs sl.a f.a && slotOk vregs sl.b f.b && slotOk vregs sl.c f.c
    && extraOperandOk vregs k f
    && (!(f.d.isS && sl.d.used && dIsDest k) || reducesLanes k
        || !((f.a.isV && sl.a.used) || (f.b.isV && sl.b.used) || (f.c.isV && sl.c.used)))

/-- Whether X0[15:8] is an operand byte: CAS's NEW (Table 10.1) and the peer pair (15_fabric.md R321, R323). -/
def Kind.xOperand (k : Kind) : Bool := [Kind.cas, .rld, .rst, .ratom, .rcpy, .rstm].contains k

/-- Whether an instruction names a v register (R11). -/
def namesV (k : Kind) (f : Fields) : Bool :=
  let sl := k.slots f
  (f.d.isV && sl.d.governed) || (f.a.isV && sl.a.governed) || (f.b.isV && sl.b.governed)
    || (f.c.isV && sl.c.governed) || (k.xOperand && (Reg.ofByte (nbits f.x 15 8)).isV)

/-- Whether an instruction has a v register as a destination or a source; it is then not in its uniform form (R27). -/
def usesV (k : Kind) (f : Fields) : Bool :=
  let sl := k.slots f
  (f.d.isV && sl.d.used) || (f.a.isV && sl.a.used) || (f.b.isV && sl.b.used)
    || (f.c.isV && sl.c.used) || (k == .cas && (Reg.ofByte (nbits f.x 15 8)).isV)

/-- Table 1.4: whether a kind of context may execute a kind of instruction, apart from the rule on v registers. -/
def classOk (ck : Machine.CtxKind) (k : Kind) : Bool :=
  let cls := k.info.op / 16
  match ck with
  | .lane => cls != 8 && k != .srd && k != .semit && k != .rrelPubLast
  | .seq =>
    match cls with
    | 0 => !([Kind.enrol, .park, .strike, .exitSucc].contains k)
    | 1 => true
    | 5 => k == .ldu || k == .stu
    | 6 => true
    | 7 => k == .atomu
    | 8 | 9 | 12 | 13 | 14 => true
    | 11 => [Kind.cpy, .cpyRing, .cpygGather, .cpygScatter, .rinit, .racqProd, .racqCons, .rrelPub, .rrelFree].contains k
    | _ => false
  | .slot => [0, 1, 2, 5, 6, 11].contains cls

/-- R35 step 3: the context-class check of R11. -/
def contextOk (ck : Machine.CtxKind) (k : Kind) (f : Fields) : Bool :=
  classOk ck k && (ck != .seq || !namesV k f)

end Sys2Proof
end

