-- ==== Sys2Proof/Machine/Ops.lean ====
section
/-! DEFINITION. The named operations over contexts: lane masks, register access, tokens, poison records (R187,
R188), join-counter updates (R281, R284), the start state of a context (R10), mask release (R70), block
barriers (R202), killing (R353, R280, R161), and taking an exception and returning from it (R351, R352, R360). -/

namespace Sys2Proof.Machine

/-- The mask of a list of lanes. -/
def maskOf (ls : List Nat) : W64 := ls.foldl (fun m l => m ||| BitVec.ofNat 64 (2 ^ l)) 0

/-- The lanes of a mask below a width, in increasing order. -/
def lanesOf (width : Nat) (m : W64) : List Nat := (List.range width).filter fun l => m.getLsbD l

/-- A lane that does not exist. -/
def Lane.none : Lane :=
  { pc := 0, fell := true, met := [], st := .exited, halted := false, stepping := false, left := false, deferred := Option.none, gen := 0, jc := 0, jcMap := false }

/-- Lane l of a context. -/
def Ctx.lane (c : Ctx) (l : Nat) : Lane := nth c.lanes l Lane.none
/-- Change lane l. -/
def Ctx.updLane (c : Ctx) (l : Nat) (g : Lane → Lane) : Ctx := { c with lanes := setNth c.lanes l (g (c.lane l)) }
/-- Change several lanes. -/
def Ctx.updLanes (c : Ctx) (ls : List Nat) (g : Nat → Lane → Lane) : Ctx :=
  ls.foldl (fun c l => c.updLane l (g l)) c
/-- All lane numbers of a context. -/
def Ctx.allLanes (c : Ctx) : List Nat := List.range c.width

/-- vn of a lane. -/
def Ctx.rdV (c : Ctx) (n l : Nat) : W32 := Table.get c.v (64 * n + l) 0
/-- Write vn of a lane. -/
def Ctx.wrV (c : Ctx) (n l : Nat) (x : W32) : Ctx := { c with v := Table.set c.v (64 * n + l) x 0 }
/-- sn. -/
def Ctx.rdS (c : Ctx) (n : Nat) : W64 := Table.get c.s n 0
/-- Write sn. -/
def Ctx.wrS (c : Ctx) (n : Nat) (x : W64) : Ctx := { c with s := Table.set c.s n x 0 }
/-- pn of a lane; p7 reads true (R19). -/
def Ctx.rdP (c : Ctx) (n l : Nat) : Bool := n == 7 || (Table.get c.p n (0 : W64)).getLsbD l
/-- Write pn of a lane; a write to p7 is discarded (R26). -/
def Ctx.wrP (c : Ctx) (n l : Nat) (x : Bool) : Ctx :=
  if n == 7 then c
  else
    let bit : W64 := BitVec.ofNat 64 (2 ^ l)
    let old : W64 := Table.get c.p n 0
    { c with p := Table.set c.p n (if x then old ||| bit else old &&& ~~~bit) 0 }
/-- mn (R68). -/
def Ctx.rdM (c : Ctx) (n : Nat) : W64 := Table.get c.m n 0
/-- The mask of the lanes below the width (R68). -/
def Ctx.widthMask (c : Ctx) : W64 := BitVec.ofNat 64 (2 ^ c.width - 1)
/-- Write mn; bits at or above the width cannot be set (R68). -/
def Ctx.wrM (c : Ctx) (n : Nat) (x : W64) : Ctx := { c with m := Table.set c.m n (x &&& c.widthMask) 0 }
/-- The state of token kn. -/
def Ctx.rdTok (c : Ctx) (k : Nat) : TokSt := Table.get c.tok k .free
/-- Set token kn. -/
def Ctx.wrTok (c : Ctx) (k : Nat) (t : TokSt) : Ctx := { c with tok := Table.set c.tok k t .free }
/-- Tokens freed or dispatched anew are met again by no run (09_tokens_barriers.md R189). -/
def Ctx.forgetMet (c : Ctx) (ks : List Nat) : Ctx :=
  if c.lanes.all fun x => x.met.isEmpty then c
  else { c with lanes := c.lanes.map fun x => { x with met := x.met.filter fun m => !ks.contains m.2 } }
/-- Whether a token is pending. -/
def TokSt.isPending (t : TokSt) : Bool := match t with | .pending _ => true | _ => false
/-- The record of a poisoned token. -/
def TokSt.poison? (t : TokSt) : Option Nat := match t with | .poisoned r => some r | _ => none
/-- The two-bit code of TKQ (R193). -/
def TokSt.code (t : TokSt) : Nat := match t with | .free => 0 | .pending _ => 1 | .done => 2 | .poisoned _ => 3

/-- TCAUSE.INH: the warp is in its handler. -/
def Ctx.inh (c : Ctx) : Bool := c.sr.tcause.getLsbD 31
/-- A lane is suspended (R352). -/
def Ctx.suspended (c : Ctx) (l : Nat) : Bool := c.inh && !c.sr.tlanes.getLsbD l
/-- A lane can execute a run: runnable, not halted, not suspended. -/
def Ctx.canRun (c : Ctx) (l : Nat) : Bool :=
  let x := c.lane l
  x.st == .runnable && !x.halted && !c.suspended l

/-- Lanes of a launch's warps. -/
def Rec.lanes (r : Rec) : Nat := 16 * 2 ^ r.width

/-- System registers at the start of a context of a launch (R355): PRBASE, STCTL and TENTRY from its record. -/
def SysRegs.start (r : Rec) : SysRegs :=
  { tcause := 0, tlanes := 0, tfault := 0, taddr := 0, tepc := 0, tval := 0, trec := 0xFFFF
    prbase := BitVec.ofNat 64 r.poison, pmode := 0, pstat := 0, trctl := 0
    stctl := BitVec.ofNat 64 (bitOf r.cs + 2 * bitOf r.ts), dbgRev := false
    tentry := if r.trapOff == 0 then 0
      else BitVec.ofNat 64 r.lane + (BitVec.ofNat 32 r.trapOff).signExtend 64 }

/-- A lane runnable at an address. -/
def Lane.start (pc : W64) : Lane := { Lane.none with pc := pc, st := .runnable }

/-- The launch arguments as s registers (R10). -/
def argTable (args : List W64) : Table W64 :=
  ((List.range 16).foldl (fun t i => Table.set t i (nth args i 0) 0) [])

/-- A context in its start state (R10). DBGST.REV of one that starts after its launch's debug right was revoked reads 1 (log entry
93). -/
def Ctx.start (id : Nat) (kind : CtxKind) (l : Launch) (gang block warp : Nat) (loc : Loc) (slotNo width : Nat) (pc : W64) : Ctx :=
  { id := id, kind := kind, launch := l.id, gang := gang, block := block, warp := warp, loc := loc, slotNo := slotNo
    width := width, vregs := if kind == .seq then 0 else l.record.vregs
    lanes := List.replicate width (Lane.start pc)
    v := [], s := argTable l.record.args, p := [], m := [], tok := []
    sr := { SysRegs.start l.record with dbgRev := l.rev }, last := none, commitQ := [], npay := 0, spqLast := 0, coreMask := 0, seqNo := 0
    behind := 0, traceSync := false, traceLost := 0, saved := false, image := none, waitSince := 0, cost := 0, fileAt := 0, streak := 0, passed := 0, stopReq := false
    ended := false }

/-- Complete every JCWAIT armed on a word that a write left zero or negative (R284). -/
def State.settleJoins (s : State) : State :=
  if s.ops.any (fun o => match o.cmd, o.stage with | .jcwait _ _, .armed _ _ => true | _, _ => false) then
    { s with ops := s.ops.map fun o =>
        match o.cmd, o.stage with
        | .jcwait _ _, .armed pa _ =>
          if (BitVec.ofNat 64 (s.readN pa 8)).toInt ≤ 0 then { o with stage := .finished (.ok []) } else o
        | _, _ => o }
  else s

/-- Every write to memory: bytes stored, errors cleared where covered whole, join waits settled. -/
def State.wr (s : State) (pa : Nat) (bs : List Byte) : State :=
  ((s.putBytes pa bs).heal pa bs.length).settleJoins

/-- Write an n-byte element. -/
def State.wrN (s : State) (pa n x : Nat) : State := s.wr pa (leBytes n x)

/-- Saturating increment of a 32-bit register. -/
def State.bumpReg (s : State) (die off : Nat) : State :=
  s.setReg die off (BitVec.ofNat 64 (min (bits (s.reg die off) 31 0 + 1) 0xFFFFFFFF))

/-- The die, cluster, core and unit code (Table 19.6) of a physical address. -/
def State.errWhere (s : State) (pa : Nat) : Nat × Nat × Nat × Nat :=
  match s.place pa with
  | .hbm st => (st / 4, 0, 0, if Table.get s.badGranules (pa / 32) 0 == 2 then 2 else 1)
  | .map d cl u _ .scratch => (d, cl, u, 4)
  | .map d cl u _ .tile => (d, cl, u, 5)
  | .map d cl u _ .scale => (d, cl, u, 5)
  | .map d cl u _ .acc => (d, cl, u, 6)
  | .map d cl _ _ .seqFile => (d, cl, 24, 8)
  | .map d cl _ _ .rules => (d, cl, 25, 9)
  | .cxl d => (d, 0, 0, 2)
  | .mgmt d => (d, 0, 0, 0)
  | .nothing => (0, 0, 0, 0)

/-- Raise the error interrupt of a die (R404). -/
def State.errIrq (s : State) (die : Nat) : State :=
  let r := s.reg die 0x1E0030
  if r.getLsbD 32 then
    { s.setReg die 0x1E0030 (r ||| 0x200000000) with irqs := s.irqs ++ [(2 ^ 17 + die, r &&& 0xFFFFFFFF)] }
  else s

/-- The first address from pa on that has an uncorrectable error. -/
def State.errAt (s : State) (pa : Nat) : Nat :=
  let gs := (s.badGranules.filter fun g => g.2 != 0 && decide (pa < g.1 * 32 + 32)).map fun g => max pa (g.1 * 32)
  let ws := (s.badWords.filter fun w => w.2 && decide (pa < w.1 * 4 + 4)).map fun w => max pa (w.1 * 4)
  (gs ++ ws).min?.getD pa

/-- Count an uncorrectable error of a unit, with the address and place that UNCADDR and UNCSRC hold (R404). -/
def State.countError (s : State) (die cluster core unit addr : Nat) : State :=
  let s1 := (s.bumpReg die 0x1E0008).setReg die 0x1E0020 (BitVec.ofNat 64 addr)
  (s1.setReg die 0x1E0028 (BitVec.ofNat 64 (unit + 2 ^ 12 * cluster + 2 ^ 16 * core))).errIrq die

/-- Count the uncorrectable error that an access at an address has met (R404). -/
def State.countUnc (s : State) (pa : Nat) : State :=
  let e := s.errAt pa
  let (d, cl, co, unit) := s.errWhere e
  s.countError d cl co unit e

/-- Translate a virtual address that an engine or a unit forms: none is above 2^56 (R131), and an uncorrectable table entry that the
walk meets is counted (R404). -/
def State.reach (s : State) (w : Who) (va size : Nat) (t : AccessType) : State × Trans :=
  if va / 2 ^ 56 != 0 then (s, .violation)
  else
    match s.translate w va size t with
    | (s1, .error pa) => (s1.countUnc pa, .error pa)
    | r => r

/-- Count the uncorrectable table entry that the walk of a virtual address meets (R404). -/
def State.countWalk (s : State) (w : Who) (va : Nat) : State :=
  match (s.tlbHit w.die w.units va).getD (s.walk w.die va) with
  | .error pa => s.countUnc pa
  | _ => s

/-- Write bytes at a virtual address in an issuer's name, part by part; a part whose translation fails is lost. -/
def State.wrVa (s : State) (w : Who) (va : Nat) (bs : List Byte) : State :=
  ((parts32 va bs.length (bs.length + 1)).foldl (fun (p : State × List Byte) a =>
    match p.1.reach w a.1 a.2 .write with
    | (s1, .ok pa) => (s1.wr pa (p.2.take a.2), p.2.drop a.2)
    | (s1, _) => (s1, p.2.drop a.2)) (s, bs)).1

/-- Read n bytes where no outcome is given for an uncorrectable error: it is counted (R404), and the words of its granules are free
(log entry 88). -/
def State.readFree (s : State) (pa n : Nat) : State × List Byte :=
  if s.badRead pa n then
    ({ s.countUnc pa with freeIdx := s.freeIdx + 1 },
      (List.range n).map fun i => if s.badRead (pa + i) 1 then (Config.freeWord s.freeIdx i).setWidth 8 else s.readByte (pa + i))
  else (s, s.readBytes pa n)

/-- Read n bytes at a virtual address in an issuer's name, part by part; none where a part cannot be translated. -/
def State.rdVa (s : State) (w : Who) (va n : Nat) : State × Option (List Byte) :=
  (parts32 va n (n + 1)).foldl (fun (p : State × Option (List Byte)) a =>
    match p.1.reach w a.1 a.2 .read with
    | (s1, .ok pa) => let q := s1.readFree pa a.2; (q.1, p.2.map fun bs => bs ++ q.2)
    | (s1, _) => (s1, none)) (s, some [])

/-- The CTX code of a poison record (Table 9.2). -/
def CtxKind.code (k : CtxKind) : Nat := match k with | .lane => 0 | .seq => 1 | .slot => 2

/-- The 32 bytes of a poison record (Table 9.2). -/
def recordBytes (opc ctx token detail cause : Nat) (l : Loc) (lane : Nat) (pc addr aux : W64) : List Byte :=
  leBytes 4 (opc * 2 ^ 24 + ctx * 2 ^ 21 + token * 2 ^ 16 + detail * 2 ^ 8 + cause)
    ++ leBytes 4 (l.core * 2 ^ 13 + l.cluster * 2 ^ 9 + l.die * 2 ^ 8 + lane)
    ++ leBytes 8 pc.toNat ++ leBytes 8 addr.toNat ++ leBytes 8 aux.toNat

/-- R206: whether an atomic may be performed at a place. -/
def State.atomicPlace (s : State) (pa : Nat) : Bool :=
  match s.place pa with
  | .hbm _ | .map _ _ _ _ .scratch | .map _ _ _ _ .seqFile => true
  | _ => false

/-- Allocate a poison record in a launch's area (R188) and write it: the state and the index, 0xFFFF on failure. An area whose CAP is
above 65,535 is full at that index (log entry 102). -/
def State.newRecord (s : State) (w : Who) (bytes : List Byte) : State × Nat :=
  match s.launch? w.launch with
  | none => (s, 0xFFFF)
  | some l =>
    let base := l.record.poison
    match s.reach w base 12 .rmw with
    | (s1, .ok pa) =>
      if !s1.atomicPlace pa then (s1, 0xFFFF)
      else if s1.badRead pa 12 then (s1.countUnc pa, 0xFFFF)
      else
        let next := s1.readN pa 4
        let cap := s1.readN (pa + 4) 4
        let lost (s : State) : State := s.wrN (pa + 8) 4 (min (s.readN (pa + 8) 4 + 1) 0xFFFFFFFF)
        let s2 := s1.wrN pa 4 ((next + 1) % 2 ^ 32)
        if cap ≤ next || 65535 ≤ next then (lost s2, 0xFFFF)
        else
          match s2.reach w (base + 32 + 32 * next) 32 .write with
          | (s3, .ok rpa) => (s3.wr rpa bytes, next)
          | (s3, _) => (lost s3, 0xFFFF)
    | (s1, _) => (s1, 0xFFFF)

/-- A record for a failure of one instruction of a context. -/
def State.ctxRecord (s : State) (c : Ctx) (opc token detail cause lane : Nat) (pc addr aux : W64) : State × Nat :=
  s.newRecord (whoOf c) (recordBytes opc c.kind.code token detail cause c.loc lane pc addr aux)

/-- Enter a fault in a launch's summary, which keeps the first (R390). -/
def State.noteFault (s : State) (launch cause : Nat) (taddr : W64) (lane : Nat) (l : Loc) (faddr : W64) : State :=
  s.updLaunch launch fun x =>
    { x with firstKill := x.firstKill <|> some { taddr := taddr, cause := cause, lane := lane, loc := l, faddr := faddr } }

/-- Remember the first killing fault and count a kill (R390). -/
def State.noteKill (s : State) (launch cause : Nat) (taddr : W64) (lane : Nat) (l : Loc) (faddr : W64) : State :=
  (s.noteFault launch cause taddr lane l faddr).updLaunch launch fun x =>
    { x with kills := x.kills + 1, killed := true, status := if x.status == 0 then 1 else x.status }

/-- Outcome of the checks of one element access (R141, steps 1 to 3). -/
inductive AccOut where
  | ok (pa : Nat)
  | fail (cause : Nat)
  | absent
deriving DecidableEq, Repr

/-- The checks of one element access: space, alignment, translation and tables. An uncorrectable error in a table
entry read by the walk fails the access. -/
def State.tryAccess (s : State) (w : Who) (space esz : Nat) (addr : W64) (t : AccessType) (atomic : Bool) : State × AccOut :=
  let mis := addr.toNat % esz != 0
  let fin (r : State × Trans) : State × AccOut :=
    match r with
    | (s1, .ok pa) => if atomic && !s1.atomicPlace pa then (s1, .fail 5) else (s1, .ok (s1.performedAt w pa))
    | (s1, .violation) => (s1, .fail 5)
    | (s1, .absent) => (s1, .absent)
    | (s1, .error pa) => (s1.countUnc pa, .fail 0x0B)
  if space == 0 then
    if addr.toNat / 2 ^ 56 != 0 then (s, .fail 5)
    else if mis then (s, .fail 4)
    else fin (s.translateRaw w addr.toNat esz t)
  else
    match s.spacePa w space addr 1 t with
    | none => (s, .fail 5)
    | some pa =>
      if atomic && !s.atomicPlace pa then (s, .fail 5)
      else if mis then (s, .fail 4)
      else
        match s.resolve w space addr esz t with
        | (s1, .ok pa) => (s1, .ok pa)
        | r => fin r

/-- The issuer of an operation's accesses. -/
def Op.who (o : Op) : Who :=
  { launch := o.launch, gang := o.gang, block := o.block, ctx := o.ctx, kind := o.kind, loc := o.loc
    die := o.loc.die, master := 8 * o.loc.die + o.loc.cluster, source := if o.kind == .seq then 1 else 0, peer := 0 }

/-- Where a join counter lies, as far as its page is present. -/
def State.counterPa (s : State) (w : Who) (space : Nat) (addr : W64) : Option Nat :=
  if space == 0 then
    match (s.tlbHit w.die w.units addr.toNat).getD (s.walk w.die addr.toNat) with
    | .leaf _ e large => some (leafPa e large addr.toNat)
    | _ => none
  else some addr.toNat

/-- R281: a decrement that could not be performed: the fault summary, and every JCWAIT armed on the counter poisoned, found by
its place, where the counter of a pre-empted gang stands in its image, and where its page is not present by its address. It counts
as a killing fault each time, also of a warp that is counted as killed already, and TADDR is the PC of the ended lane (log entry
104). -/
def State.jcFailure (s : State) (w : Who) (pc : W64) (lane cause space : Nat) (addr : W64) : State :=
  let s1 := s.noteKill w.launch cause pc lane w.loc addr
  let pa := s1.counterPa w space addr
  let hit := s1.ops.filter fun o => match o.cmd, o.stage with
    | .jcwait sp b, .armed a _ =>
      match pa with
      | some p => (space == 0 || o.launch == w.launch) && a == s1.performedAt o.who p
      | none => sp == space && b == addr
    | _, _ => false
  { s1 with ops := s1.ops.map fun o => if hit.any (fun h => h.id == o.id) then { o with stage := .finished (.fail cause 0x52 0 addr 0) } else o }

/-! Performance counters (17_system.md R363). -/

/-- Add to the counters of a launch's bank that select an event. -/
def Bank.count (b : Bank) (r : Rec) (event n : Nat) : Bank :=
  { b with counters := (List.range 8).map fun i =>
      let x := nth b.counters i 0
      if nth r.events i 0 == event then x + BitVec.ofNat 64 n else x }

/-- Count an event where a context runs. -/
def State.countAt (s : State) (launch : Nat) (loc : Loc) (event n : Nat) : State :=
  match s.launch? launch with
  | none => s
  | some l =>
    if !l.record.cs || n == 0 then s
    else
      let g : List Bank → List Bank := fun bs => updWhere bs (fun b => b.launch == some launch) fun b => b.count l.record event n
      if loc.core == 24 then
        let k := s.cluster (clusterKey loc)
        s.setCluster (clusterKey loc) { k with seqBanks := g k.seqBanks }
      else
        let k := s.core loc
        s.setCore loc { k with banks := g k.banks }

/-- Add an entry to a core's side log, and count it (Table 17.5, event 0x07). -/
def State.addLog (s : State) (l : Loc) (e : LogEntry) : State :=
  ({ s.setCore l { s.core l with log := (s.core l).log ++ [e] } with nextId := s.nextId + 1 } : State).countAt e.launch l 7 1

/-- R281: subtract 1 from the join counter of a warp's lane, checked as an atomic is (R206); a page not present sends it to the
side log. -/
def State.jcDecrement (s : State) (w : Who) (pc : W64) (space : Nat) (a : Acc) : State :=
  match s.tryAccess w space 8 (BitVec.ofNat 64 a.addr) .rmw true with
  | (s1, .ok pa) =>
    if s1.badRead pa 8 then (s1.countUnc pa).jcFailure w pc a.lane 0x0B space (BitVec.ofNat 64 a.addr)
    else s1.wrN pa 8 ((s1.readN pa 8 + 2 ^ 64 - 1) % 2 ^ 64)
  | (s1, .absent) =>
    let s2 := s1.postNotice w a.addr 2
    s2.addLog w.loc { seq := s2.nextId, ctx := w.ctx, launch := w.launch, block := w.block, pc := pc, code := 0x0B, act := .jcDec space [a] }
  | (s1, .fail c) => s1.jcFailure w pc a.lane c space (BitVec.ofNat 64 a.addr)

/-- R281: the decrements of an ended or killed child warp, in increasing lane order. -/
def State.jcDecrements (s : State) (c : Ctx) : State :=
  c.allLanes.foldl (fun s l =>
    let x := c.lane l
    if x.jc == 0 then s
    else s.jcDecrement (whoOf c) x.pc (if x.jcMap then 3 else 0) { lane := l, addr := x.jc, x := (0, 0), y := 0 }) s

/-- Whether a side-log entry is a join counter's decrement, which a kill does not discard (R281). -/
def Act.isDecrement (a : Act) : Bool := match a with | .jcDec _ _ => true | _ => false

/-- Discard the entries of SPAWNs whose additions are not performed (R274): those on chip leave the queue, those spilled are
passed over when they come back. -/
def State.voidSpawns (s : State) (launch ck : Nat) (acts : List Act) : State :=
  let rs := acts.flatMap fun a => match a with | .spawn _ rs _ _ => rs | _ => []
  if rs.isEmpty then s
  else
    let hit := fun (e : Spawned) => e.launch == launch
      && rs.any fun r => if r.onChip then e.spill.isNone && r.id == e.id else e.spill == some r.id
    let k := s.cluster ck
    let back := k.spawnQ.filterMap fun e => if hit e then e.spill else none
    let out := (rs.filter fun r => !r.onChip && !back.contains r.id).map fun r => (ck, r.id)
    (s.setCluster ck { k with spawnQ := k.spawnQ.filter fun e => !hit e }).updLaunch launch fun l => { l with voided := (l.voided ++ out).eraseDups }

/-- The effects of a context that a commit or the side log still holds. -/
def State.undone (s : State) (c : Ctx) : List Act :=
  (c.commitQ.map fun e => e.act) ++ s.cores.flatMap fun p => (p.2.log.filter fun e => e.ctx == c.id).map fun e => e.act

/-- End a context at once: every lane exited, no effect left, its open run discarded, its side-log entries too (R157) with
the entries of a SPAWN there (R274), and its grammar hold (12_grammar.md R257). -/
def State.endCtx (s : State) (id : Nat) : State :=
  let s0 := match s.ctx? id with | some c => s.voidSpawns c.launch (clusterKey c.loc) (s.undone c) | none => s
  let s1 := s0.updCtx id fun c =>
    { c with ended := true, commitQ := [], lanes := c.lanes.map fun x => { x with st := .exited, halted := false, deferred := none } }
  { s1 with
    cores := s1.cores.map fun (p : Nat × Core) => (p.1, { p.2 with log := p.2.log.filter fun e => e.ctx != id || e.act.isDecrement })
    clusters := s1.clusters.map fun (p : Nat × Cluster) => (p.1, if p.2.hold.any (fun h => h.ctx == id) then { p.2 with hold := none } else p.2)
    run := match s1.run with
      | some r => if r.ctx == id then none else some r
      | none => none }

/-- Whether a command of a killed context is dropped: a grammar or fabric command not yet started or sent
(R265, R336; an RCPY, an RSTM or a collective held at its first read has sent nothing), or an element access not yet
performed. -/
def Op.droppable (o : Op) : Bool :=
  match o.cmd, o.stage with
  | .grammar _, .waiting => true
  | .fabric (.coll _ _ data), .held _ _ _ _ _ => data.isEmpty
  | .fabric _, .waiting | .fabric _, .held _ _ _ _ _ => true
  | .access _ _ _ _, .waiting | .access _ _ _ _, .held _ _ _ _ _ => true
  | _, _ => false

/-- Drop commands: they make no access and end poisoned without a record, for the commands and arrivals that wait for them
(log entry 79). -/
def State.dropOps (s : State) (p : Op → Bool) : State :=
  { s with ops := updWhere s.ops (fun o => p o && o.droppable) fun o => { o with stage := .finished (.skipped 0xFFFF) } }

/-- Change what a block's producer slot leaves. -/
def State.setStat (s : State) (bid : Nat) (g : SlotStat → SlotStat) : State := s.updBlock bid fun b => { b with stat := g b.stat }

/-- What the producer slot of a context's block leaves; a sequencer context's block has none. -/
def State.stat (s : State) (c : Ctx) : SlotStat := ((s.block? c.block).map fun b => b.stat).getD SlotStat.reset

/-- Kill a block without handler entry (R353): its warps end, its side-log entries and successor are discarded, a
child's join counters are decremented, and the fault enters the launch's summary. A report of R218 on its way finds it killed. -/
def State.killBlock (s : State) (bid cause : Nat) (taddr : W64) (lane : Nat) (faddr : W64) : State :=
  match s.block? bid with
  | none => s
  | some b =>
    if b.killed then s
    else
      let s1 := s.noteKill b.launch cause taddr lane b.loc faddr
      let ws := s1.ctxs.filter fun c => c.block == bid && c.kind != .seq && !c.ended
      let s2 := ws.foldl (fun s c => s.endCtx c.id) s1
      let s3 := (s2.updBlock bid fun b => { b with
        killed := true, succSlot := none, stat := if b.slotCtx.isSome then { b.stat with killed := true } else b.stat }).dropOps
        fun o => ws.any fun c => c.id == o.ctx
      let s4 : State := { s3 with redFails := s3.redFails.filter fun r => r.block != bid }
      if b.child then ws.foldl (fun s c => s.jcDecrements c) s4
      else s4.updGang b.gang fun g => { g with lost := b.loc.core :: g.lost }

/-- Kill the producer slot alone (R306). -/
def State.killSlot (s : State) (c : Ctx) (cause : Nat) (taddr : W64) (lane : Nat) (faddr : W64) : State :=
  ((s.noteKill c.launch cause taddr lane c.loc faddr).endCtx c.id).setStat c.block fun x => { x with killed := true }

/-- Whether every lane of a warp has exited, or is about to where its EXIT waits in a commit (R156). -/
def Ctx.ending (c : Ctx) : Bool :=
  c.allLanes.all fun l => (c.lane l).st == .exited || c.commitQ.any fun e => match e.act with | .exit ls => ls.contains l | _ => false

/-- Kill every block of a launch and discard what it has in flight (R391); each block that had not ended counts as
killed (R390, Table 18.3), and child warps have their join counters decremented (R281). With `spare`, as a cancel does, a
block that is ending proceeds (R393), without a successor, and one with a commit held, or such a sequencer context, is killed once
that is complete (`State.killRest`), its next run boundary (R36, R365). -/
def State.killLaunch (s : State) (lid : Nat) (status : Nat) (spare : Bool) : State :=
  let rank (x : Nat) : Nat := match x with | 2 => 5 | 5 => 4 | 3 => 3 | 4 => 2 | 1 => 1 | _ => 0
  let spared := fun (b : Block) => spare && b.saved.isNone
    && s.ctxs.all fun c => c.block != b.id || c.kind == .seq || c.ended || (!c.saved && c.ending)
  let inside := fun (c : Ctx) => spare && !c.ended && !c.commitQ.isEmpty
  let doomed := s.blocks.filter fun b => b.launch == lid && !b.killed && !spared b
    && !s.ctxs.any fun c => c.block == b.id && c.kind != .seq && inside c
  let gone := s.ctxs.filter fun c => c.launch == lid && !c.ended
    && (if c.kind == .seq then !inside c else doomed.any fun b => b.id == c.block)
  let live := (doomed.filter fun b => s.ctxs.any fun c => c.block == b.id && !c.ended).length
  let s1 := s.updLaunch lid fun l => { l with
    status := if rank l.status < rank status then status else l.status, dying := true, relaunchQ := []
    kills := l.kills + live, killed := l.killed || decide (0 < live) }
  let s2 : State := gone.foldl (fun s c => s.endCtx c.id) s1
  let s3 : State := { s2 with
    blocks := updWhere s2.blocks (fun b => b.launch == lid) fun b =>
      { b with killed := b.killed || doomed.any (fun x => x.id == b.id), succSlot := none, saved := none }
    gangs := updWhere s2.gangs (fun g => g.launch == lid) fun g => { g with saved := false }
    clusters := s2.clusters.map fun (p : Nat × Cluster) => (p.1, { p.2 with
      spawnQ := p.2.spawnQ.filter fun e => e.launch != lid
      formed := p.2.formed.filter fun e => e.launch != lid })
    redFails := s2.redFails.filter fun r => !doomed.any fun b => b.id == r.block }
  let s4 := (s3.dropOps fun o => gone.any fun c => c.id == o.ctx).updLaunch lid fun l => { l with spillHead := l.spillTail }
  gone.foldl (fun s c => s.jcDecrements c) s4

/-- Kill what a cancel has left of the launches until their next run boundary (R393). -/
def State.killRest (s : State) : State :=
  s.launches.foldl (fun s l =>
    if l.dying && s.ctxs.any (fun c => c.launch == l.id && !c.ended && c.commitQ.isEmpty && (c.kind == .seq || !c.ending)) then
      s.killLaunch l.id l.status true
    else s) s

/-- What an uncorrectable error that killed a block does to its launch (R161): an idempotent kernel's block is relaunched once;
else the launch ends with the uncorrectable-memory status. A child warp of an idempotent kernel is killed alone. -/
def State.afterUnc (s : State) (launch gang index : Nat) (relaunched child : Bool) : State :=
  match s.launch? launch with
  | none => s
  | some l =>
    if l.record.idemp && child then s
    else if !l.record.idemp || relaunched then s.killLaunch launch 4 false
    else s.updLaunch launch fun l => { l with relaunch := true, relaunchQ := l.relaunchQ ++ [(gang, index)] }

/-- R160, R161, R218: kill a block for an uncorrectable error. -/
def State.killUnc (s : State) (bid : Nat) (taddr : W64) (lane : Nat) (faddr : W64) : State :=
  match s.block? bid with
  | none => s
  | some b =>
    if b.killed then s
    else (s.killBlock bid 0x0B taddr lane faddr).afterUnc b.launch b.gang b.index b.relaunched b.child

/-- Kill a sequencer context with every block of its gang (R353). -/
def State.killGang (s : State) (c : Ctx) (cause : Nat) (taddr : W64) (lane : Nat) (faddr : W64) : State :=
  let bs := s.blocks.filter fun b => b.gang == c.gang && !b.child && !b.killed
  let s1 := if bs.isEmpty then s.noteKill c.launch cause taddr lane c.loc faddr else s
  let s2 := (bs.foldl (fun s b => s.killBlock b.id cause taddr lane faddr) s1).endCtx c.id
  { s2 with redFails := s2.redFails.filter fun r => r.ctx != c.id }

/-- What a trap carries to its entry (Table 17.3, R351). -/
structure TrapInfo where
  cause : Nat
  detail : Nat
  psn : Bool
  token : Nat
  lanes : List Nat
  fault : List Nat
  taddr : W64
  tepc : W64
  tval : W64
  trec : Nat
deriving DecidableEq, Repr

/-- TCAUSE at trap entry, INH set. -/
def TrapInfo.tcause (t : TrapInfo) : W64 :=
  BitVec.ofNat 64 (t.cause + 2 ^ 8 * t.detail + 2 ^ 16 * t.token + 2 ^ 30 * bitOf t.psn + 2 ^ 31)

/-- The system registers a trap entry writes (R351). -/
def SysRegs.trapped (r : SysRegs) (t : TrapInfo) : SysRegs :=
  { r with
    tcause := t.tcause, tlanes := maskOf t.lanes, tfault := maskOf t.fault, taddr := t.taddr
    tepc := t.tepc, tval := t.tval, trec := BitVec.ofNat 64 t.trec }

/-- A context at its handler (R351): trap registers written, trapping lanes runnable at the handler entry; where one of them
was stepped they all halt there (R370). -/
def Ctx.enterHandler (c : Ctx) (t : TrapInfo) (pc : W64) : Ctx :=
  let c1 := { c with sr := c.sr.trapped t }
  let stop := t.lanes.any fun l => (c.lane l).stepping
  c1.updLanes t.lanes fun _ x => { x with pc := pc, fell := true, st := .runnable, halted := stop, stepping := false }

/-- Taking an exception: the open run is discarded; a warp with a handler enters it (R351); a second trap and a trap
without a handler kill the block, but in a producer slot without a handler the slot alone (R353, R306); a trap of a
sequencer context kills every block of its gang. -/
def State.takeTrap (s : State) (cid : Nat) (t : TrapInfo) : State :=
  let s0 := { s with run := none }
  match s0.ctx? cid with
  | none => s0
  | some c =>
    let l0 := t.fault.headD (t.lanes.headD 0)
    if c.kind == .seq then s0.killGang c t.cause t.taddr l0 t.tval
    else if c.inh || c.sr.tentry == 0 then
      if c.kind == .slot && !c.inh then s0.killSlot c t.cause t.taddr l0 t.tval
      else s0.killBlock c.block t.cause t.taddr l0 t.tval
    else
      let s1 := s0.updCtx cid fun c => c.enterHandler t (s0.pastPads c.loc c.sr.tentry)
      if c.kind == .slot then s1.setStat c.block fun x => { x with pscause := t.tcause, psaddr := t.taddr, pslanes := maskOf t.lanes }
      else s1

/-- Whether a context's run made of `lanes` may execute ERET (R360). -/
def Ctx.eretLegal (c : Ctx) (lanes : List Nat) : Bool :=
  c.inh && maskOf lanes == maskOf ((lanesOf c.width c.sr.tlanes).filter fun l => (c.lane l).st != .exited)

/-- Returning from the handler (R360): TLANES lanes at an address, which is TEPC's, suspension cleared. -/
def Ctx.eret (c : Ctx) (pc : W64) : Ctx :=
  let ls := (lanesOf c.width c.sr.tlanes).filter fun l => (c.lane l).st != .exited
  let c1 := c.updLanes ls fun _ x => { x with pc := pc, fell := true, met := x.met.filter fun m => m.1 == c.sr.tepc, st := .runnable }
  { c1 with sr := { c1.sr with tcause := c1.sr.tcause &&& ~~~(0x80000000 : W64) } }

/-- Lanes parked on mask n. -/
def Ctx.parkedOn (c : Ctx) (n : Fin 8) : List Nat := c.allLanes.filter fun l => (c.lane l).st == .parked n

/-- Whether mask n releases (R70): some lane is parked on it and every enrolled lane is; a debug-halted lane blocks
it (R370). -/
def Ctx.releases (c : Ctx) (n : Fin 8) : Bool :=
  !(c.parkedOn n).isEmpty && (lanesOf c.width (c.rdM n)).all fun l => (c.lane l).st == .parked n && !(c.lane l).halted

/-- The masks m0 to m7. -/
def masks : List (Fin 8) := [0, 1, 2, 3, 4, 5, 6, 7]

/-- Release every complete mask (R70, MASK_RELEASE). -/
def Ctx.release (c : Ctx) : Ctx :=
  (masks.filter c.releases).foldl (fun c' n =>
    (c'.updLanes (c.parkedOn n) fun _ x => { x with st := .runnable }).wrM n 0) c

/-- R71: at least one lane parked, none runnable, none waiting, no mask would release. -/
def Ctx.meetingDeadlock (c : Ctx) : Bool :=
  let live := c.allLanes.filter fun l => (c.lane l).st != .exited
  live.any (fun l => match (c.lane l).st with | .parked _ => true | _ => false)
    && live.all (fun l => (match (c.lane l).st with | .parked _ => true | _ => false) && !(c.lane l).halted)
    && !(masks.any c.releases)

/-- The lane warps of a block (the producer slot's BSYNC completes at once, R202). -/
def State.warpsOf (s : State) (bid : Nat) : List Ctx :=
  s.ctxs.filter fun c => c.block == bid && c.kind == .lane && !c.ended

/-- The barrier a lane of a warp waits on, counting a BSYNC held behind its commit's earlier effects (R202). -/
def Ctx.bsyncOf (c : Ctx) (l : Nat) : Option (Fin 4) :=
  match (c.lane l).st with
  | .waiting (.bsync id) => if (c.lane l).halted then none else some id
  | _ =>
    c.commitQ.findSome? fun e => match e.act with
      | .wait (.bsync id) ls => if ls.contains l then some id else none
      | _ => none

/-- Whether a lane's BSYNC has committed. -/
def Ctx.bsyncDone (c : Ctx) (l : Nat) (id : Fin 4) : Bool :=
  (c.lane l).st == .waiting (.bsync id) && !(c.lane l).halted

/-- Whether barrier id of a block completes (R202): every lane not exited waits there. -/
def barrierComplete (ws : List Ctx) (id : Fin 4) : Bool :=
  ws.all (fun c => c.allLanes.all fun l => (c.lane l).st == .exited || c.bsyncDone l id)
    && ws.any (fun c => c.allLanes.any fun l => c.bsyncDone l id)

/-- Complete the block barriers that every lane has reached (R202, BSYNC_RELEASE). -/
def State.barrierRelease (s : State) (bid : Nat) : State :=
  let ws := s.warpsOf bid
  match [(0 : Fin 4), 1, 2, 3].find? (barrierComplete ws) with
  | none => s
  | some id =>
    ws.foldl (fun s c => s.updCtx c.id fun c =>
      c.updLanes (c.allLanes.filter fun l => c.bsyncDone l id) fun _ x => { x with st := .runnable }) s

/-- R202: every lane not exited of the block's warps waits on some barrier and none can complete. -/
def barrierDeadlock (ws : List Ctx) : Bool :=
  let live := ws.flatMap fun c => (c.allLanes.filter fun l => (c.lane l).st != .exited).map fun l => c.bsyncOf l
  !live.isEmpty && live.all Option.isSome
    && !([(0 : Fin 4), 1, 2, 3].any fun id => live.all fun x => x == some id)

end Sys2Proof.Machine
end

