-- ==== Sys2Proof/Machine/Access.lean ====
section
/-! DEFINITION. Element accesses: the checks in the order of R141, uncorrectable data (R159, R160), loads, stores,
read-modify-writes (10_atomics.md R206 to R214), XLAT (R154), and the accesses of a token-producing thread
instruction with what is held on absent pages (R155). -/

namespace Sys2Proof.Machine

/-- R160: an uncorrectable error found in a core's arrays kills the block that owns the word; in a residency region
with no block the key's regions are discarded. `pc` is the reading instruction; FADDR is the word's map address (log entry 108). -/
def State.ownerHit (s : State) (pa : Nat) (pc : W64) (lane : Nat) : State :=
  match s.place pa with
  | .map d cl u off .scratch =>
    let l : Loc := ⟨d, cl, u⟩
    match s.blocks.find? fun b => b.loc == l && !b.killed && b.saved.isNone && decide (b.base ≤ off) && decide (off < b.base + b.size) with
    | some b => s.killUnc b.id pc lane (BitVec.ofNat 64 pa)
    | none =>
      match (s.core l).regions.find? fun r => decide (r.base ≤ off) && decide (off < r.base + r.size) with
      | some r =>
        { s with
          lostKeys := r.key :: s.lostKeys.filter (fun k => k != r.key)
          cores := s.cores.map fun (p : Nat × Core) => (p.1, { p.2 with regions := p.2.regions.filter fun x => x.key != r.key }) }
      | none => s
  | .map d cl u _ .tile | .map d cl u _ .scale | .map d cl u _ .acc =>
    match (s.core ⟨d, cl, u⟩).holder with
    | some b => s.killUnc b pc lane (BitVec.ofNat 64 pa)
    | none => s
  | _ => s

/-- An uncorrectable error met at an address: counted, and the owner killed. -/
def State.uncHit (s : State) (pa : Nat) (pc : W64) (lane : Nat) : State := (s.countUnc pa).ownerHit pa pc lane

/-- Read an n-byte element; none if it is uncorrectable. -/
def State.readElem (s : State) (pa n : Nat) (pc : W64) (lane : Nat) : State × Option Nat :=
  if s.badRead pa n then (s.uncHit pa pc lane, none) else (s, some (s.readN pa n))

/-- Element bytes of a read-modify-write. -/
def Rmw.bytes (r : Rmw) : Nat :=
  match r with
  | .int _ ty | .cas ty => tyBits ty / 8
  | .flt _ _ => 4

/-- The new value of a read-modify-write; none where nothing is written (a failing CAS). -/
def Rmw.new (r : Rmw) (old x y : W64) : Option W64 :=
  match r with
  | .int op ty => some (redOp op ty old x)
  | .cas ty => if lowN (tyBits ty) old == lowN (tyBits ty) x then some (lowN (tyBits ty) y) else none
  | .flt op ty =>
    let g : Nat → Nat → Nat → Nat → Nat :=
      if op == 0 then fun ct a b c => farith 0 0 ct a b c
      else fun ct a b _ => fminmax (op == 2 || op == 4) (3 ≤ op) ct a b
    some (BitVec.ofNat 64 (lanewise ty g (old.toNat % 2 ^ 32) (x.toNat % 2 ^ 32) 0))

/-- Perform one read-modify-write at its home (R211 to R214): the old value, or none if it is uncorrectable. -/
def State.rmwAt (s : State) (r : Rmw) (pa : Nat) (x y : W64) (pc : W64) (lane : Nat) : State × Option W64 :=
  match s.readElem pa r.bytes pc lane with
  | (s1, none) => (s1, none)
  | (s1, some o) =>
    let old := BitVec.ofNat 64 o
    match r.new old x y with
    | some v => (s1.wrN pa r.bytes v.toNat, some old)
    | none => (s1, some old)

/-- LARGE, X, W and R of an XLAT result (R154). -/
def leafBits (e : W64) (large : Bool) : W64 := BitVec.ofNat 64 (2 ^ 59 * bitOf large + 2 ^ 56 * bits e 4 2)

/-- The 64-bit result of XLAT (R154): no heat, no fill, no notice; none for an uncorrectable table entry. A leaf that denies
reading, names an address that holds nothing (R425) or is a malformed large one (R148) answers STATUS 2 with its own LARGE, X, W
and R; without a leaf they are zero (log entry 94). -/
def State.xlat (s : State) (w : Who) (addr : W64) : State × Option W64 :=
  let bad : W64 := BitVec.ofNat 64 (2 * 2 ^ 60)
  let va := addr.toNat
  if va / 2 ^ 56 != 0 || !(s.reg w.die 0x100000).getLsbD 0 then (s, some bad)
  else
    match (s.tlbHit w.die w.units va).getD (s.walk w.die va) with
    | .absent => (s, some (BitVec.ofNat 64 (2 ^ 60)))
    | .bad none => (s, some bad)
    | .bad (some e) => (s, some (bad + leafBits e true))
    | .error pa => (s.countUnc pa, none)
    | .leaf _ e large =>
      let pa := leafPa e large va
      let ok := leafPermits e .read && s.place pa != .nothing
      (s, some ((if ok then BitVec.ofNat 64 pa else bad) + leafBits e large))

/-- One word list of a result for a destination: 32-bit words for v, 64-bit words for s. -/
def Dst.split (d : Dst) (lane : Nat) (x : Nat) : List (Nat × Nat × W64) :=
  match d with
  | .none => []
  | .v _ n => (List.range n).map fun i => (lane, i, BitVec.ofNat 64 (x / 2 ^ (32 * i) % 2 ^ 32))
  | .s _ n => (List.range n).map fun i => (lane, i, BitVec.ofNat 64 (x / 2 ^ (64 * i)))

/-- The value of a loaded element (R137, R138). -/
def loadValue (signed : Bool) (esz x : Nat) : Nat :=
  if signed && x.testBit (8 * esz - 1) then x + 2 ^ 64 - 2 ^ (8 * esz) else x

/-- What performing an operation's lanes has gathered: results, the first failing lane (lane, cause, address), the
lanes held on absent pages. -/
structure Gather where
  s : State
  got : List (Nat × Nat × W64)
  bad : Option (Nat × Nat × Nat × W64)
  todo : List Acc

/-- Note a failing lane; the lowest-numbered lane is kept (R141). -/
def Gather.fail (g : Gather) (lane cause detail : Nat) (addr : W64) : Gather :=
  { g with bad := match g.bad with
      | some b => if lane < b.1 then some (lane, cause, detail, addr) else some b
      | none => some (lane, cause, detail, addr) }

/-- Whether an access kind writes: its access type. -/
def AccKind.type (k : AccKind) : AccessType := match k with | .rmw _ => .rmw | _ => .read

/-- Bytes of a stream read singly (R308), their addresses exact: the number they form, or the cause of the first failing one, or the address
of one whose page is absent. -/
def State.readSingly (s : State) (w : Who) (space : Nat) (pc : W64) (lane addr n acc sh : Nat) : State × Except (AccOut × Nat) Nat :=
  match n with
  | 0 => (s, .ok acc)
  | k + 1 =>
    if 2 ^ 64 ≤ addr then (s, .error (.fail 5, addr))
    else match s.tryAccess w space 1 (BitVec.ofNat 64 addr) .read false with
    | (s1, .ok pa) =>
      match s1.readElem pa 1 pc lane with
      | (s2, some x) => s2.readSingly w space pc lane (addr + 1) k (acc + x * 2 ^ sh) (sh + 8)
      | (s2, none) => (s2, .error (.fail 0x0B, addr))
    | (s1, o) => (s1, .error (o, addr))

/-- One lane of SRD (R308); its bit offset within the first byte is in y. A lane whose byte is absent keeps that
byte's address in x. DETAIL is that of Table 14.6. -/
def Gather.stream (g : Gather) (w : Who) (space : Nat) (pc : W64) (d : Dst) (a : Acc) : Gather :=
  let b := a.y.toNat
  match g.s.readSingly w space pc a.lane a.addr ((b + 31) / 8 + 1) 0 0 with
  | (s1, .ok x) => { g with s := s1, got := g.got ++ d.split a.lane (x / 2 ^ b % 2 ^ 32) }
  | (s1, .error (.fail c, at')) =>
    Gather.fail { g with s := s1 } a.lane c (if c == 0x0B then 6 else 5) (BitVec.ofNat 64 at')
  | (s1, .error (_, at')) => { g with s := s1.postNotice w at' 1, todo := g.todo ++ [{ a with x := (BitVec.ofNat 64 at', 0) }] }

/-- The page a lane waits for. -/
def Acc.page (k : AccKind) (a : Acc) : Nat := (match k with | .srd => a.x.1.toNat | _ => a.addr) / 2 ^ 16

/-- Change what the passed accesses keep. -/
def State.updOvertaken (s : State) (g : Op → Overtaken → Overtaken) : State :=
  if s.ops.all fun o => o.overtaken.isNone then s
  else { s with ops := s.ops.map fun o => { o with overtaken := o.overtaken.map (g o) } }

/-- A context has written bytes: its passed accesses, which stand before that write in S, keep what they have read there. -/
def State.noteWrite (s : State) (ctx pa n : Nat) : State :=
  s.updOvertaken fun o p => if o.ctx == ctx then { p with wrote := (pa, n) :: p.wrote } else p

/-- Perform one lane of a token-producing access (R137, R138, R211 to R214, R154, R308). -/
def Gather.lane (g : Gather) (w : Who) (k : AccKind) (space esz : Nat) (pc : W64) (d : Dst) (a : Acc) : Gather :=
  let addr := BitVec.ofNat 64 a.addr
  match k with
  | .xlat =>
    match g.s.xlat w addr with
    | (s1, some x) => { g with s := s1, got := g.got ++ d.split a.lane x.toNat }
    | (s1, none) => Gather.fail { g with s := s1 } a.lane 0x0B 0 addr
  | .srd => g.stream w space pc d a
  | _ =>
    match g.s.tryAccess w space esz addr k.type (k.type == .rmw) with
    | (s1, .fail c) => Gather.fail { g with s := s1 } a.lane c 0 addr
    | (s1, .absent) => { g with s := s1.postNotice w a.addr k.type.notice, todo := g.todo ++ [a] }
    | (s1, .ok pa) =>
      match k with
      | .rmw r =>
        match s1.rmwAt r pa a.x.1 a.y pc a.lane with
        | (s2, some old) =>
          let v := match r with
            | .int _ 1 | .cas 1 => loadValue true 4 old.toNat
            | _ => old.toNat
          { g with s := s2.noteWrite w.ctx pa r.bytes, got := g.got ++ d.split a.lane v }
        | (s2, none) => Gather.fail { g with s := s2 } a.lane 0x0B 0 addr
      | .load sg =>
        match s1.readElem pa esz pc a.lane with
        | (s2, some x) => { g with s := s2, got := g.got ++ d.split a.lane (loadValue sg esz x) }
        | (s2, none) => Gather.fail { g with s := s2 } a.lane 0x0B 0 addr
      | _ =>
        match s1.readElem pa esz pc a.lane with
        | (s2, some x) => { g with s := s2, got := g.got ++ d.split a.lane x }
        | (s2, none) => Gather.fail { g with s := s2 } a.lane 0x0B 0 addr

/-- Perform the lanes of an operation in increasing order; what remains is the operation's stage (R137, R155). A
killed block's operation is dropped (R353). `keep` are lanes that wait for other pages. -/
def State.performLanes (s : State) (o : Op) (w : Who) (k : AccKind) (space esz : Nat)
    (todo : List Acc) (got : List (Nat × Nat × W64)) (bad : Option (Nat × Nat × Nat × W64)) (keep : List Acc := []) : State :=
  let g := todo.foldl (fun g a => Gather.lane g w k space esz o.pc o.dst a) { s := s, got := got, bad := bad, todo := [] }
  match g.todo ++ keep with
  | a :: _ => g.s.updOp o.id fun o => { o with stage := .held (g.todo ++ keep) g.got g.bad (a.page k) k.type.notice }
  | [] =>
    g.s.updOp o.id fun o => { o with stage := .finished (match g.bad with
      | some (l, c, d, x) => .fail c d l x 0
      | none => .ok g.got) }

/-! Accesses that later ones of their context have passed (log entry 85). -/

/-- What the elements of a load hold now, lane by lane, where they can be read. -/
def State.capture (s : State) (o : Op) : List (Nat × Nat × W64) :=
  match o.cmd with
  | .access (.rmw _) _ _ _ => []
  | .access k sp esz accs => accs.flatMap fun a =>
      let g := Gather.lane { s := s, got := [], bad := none, todo := [] } o.who k sp esz o.pc o.dst a
      if g.bad.isNone && g.todo.isEmpty then g.got else []
  | _ => []

/-- What an access keeps when it is passed: a load its values, at its place in S; an atomic nothing, since it is performed where its
preconditions resolve (R29). -/
def State.overtake (s : State) (o : Op) : Overtaken :=
  { got := s.capture o
    relaxed := o.pre.filterMap fun p => match p.2 with
      | .on id => (s.op? id).bind fun x => match x.cmd, x.stage with | .pbwait _ _ _ _, .armed _ _ => some id | _, _ => none
      | _ => none
    edge := match o.cmd with | .access (.rmw _) _ _ _ | .jcwait _ _ => true | _ => false
    wrote := [] }

/-- Whether a lane of a passed access keeps its value: nothing orders the access behind what its preconditions brought, or its own
context has written the element since (R165). -/
def State.keepsOvertaken (s : State) (w : Who) (space esz : Nat) (p : Overtaken) (a : Acc) : Bool :=
  (p.got.any fun g => g.1 == a.lane)
    && (!p.edge || match (s.tryAccess w space 1 (BitVec.ofNat 64 a.addr) .read false).2 with
      | .ok pa => p.wrote.any fun x => decide (x.1 < pa + esz) && decide (pa < x.1 + x.2)
      | _ => false)

/-- Perform an access whose preconditions are done: as it stands now, or, where later accesses have passed it, from what it keeps,
and the lanes that keep nothing now. -/
def State.performAccess (s : State) (o : Op) (k : AccKind) (space esz : Nat) (accs : List Acc) : State :=
  match o.overtaken with
  | none => s.performLanes o o.who k space esz accs [] none
  | some p =>
    let keep := s.keepsOvertaken o.who space esz p
    s.performLanes o o.who k space esz (accs.filter fun a => !keep a)
      (p.got.filter fun g => accs.any fun a => a.lane == g.1 && keep a) none

/-- Whether the completion of an operation brings a passed access that names it as a precondition an edge of the happens-before
relation (R170): not a phase that only relaxed arrivals completed (R175), and a passed load only where one has come to itself. -/
def Overtaken.brings (p : Overtaken) (x : Op) : Bool :=
  !p.relaxed.contains x.id && (match x.overtaken with | some q => q.edge | none => true)

/-- Whether an operation is an access with a place in S (08_ordering.md R165): a load, an atomic, and JCWAIT's read, which is a
monitor read (13_spawn.md R284). -/
def Op.placed (o : Op) : Bool :=
  match o.cmd with
  | .access .xlat _ _ _ => false
  | .access _ _ _ _ | .jcwait _ _ => true
  | _ => false

/-- Whether an operation is held on a page. -/
def Op.onPage (o : Op) : Bool := match o.stage with | .held _ _ _ _ _ => true | _ => false

/-- Whether a context has a load, monitor read or read-modify-write held on an absent page (R156). -/
def State.holdsAccess (s : State) (c : Ctx) : Bool :=
  s.ops.any (fun o => o.ctx == c.id && o.placed && o.onPage)
    || c.lanes.any fun l => match l.st with | .waiting (.monwait _ _ _ _ _ _ h _) => h | _ => false

/-- Insert a side-log entry by its order. -/
def insertLog (e : Loc × LogEntry) (es : List (Loc × LogEntry)) : List (Loc × LogEntry) :=
  match es with
  | [] => [e]
  | x :: r => if e.2.seq < x.2.seq then e :: x :: r else x :: insertLog e r

/-- The side-log entries of a context (R155) with their cores, in log order: those of an evicted child warp stay on the core
that it left (13_spawn.md R286). -/
def State.logOf (s : State) (c : Ctx) : List (Loc × LogEntry) :=
  (s.cores.flatMap fun p => (p.2.log.filter fun e => e.ctx == c.id).map fun e => (⟨p.1 / 200, p.1 % 200 / 25, p.1 % 25⟩, e)).foldl
    (fun es e => insertLog e es) []

/-- Whether the context's later stores enter the side log and its other effects wait (R156). -/
def State.behindLog (s : State) (c : Ctx) : Bool :=
  s.cores.any (fun p => p.2.log.any fun e => e.ctx == c.id) || s.holdsAccess c

/-- Whether a block has ended, but for what its engines and its side log still hold. -/
def State.blockEnded (s : State) (b : Block) : Bool :=
  b.succSlot.isNone && s.ctxs.all fun c => c.block != b.id || c.kind == .seq || c.ended

/-- R427: a check failed when a delayed effect without a token was performed: its block, or child warp, is killed;
if the block has ended, the fault summary alone (log entry 86). A sequencer context's gang is killed (R353). -/
def State.lateFail (s : State) (w : Who) (pc : W64) (lane cause : Nat) (addr : W64) : State :=
  let note := s.noteFault w.launch cause pc lane w.loc addr
  if w.kind == .seq then
    match s.ctx? w.ctx with
    | some c => if c.ended then note else s.killGang c cause pc lane addr
    | none => note
  else
    match s.block? w.block with
    | some b => if s.blockEnded b then note else s.killBlock w.block cause pc lane addr
    | none => note

/-- R218: a reduction or JCADD met an uncorrectable granule: the home reports it to the issuing core, with its first failing
lane. -/
def State.reportUnc (s : State) (w : Who) (pc : W64) (lane : Nat) (addr : W64) : State :=
  let b := s.block? w.block
  let r : RedFail := { launch := w.launch, loc := w.loc, block := w.block, gang := w.gang, index := (b.map fun b => b.index).getD 0
                       relaunched := b.any fun b => b.relaunched, child := b.any fun b => b.child, ctx := w.ctx, pc := pc
                       addr := addr, lane := lane }
  let same := fun (x : RedFail) => x.ctx == w.ctx && x.pc == pc
  if s.redFails.any same then { s with redFails := updWhere s.redFails same fun x => if lane < x.lane then r else x }
  else { s with redFails := s.redFails ++ [r] }

/-- How one lane of a write ended: performed (or reported), its page absent, or failed so that nothing follows. -/
inductive LaneOut where
  | done | absent | failed
deriving DecidableEq, Repr

/-- Perform one lane of a store or no-return reduction. Uncorrectable data that has killed the issuing block already (R160) is
reported by that kill (R218). -/
def State.writeLane (s : State) (w : Who) (op : Option Rmw) (space esz : Nat) (pc : W64) (a : Acc) : State × LaneOut :=
  let addr := BitVec.ofNat 64 a.addr
  let t : AccessType := if op.isSome then .rmw else .write
  match s.tryAccess w space esz addr t op.isSome with
  | (s1, .fail c) => (s1.lateFail w pc a.lane c addr, .failed)
  | (s1, .absent) => (s1, .absent)
  | (s1, .ok pa) =>
    match op with
    | none => ((s1.wr pa (leBytes (min esz 8) a.x.1.toNat ++ leBytes (esz - 8) a.x.2.toNat)).noteWrite w.ctx pa esz, .done)
    | some r =>
      match s1.rmwAt r pa a.x.1 a.y pc a.lane with
      | (s2, some _) => (s2.noteWrite w.ctx pa r.bytes, .done)
      | (s2, none) => (if (s2.block? w.block).any fun b => b.killed then s2 else s2.reportUnc w pc a.lane addr, .done)

/-- Perform the lanes of a store or reduction in increasing order; the lanes whose pages are absent. A lane whose checks
fail now kills its block, and no later lane is performed (R427). -/
def State.writeLanes (s : State) (w : Who) (op : Option Rmw) (space esz : Nat) (pc : W64) (accs : List Acc) : State × List Acc :=
  match accs with
  | [] => (s, [])
  | a :: r =>
    match s.writeLane w op space esz pc a with
    | (s1, .done) => s1.writeLanes w op space esz pc r
    | (s1, .failed) => (s1, [])
    | (s1, .absent) => let p := s1.writeLanes w op space esz pc r; (p.1, a :: p.2)

/-- Post the notices of lanes whose pages are absent (R155, KIND 2). -/
def State.noticeLanes (s : State) (w : Who) (accs : List Acc) : State :=
  accs.foldl (fun s a => s.postNotice w a.addr 2) s

/-- Add a side-log entry for a context. -/
def State.pushLog (s : State) (c : Ctx) (pc : W64) (code : Nat) (act : Act) : State :=
  s.addLog c.loc { seq := s.nextId, ctx := c.id, launch := c.launch, block := c.block, pc := pc, code := code, act := act }

/-- A context saved for pre-emption: its image is in the save area, its side-log entries with it (R157). -/
def Ctx.preempted (c : Ctx) : Bool := c.saved && (match c.image with | some (true, _) => false | _ => true)

/-- Whether a context is a warp that is evicted. -/
def Ctx.evicted (c : Ctx) : Bool := c.kind == .lane && c.saved && !c.ended && !c.preempted

/-- Whether a core's side log has room (256 entries, R155). -/
def State.logRoom (s : State) (l : Loc) : Bool :=
  decide (((s.core l).log.filter fun e => !((s.ctx? e.ctx).any Ctx.preempted)).length < 256)

/-- Whether an earlier load, atomic or JCWAIT of a context still waits, for its preconditions or for a page: it takes its place before
every later access of its context, its fences, arrivals and commands too (08_ordering.md R165, R167, R170), which wait for it
(log entry 19). -/
def State.gatedBefore (s : State) (ctx before : Nat) : Bool :=
  s.ops.any fun o => o.ctx == ctx && decide (o.id < before) && o.overtaken.isNone && o.placed && (o.stage == .waiting || o.onPage)

/-- Whether an effect of a context that is committed now stands behind a load or atomic that has yet to take its place; a held
one is the side log's matter (R156). -/
def State.behindGated (s : State) (c : Ctx) : Bool := s.gatedBefore c.id s.nextId && !s.holdsAccess c

/-- Commit of a store or reduction (R139, R213): performed now, or its absent lanes logged, or logged whole behind the
warp's log, whatever its lanes (R156). None while the log is full. -/
def State.commitWrite (s : State) (c : Ctx) (op : Option Rmw) (space esz : Nat) (pc : W64) (accs : List Acc)
    (code : Nat) (wrap : List Acc → Act) : Option State :=
  let w := whoOf c
  if s.behindLog c then (if s.logRoom c.loc then some (s.pushLog c pc code (wrap accs)) else none)
  else
    let (s1, rest) := s.writeLanes w op space esz pc accs
    if rest.isEmpty || (s1.ctx? c.id).all (fun c => c.ended) then some s1
    else if s.logRoom c.loc then some ((s1.noticeLanes w rest).pushLog c pc code (wrap rest)) else none

/-- The first lane whose checks fail before commit (R34), with its cause: the trap of a store or reduction. Lanes on
absent pages do not trap. -/
def State.preCheck (s : State) (w : Who) (t : AccessType) (atomic : Bool) (space esz : Nat) (accs : List Acc) : Option (Nat × List Acc) :=
  let res := accs.filterMap fun a =>
    match (s.tryAccess w space esz (BitVec.ofNat 64 a.addr) t atomic).2 with
    | .fail c => some (c, a)
    | _ => none
  match res with
  | [] => none
  | r :: _ => some (r.1, res.map fun x => x.2)

end Sys2Proof.Machine
end

