-- ==== Sys2Proof/Machine/Barrier.lean ====
section
/-! DEFINITION. Phase barriers (09_tokens_barriers.md R196 to R201): the object, arrivals, initialisation, waits, and
the arrivals that TKARR leaves for the completion of an operation. -/

namespace Sys2Proof.Machine

/-- The fields of a phase barrier object (Table 9.6); `rsv` is set when a reserved bit is. -/
structure Barrier where
  phase : Nat
  lpsn : Bool
  psn : Bool
  scope : Nat
  exparr : Nat
  pendarr : Nat
  lrec : Nat
  expbytes : Nat
  prec : Nat
  pendbytes : Nat
  rsv : Bool
deriving DecidableEq, Repr

/-- Read an object's fields. -/
def State.barrier (s : State) (pa : Nat) : Barrier :=
  let w1 := s.readN (pa + 4) 4
  let w2 := s.readN (pa + 8) 4
  let w3 := s.readN (pa + 12) 4
  let q2 := s.readN (pa + 16) 8
  let q3 := s.readN (pa + 24) 8
  { phase := s.readN pa 4, lpsn := w1.testBit 4, psn := w1.testBit 3, scope := w1 % 8
    exparr := w2 % 2 ^ 24, pendarr := w3 % 2 ^ 24, lrec := q2 / 2 ^ 48, expbytes := q2 % 2 ^ 48
    prec := q3 / 2 ^ 48, pendbytes := q3 % 2 ^ 48
    rsv := w1 / 32 != 0 || w2 / 2 ^ 24 != 0 || w3 / 2 ^ 24 != 0 }

/-- The 32 bytes of an object. -/
def Barrier.bytes (b : Barrier) : List Byte :=
  leBytes 4 b.phase ++ leBytes 4 (16 * bitOf b.lpsn + 8 * bitOf b.psn + b.scope) ++ leBytes 4 b.exparr
    ++ leBytes 4 b.pendarr ++ leBytes 8 (b.lrec * 2 ^ 48 + b.expbytes) ++ leBytes 8 (b.prec * 2 ^ 48 + b.pendbytes)

/-- R197: where a barrier of a scope may lie: in storage of a gang that `mine` accepts, or in device memory. -/
def State.barrierPlace (s : State) (mine : Nat → Bool) (space pa scope : Nat) : Bool :=
  if scope ≤ 1 then
    space != 0
      && ((s.blocks.any fun b => mine b.gang && !b.killed && decide (b.start ≤ pa) && decide (pa < b.start + b.size))
        || s.ctxs.any fun c => c.kind == .seq && mine c.gang && decide (c.filePa ≤ pa) && decide (pa < c.filePa + 16384))
  else space == 0 && (match s.place pa with | .hbm _ => true | _ => false)

/-- R196: a malformed object. Who arrives is not restricted: the object lies in storage of any gang (R197). -/
def State.malformed (s : State) (space pa : Nat) (b : Barrier) : Bool :=
  b.rsv || 4 ≤ b.scope || b.exparr == 0 || b.exparr < b.pendarr || b.expbytes < b.pendbytes
    || !s.barrierPlace (fun _ => true) space pa b.scope

/-- How the barrier unit names the instruction that makes an arrival (R198). -/
structure Named where
  opc : Nat
  token : Nat
  pc : W64
deriving DecidableEq, Repr

/-- A record that the barrier unit makes. -/
def State.barrierRecord (s : State) (w : Who) (nm : Named) (detail cause : Nat) (addr aux : W64) : State × Nat :=
  s.newRecord w (recordBytes nm.opc w.kind.code nm.token detail cause w.loc 0 nm.pc addr aux)

/-- Complete the waits armed on an object that satisfy p (by armed phase): poisoned with a record, or done. -/
def State.endWaits (s : State) (pa : Nat) (p : Nat → Bool) (rec : Option Nat) : State :=
  { s with ops := s.ops.map fun o =>
      match o.cmd, o.stage with
      | .pbwait _ _ _ _, .armed a ph =>
        if a == pa && p ph then
          { o with stage := .finished (match rec with | some r => .phasePoison r | none => .ok []) }
        else o
      | _, _ => o }

/-- Whether a PBWAIT is armed on an object. -/
def State.armedWait (s : State) (pa : Nat) : Bool :=
  s.ops.any fun o => match o.cmd, o.stage with | .pbwait _ _ _ _, .armed a _ => a == pa | _, _ => false

/-- R198: an uncorrectable object poisons every wait armed on it, and the PBWAIT that reaches it if one does, with a record of their
own; without a wait there is none. -/
def State.barrierUnreadable (s : State) (w : Who) (nm : Named) (pa : Nat) (addr aux : W64) (own : Option Nat) : State :=
  let s1 := s.uncHit pa nm.pc 0
  if own.isNone && !s1.armedWait pa then s1
  else
    let (s2, r) := s1.barrierRecord w nm 0x13 0x0B addr aux
    let s3 := s2.endWaits pa (fun _ => true) (some r)
    match own with
    | some id => s3.updOp id fun o => { o with stage := .finished (.phasePoison r) }
    | none => s3

/-- A .REL arrival joins the phase that an object is in: it orders the completion of that phase's waits behind it (08_ordering.md
R170, edge 5), and what they gate with them. Made at the commit of context `own` it stands behind what that has written so far, which
the gated accesses of that context then see too. -/
def State.hearRelease (s : State) (own : Option Nat) (pa : Nat) : State :=
  let joins := fun (id : Nat) => (s.op? id).any fun x => x.stage == .armed pa (s.barrier pa).phase
  s.updOvertaken fun o p => { p with
    relaxed := p.relaxed.filter fun id => !joins id
    wrote := if own == some o.ctx && p.relaxed.any joins then [] else p.wrote }

/-- Arrive of R198 at a physical address. `psn` is the record of a poisoned arrival. -/
def State.arrive (s : State) (w : Who) (nm : Named) (space pa : Nat) (addr : W64) (n b : Nat) (psn : Option Nat) : State :=
  let aux := BitVec.ofNat 64 (n % 2 ^ 24)
  if s.badRead pa 32 then s.barrierUnreadable w nm pa addr aux none
  else
    let x := s.barrier pa
    if s.malformed space pa x then s
    else
      let excess := decide (x.pendarr < n) || decide (x.pendbytes < b)
      let (s1, x1) :=
        if excess && !x.psn then
          let (s1, r) := s.barrierRecord w nm 0x10 5 addr aux
          (s1, { x with psn := true, prec := r })
        else (s, x)
      let x2 := match psn with
        | some r => if x1.psn then x1 else { x1 with psn := true, prec := r }
        | none => x1
      let x3 := { x2 with pendarr := x2.pendarr - min n x2.pendarr, pendbytes := x2.pendbytes - min b x2.pendbytes }
      if x3.pendarr == 0 && x3.pendbytes == 0 then
        let x4 := { x3 with
          lpsn := x3.psn, lrec := x3.prec, psn := false, prec := 0xFFFF, phase := (x3.phase + 1) % 2 ^ 32
          pendarr := x3.exparr, pendbytes := x3.expbytes }
        (s1.wr pa x4.bytes).endWaits pa (fun ph => ph == x.phase) (if x4.lpsn then some x4.lrec else none)
      else s1.wr pa x3.bytes

/-- PBINIT at a physical address (R199). -/
def State.barrierInit (s : State) (w : Who) (nm : Named) (scope pa : Nat) (addr : W64) (arr bytes : Nat) : State :=
  let x : Barrier := { phase := 0, lpsn := false, psn := false, scope := scope, exparr := arr, pendarr := arr
                       lrec := 0xFFFF, expbytes := bytes, prec := 0xFFFF, pendbytes := bytes, rsv := false }
  let s1 := s.wr pa x.bytes
  if s1.armedWait pa then
    let (s2, r) := s1.barrierRecord w nm 0x11 5 addr 0
    s2.endWaits pa (fun _ => true) (some r)
  else s1

/-- The stage of a PBWAIT at the home (R201). -/
def State.waitPhase (s : State) (space pa : Nat) (addr : W64) (cur : Bool) (phase : W32) : Stage :=
  let x := s.barrier pa
  if s.malformed space pa x then .finished (.fail 5 0x12 0 addr 0)
  else
    let p := if cur then x.phase else phase.toNat
    let d := (x.phase + 2 ^ 32 - p) % 2 ^ 32
    if d == 0 || 2 ^ 31 ≤ d then .armed pa p
    else if d == 1 then .finished (if x.lpsn then .phasePoison x.lrec else .ok [])
    else .finished (.ok [])

/-- Perform a PBWAIT (R201): armed, ended, or held on an absent page; one that finds the object uncorrectable ends with
every wait armed there (R198). It needs R, its notice has KIND 1, and the LANE of its record is 0 (log entry 98). -/
def State.performPbwait (s : State) (o : Op) (w : Who) (cur : Bool) (phase : W32) (space : Nat) (base : W64) : State :=
  match s.tryAccess w space 32 base .read false with
  | (s1, .fail c) => s1.updOp o.id fun o => { o with stage := .finished (.fail c 0 0 base 0) }
  | (s1, .absent) =>
    let s2 := s1.postNotice w base.toNat 1
    s2.updOp o.id fun o => { o with stage := .held [] [] none (base.toNat / 2 ^ 16) 1 }
  | (s1, .ok pa) =>
    if s1.badRead pa 32 then s1.barrierUnreadable w ⟨o.opc, o.token, o.pc⟩ pa base 0 (some o.id)
    else
      let st := s1.waitPhase space pa base cur phase
      s1.updOp o.id fun o => { o with stage := st }

/-- An arrival made at commit or at a replay (R200): none in the second place unless its page is absent. -/
def State.arriveAt (s : State) (w : Who) (nm : Named) (rel : Bool) (own : Option Nat) (space : Nat) (base n bytes : W64) (psn : Option Nat) : State × Bool :=
  match s.tryAccess w space 32 base .rmw false with
  | (s1, .fail c) => (s1.lateFail w nm.pc 0 c base, false)
  | (s1, .absent) => (s1, true)
  | (s1, .ok pa) => ((if rel then s1.hearRelease own pa else s1).arrive w nm space pa base n.toNat bytes.toNat psn, false)

/-- .REL of an arriving instruction, from its OP and SUB: its SUB is 1 with it. -/
def relOf (code : Nat) : Bool := code / 256 == 1

/-- Commit of an arrival: made, or logged on an absent page (R200). None while the log is full. -/
def State.commitArrive (s : State) (c : Ctx) (pc : W64) (code opc token space : Nat) (base n bytes : W64) (psn : Option Nat) : Option State :=
  let w := whoOf c
  match s.arriveAt w ⟨opc, token, pc⟩ (relOf code) (some w.ctx) space base n bytes psn with
  | (s1, false) => some s1
  | (s1, true) =>
    if s1.logRoom c.loc then some ((s1.postNotice w base.toNat 2).pushLog c pc code (.arrive opc token space base n bytes psn)) else none

/-- PBINIT at commit or at a replay; true where its page is absent. The place is checked again (R427). -/
def State.initAt (s : State) (w : Who) (pc : W64) (scope space : Nat) (base arr bytes : W64) : State × Bool :=
  match s.tryAccess w space 32 base .write false with
  | (s1, .fail c) => (s1.lateFail w pc 0 c base, false)
  | (s1, .absent) => (s1, true)
  | (s1, .ok pa) =>
    if s1.barrierPlace (· == w.gang) space pa scope then
      (s1.barrierInit w ⟨0x67, 0, pc⟩ scope pa base (arr.toNat % 2 ^ 24) (bytes.toNat % 2 ^ 48), false)
    else (s1.lateFail w pc 0 5 base, false)

/-- The issuer of a late arrival (R200): the cluster barrier unit of the issuing context. -/
def Late.who (l : Late) : Who :=
  { launch := l.launch, gang := l.gang, block := l.block, ctx := l.ctx, kind := l.kind, loc := l.loc
    die := l.loc.die, master := 8 * l.loc.die + l.loc.cluster, source := 4, peer := 0 }

/-- Sample a token for TKARR (R200): none while it is pending. -/
def Ctx.sample (c : Ctx) (k : Nat) : Option (Option Nat) :=
  match c.rdTok k with
  | .pending _ => none
  | .poisoned r => some (some r)
  | _ => some none

/-- Commit of TKARR (R200). -/
def State.commitTkarr (s : State) (c : Ctx) (pc : W64) (code : Nat) (rel : Bool) (k space : Nat) (base bytes : W64) : Option State :=
  match c.rdTok k with
  | .pending op =>
    some { s with lates := s.lates ++ [{ op := op, outcome := none, ctx := c.id, launch := c.launch, gang := c.gang
                                         block := c.block, kind := c.kind, loc := c.loc, pc := pc, rel := rel, k := k
                                         space := space, base := base, bytes := bytes, holdPage := none }] }
  | .poisoned r => s.commitArrive c pc code 0x66 k space base 1 bytes (some r)
  | _ => s.commitArrive c pc code 0x66 k space base 1 bytes none

end Sys2Proof.Machine
end

