-- ==== Sys2Proof/Machine/Rings.lean ====
section
/-! DEFINITION. Rings (14_copy_streams.md R298 to R304): descriptor, claims, publishes and frees, each one
indivisible step at the home. -/

namespace Sys2Proof.Machine

/-- The fields of a ring descriptor (Table 14.2) and its physical address; `rsv` is set when a reserved bit is. -/
structure Ring where
  pa : Nat
  slotBase : Int
  slotBytes : Nat
  nslots : Nat
  cclaim : Nat
  pclaim : Nat
  cfree : Nat
  ppub : Nat
  prec : Nat
  psn : Bool
  rmask : Nat
  rsv : Bool
deriving DecidableEq, Repr

/-- Read a descriptor. -/
def State.ring (s : State) (pa : Nat) : Ring :=
  let w1 := s.readN (pa + 4) 4
  let w2 := s.readN (pa + 8) 4
  let w5 := s.readN (pa + 20) 4
  { pa := pa, slotBase := (BitVec.ofNat 32 (s.readN pa 4)).toInt, slotBytes := w1 % 2 ^ 24, nslots := w2 % 2 ^ 9
    cclaim := s.readN (pa + 14) 2, pclaim := s.readN (pa + 12) 2, cfree := s.readN (pa + 18) 2, ppub := s.readN (pa + 16) 2
    prec := w5 / 2 ^ 16, psn := w5.testBit 0, rmask := s.readN (pa + 32) 32
    rsv := w1 / 2 ^ 24 != 0 || w2 / 2 ^ 9 != 0 || w5 / 2 % 2 ^ 15 != 0 || s.readN (pa + 24) 8 != 0 }

/-- The 64 bytes of a descriptor. -/
def Ring.bytes (r : Ring) : List Byte :=
  leBytes 4 (BitVec.ofInt 32 r.slotBase).toNat ++ leBytes 4 r.slotBytes ++ leBytes 4 r.nslots
    ++ leBytes 2 r.pclaim ++ leBytes 2 r.cclaim ++ leBytes 2 r.ppub ++ leBytes 2 r.cfree
    ++ leBytes 4 (r.prec * 2 ^ 16 + bitOf r.psn) ++ leBytes 8 0 ++ leBytes 32 r.rmask

/-- A difference of 16-bit counters. -/
def sub16 (x y : Nat) : Nat := (x + 2 ^ 16 - y % 2 ^ 16) % 2 ^ 16

/-- The storage of the issuing gang that holds a physical address (R197, R299): its first address and its end. -/
def State.gangStorage (s : State) (w : Who) (pa : Nat) : Option (Nat × Nat) :=
  match s.blocks.find? fun b => b.gang == w.gang && !b.child && !b.killed && decide (b.start ≤ pa) && decide (pa < b.start + b.size) with
  | some b => some (b.start, b.start + b.size)
  | none =>
    (s.ctxs.find? fun c => c.kind == .seq && c.gang == w.gang && decide (c.filePa ≤ pa) && decide (pa < c.filePa + 16384)).map
      fun c => (c.filePa, c.filePa + 16384)

/-- R299: slot size, slot count and arrays in range, within lo and hi. -/
def Ring.shapeOk (r : Ring) (lo hi : Nat) : Bool :=
  let first : Int := r.pa + r.slotBase
  let last : Int := first + r.slotBytes * r.nslots + 4 * r.nslots
  r.slotBase % 32 == 0 && r.slotBytes % 32 == 0 && 32 ≤ r.slotBytes && r.slotBytes ≤ 262144 && 1 ≤ r.nslots
    && r.nslots ≤ 256 && decide ((lo : Int) ≤ first) && decide (last ≤ (hi : Int))

/-- R299: a malformed descriptor. -/
def State.ringMalformed (s : State) (w : Who) (r : Ring) : Bool :=
  let a := sub16 r.cclaim r.cfree
  let b := sub16 r.ppub r.cfree
  let c := sub16 r.pclaim r.cfree
  r.rsv || !(a ≤ b && b ≤ c && c ≤ r.nslots)
    || (match s.gangStorage w r.pa with | some (lo, hi) => !r.shapeOk lo hi | none => true)

/-- The physical address of slot i. -/
def Ring.slotPa (r : Ring) (i : Nat) : Nat := ((r.pa : Int) + r.slotBase + (r.slotBytes * i : Nat)).toNat
/-- The physical address of slot i's count word. -/
def Ring.countPa (r : Ring) (i : Nat) : Nat := ((r.pa : Int) + r.slotBase + (r.slotBytes * r.nslots + 4 * i : Nat)).toNat

/-- The checks of a ring operation: the physical address, or cause and DETAIL (Table 14.6). -/
def State.ringAt (s : State) (w : Who) (space : Nat) (base : W64) : State × Except (Nat × Nat) Nat :=
  match s.tryAccess w space 64 base .rmw false with
  | (s1, .fail 4) => (s1, .error (4, 4))
  | (s1, .fail c) => (s1, .error (c, if c == 0x0B then 6 else 5))
  | (s1, .absent) => (s1, .error (5, 5))
  | (s1, .ok pa) => if (s1.gangStorage w pa).isSome && space != 0 then (s1, .ok pa) else (s1, .error (5, 5))

/-- A claim served now (R301): the new descriptor and the slot word; none while it must wait. -/
def State.claim (s : State) (r : Ring) (cons : Bool) : Option (Ring × W64) :=
  if cons then
    if r.cclaim == r.ppub then none
    else
      let q := r.cclaim
      let i := q % r.nslots
      let cw := s.readN (r.countPa i) 4
      some ({ r with cclaim := (q + 1) % 2 ^ 16 },
        BitVec.ofNat 64 (q * 2 ^ 48 + cw / 2 ^ 31 * 2 ^ 40 + cw % 2 ^ 24 * 2 ^ 16 + i))
  else
    if sub16 r.pclaim r.cfree < r.nslots then
      let q := r.pclaim
      some ({ r with pclaim := (q + 1) % 2 ^ 16 }, BitVec.ofNat 64 (q * 2 ^ 48 + r.slotBytes * 2 ^ 16 + q % r.nslots))
    else none

/-- Advance PPUB over released slots. -/
def Ring.advancePub (r : Ring) (fuel : Nat) : Ring :=
  match fuel with
  | 0 => r
  | k + 1 =>
    let i := r.ppub % r.nslots
    if r.rmask.testBit i && r.ppub != r.pclaim then
      Ring.advancePub { r with rmask := r.rmask - 2 ^ i, ppub := (r.ppub + 1) % 2 ^ 16 } k
    else r

/-- Advance CFREE over released slots. -/
def Ring.advanceFree (r : Ring) (fuel : Nat) : Ring :=
  match fuel with
  | 0 => r
  | k + 1 =>
    let i := r.cfree % r.nslots
    if r.rmask.testBit i && r.cfree != r.cclaim then
      Ring.advanceFree { r with rmask := r.rmask - 2 ^ i, cfree := (r.cfree + 1) % 2 ^ 16 } k
    else r

/-- R302's requirement for a publish of sequence q, index i. -/
def Ring.mayPub (r : Ring) (q i bytes : Nat) : Bool :=
  sub16 q r.ppub < sub16 r.pclaim r.ppub && i == q % r.nslots && !r.rmask.testBit i && bytes ≤ r.slotBytes
/-- R302's requirement for a free. -/
def Ring.mayFree (r : Ring) (q i : Nat) : Bool :=
  sub16 q r.cfree < sub16 r.cclaim r.cfree && i == q % r.nslots && !r.rmask.testBit i

/-- Publish slot i with a count (R302); `failed` carries the record of a poisoned publish. -/
def State.ringPublish (s : State) (r : Ring) (i bytes : Nat) (failed : Option Nat) : State :=
  let r1 := Ring.advancePub { r with rmask := r.rmask + 2 ^ i } 257
  let r2 := match failed with
    | some x => if r1.psn then r1 else { r1 with psn := true, prec := x }
    | none => r1
  (s.wr (r.countPa i) (leBytes 4 (bytes + 2 ^ 31 * bitOf failed.isSome))).wr r.pa r2.bytes

/-- Free slot i (R302). -/
def State.ringFree (s : State) (r : Ring) (i : Nat) : State :=
  s.wr r.pa (Ring.advanceFree { r with rmask := r.rmask + 2 ^ i } 257).bytes

/-- RINIT's descriptor (R300). -/
def ringOf (pa : Nat) (off cfg : W64) : Ring :=
  { pa := pa, slotBase := (off.setWidth 32).toInt, slotBytes := bits cfg 23 0, nslots := bits cfg 40 32, cclaim := 0
    pclaim := 0, cfree := 0, ppub := 0, prec := 0xFFFF, psn := false, rmask := 0, rsv := false }

/-- Whether an operation is a ring claim waiting at a descriptor. -/
def Op.claimsAt (o : Op) (pa : Nat) : Bool :=
  match o.cmd, o.stage with
  | .racq _ _ _, .armed a _ => a == pa
  | .copy _, .armed a _ => a == pa
  | _, _ => false

/-- Whether an operation is a release at a descriptor that is not applied yet: an RREL that waits for its preconditions, or a
CPY.RING that has claimed its slot and is held on a page (R300). -/
def State.releasesAt (s : State) (o : Op) (pa : Nat) : Bool :=
  match o.cmd, o.stage with
  | .rrel _ _ sp base _ _, .waiting => (match (s.ringAt o.who sp base).2 with | .ok a => a == pa | _ => false)
  | .copy (.cpy true _ _ _ _ _ _ _ _ _ _ _ _), .held [a] _ _ _ _ => a.y.toNat == pa
  | _, _ => false

/-- RINIT performed (R300): the descriptor stored, and waiting claims and releases not yet applied ended with DETAIL 0x61. -/
def State.ringInit (s : State) (pa : Nat) (base off cfg : W64) : State :=
  let s1 := s.wr pa (ringOf pa off cfg).bytes
  { s1 with ops := s1.ops.map fun o =>
      if o.claimsAt pa || s.releasesAt o pa then { o with stage := .finished (.fail 5 0x61 0 base 0) } else o }

/-- Whether the access tables let a command read or write bytes of a ring: its descriptor, a slot, a count word (19_device.md
R400, R401). -/
def State.ringPermits (s : State) (w : Who) (pa n : Nat) (rd wr : Bool) : Bool :=
  match s.place pa with
  | .map _ _ _ _ _ => s.tablesPermit w pa n rd wr
  | _ => true

/-- Finish an operation. -/
def State.finishOp (s : State) (id : Nat) (r : Result) : State := s.updOp id fun o => { o with stage := .finished r }

/-- RACQ reaches its ring's home (R301): its claim queues there. -/
def State.startRacq (s : State) (o : Op) (w : Who) (cons : Bool) (space : Nat) (base : W64) : State :=
  match s.ringAt w space base with
  | (s1, .error (c, d)) => s1.finishOp o.id (.fail c d 0 base 0)
  | (s1, .ok pa) =>
    if s1.badRead pa 64 then (s1.uncHit pa o.pc 0).finishOp o.id (.fail 0x0B 6 0 base 0)
    else if s1.ringMalformed w (s1.ring pa) then s1.finishOp o.id (.fail 5 0x62 0 base 0)
    else
      let k := clusterKey o.loc
      let c := s1.cluster k
      (s1.setCluster k { c with claims := c.claims ++ [o.id] }).updOp o.id fun o => { o with stage := .armed pa (bitOf cons) }

/-- RREL performed (R302, R310). -/
def State.performRrel (s : State) (o : Op) (w : Who) (free last : Bool) (space : Nat) (base slot bytes : W64) : State :=
  match s.ringAt w space base with
  | (s1, .error (c, d)) => s1.finishOp o.id (.fail c d 0 base 0)
  | (s1, .ok pa) =>
    if s1.badRead pa 64 then (s1.uncHit pa o.pc 0).finishOp o.id (.fail 0x0B 6 0 base 0)
    else
      let r := s1.ring pa
      let q := bits slot 63 48
      let i := bits slot 15 0
      if s1.ringMalformed w r then s1.finishOp o.id (.fail 5 0x62 0 base 0)
      else if free then
        (if r.mayFree q i then (s1.ringFree r i).finishOp o.id (.ok []) else s1.finishOp o.id (.fail 5 0x63 0 base 0))
      else if !r.mayPub q i bytes.toNat then s1.finishOp o.id (.fail 5 0x63 0 base 0)
      else if !s1.ringPermits w (r.countPa i) 4 false true then s1.finishOp o.id (.fail 5 5 0 (BitVec.ofNat 64 (r.countPa i)) 0)
      else
        let x := ((s1.block? o.block).map fun b => b.stat).getD SlotStat.reset
        if last && x.dset && x.ylen != x.dlen then
          let aux := (x.dlen &&& 0xFFFFFFFF) ||| (x.ylen <<< 32)
          let s2 := s1.setStat o.block fun x => { x with lenerr := true }
          let (s3, x) := s2.newRecord w (recordBytes o.opc o.kind.code o.token 0 0x0D o.loc 0 o.pc 0 aux)
          (s3.ringPublish r i bytes.toNat (some x)).finishOp o.id (.phasePoison x)
        else (s1.ringPublish r i bytes.toNat none).finishOp o.id (.ok [])

end Sys2Proof.Machine
end

