-- ==== Sys2Proof/Machine/Spawns.lean ====
section
/-! DEFINITION. Spawning (13_spawn.md R267 to R275, R281, R284) and the device-side launch (R290): the spawn
table, reservation of entries, join-counter additions, join waits, launch-queue append. -/

namespace Sys2Proof.Machine

/-- The issuer's name for an engine or unit of a cluster: SOURCE of R152, master of R400. -/
def Who.as (w : Who) (source : Nat) : Who := { w with source := source }

/-- The physical address of a virtual address for a quiet read: no heat, no fill, no notice. -/
def State.quietRead (s : State) (w : Who) (va size : Nat) : Option Nat :=
  match (s.translate w va size .read).2 with
  | .ok pa => if s.badRead pa size then none else some pa
  | _ => none

/-- Count the uncorrectable error that a quiet read meets, in its bytes or in a table entry of its walk (19_device.md R404). -/
def State.countQuiet (s : State) (w : Who) (va size : Nat) : State :=
  match (s.translate w va size .read).2 with
  | .ok pa => if s.badRead pa size then s.countUnc pa else s
  | .error pa => s.countUnc pa
  | _ => s

/-- Where a spawn-table entry lies (R53): none beyond the table's 64, and none in a launch without a table (18_launch.md R379). -/
def State.spawnSlot (s : State) (launch idx : Nat) : Option Nat :=
  match s.launch? launch with
  | none => none
  | some l => if 63 < idx || l.record.spawn == 0 then none else some (l.record.spawn + 8 * idx)

/-- Count the uncorrectable error met in reading a spawn-table entry. -/
def State.countSpawn (s : State) (w : Who) (idx : Nat) : State :=
  match s.spawnSlot w.launch idx with
  | some va => s.countQuiet w va 8
  | none => s

/-- The code address of a spawn-table entry (R53); none where it is not valid. An OFFSET that is no multiple of 32 is taken as it
stands (log entry 89). -/
def State.spawnTarget (s : State) (w : Who) (idx : Nat) : Option W64 :=
  match s.launch? w.launch, s.spawnSlot w.launch idx with
  | some l, some va =>
      match s.quietRead w va 8 with
      | none => none
      | some pa =>
        let e : W64 := BitVec.ofNat 64 (s.readN pa 8)
        if e.getLsbD 32 then some (BitVec.ofNat 64 l.record.lane + (e.setWidth 32).signExtend 64) else none
  | _, _ => none

/-- Entries a launch holds on chip in a cluster (R268). -/
def State.heldEntries (s : State) (launch ck : Nat) : Nat :=
  let c := s.cluster ck
  (c.spawnQ.filter fun e => e.launch == launch).length
    + (c.formed.foldl (fun n f => if f.launch == launch then n + f.members.length else n) 0)

/-- Entries the cluster's queue holds. -/
def State.heldAll (s : State) (ck : Nat) : Nat :=
  let c := s.cluster ck
  c.spawnQ.length + c.formed.foldl (fun n f => n + f.members.length) 0

/-- Entries in a launch's spill part. -/
def Launch.spilled (l : Launch) (ck : Nat) : Nat :=
  (Table.get l.spillTail ck 0 + 2 ^ 32 - Table.get l.spillHead ck 0) % 2 ^ 32

/-- The virtual address of a cluster's spill part (R269). -/
def Launch.spillPart (l : Launch) (ck : Nat) : Nat := l.record.spill + ck * (64 + 32 * l.record.spillN)

/-- The issuer of spill accesses: the cluster's Lens. -/
def lensWho (launch ck : Nat) : Who :=
  { launch := launch, gang := 0, block := 0, ctx := 0, kind := .lane, loc := ⟨ck / 8, ck % 8, 24⟩, die := ck / 8, master := ck
    source := 4, peer := 0 }

/-- Whether a launch's spill part in a cluster can be written and read. -/
def State.spillReady (s : State) (l : Launch) (ck : Nat) : Bool :=
  (parts32 (l.spillPart ck) 64 65).all fun a => match (s.translate (lensWho l.id ck) a.1 a.2 .rmw).2 with | .ok _ => true | _ => false

/-- R273: how many entries go on chip and how many are spilled, of n offered, after `a0` and `b0` reserved by
earlier instructions of the run. -/
def State.spawnRoom (s : State) (launch ck n a0 b0 : Nat) : Nat × Nat :=
  match s.launch? launch with
  | none => (0, 0)
  | some l =>
    let q := l.record.quota
    if q == 0 then (0, 0)
    else
      let a := if l.spilled ck + b0 == 0 then min n (min (q - s.heldEntries launch ck - a0) (4096 - s.heldAll ck - a0)) else 0
      let b := if s.spillReady l ck then min (n - a) (l.record.spillN - (l.spilled ck + b0)) else 0
      (a, b)

/-- The 32 bytes of a spilled entry (Table 13.1). -/
def entryBytes (r : SpawnReq) (jmap : Bool) : List Byte :=
  leBytes 8 r.jc ++ leBytes 4 r.p0.toNat ++ leBytes 4 r.p1.toNat ++ leBytes 4 r.p2.toNat ++ leBytes 4 r.p3.toNat
    ++ leBytes 4 (2 ^ 16 * bitOf jmap + 2 ^ 8 * r.gen + r.entry) ++ leBytes 4 0

/-- The 64 bytes of a spill header (Table 13.2). -/
def spillHeader (head tail high : Nat) : List Byte := leBytes 4 head ++ leBytes 4 tail ++ leBytes 4 high ++ List.replicate 52 0

/-- Write a launch's spill header for a cluster from its counters. -/
def State.writeSpillHeader (s : State) (l : Launch) (ck high : Nat) : State :=
  let (s1, high0) := s.rdVa (lensWho l.id ck) (l.spillPart ck + 8) 4
  let old := (high0.map leNat).getD 0
  s1.wrVa (lensWho l.id ck) (l.spillPart ck) (spillHeader (Table.get l.spillHead ck 0) (Table.get l.spillTail ck 0) (max high old))

/-- Spill one entry at TAIL (R269). -/
def State.spillEntry (s : State) (launch ck : Nat) (r : SpawnReq) (jmap : Bool) : State :=
  match s.launch? launch with
  | none => s
  | some l =>
    let tail := Table.get l.spillTail ck 0
    let va := l.spillPart ck + 64 + 32 * (tail % l.record.spillN)
    let s1 := s.wrVa (lensWho launch ck) va (entryBytes r jmap)
    let l1 := { l with spillTail := Table.set l.spillTail ck ((tail + 1) % 2 ^ 32) 0 }
    (s1.updLaunch launch fun _ => l1).writeSpillHeader l1 ck (l1.spilled ck)

/-- Reserve one entry at commit (R273), on chip or in the spill part, with its number there. -/
def State.reserveOne (s : State) (c : Ctx) (jmap : Bool) (r : SpawnReq) : State × SpawnReq :=
  let ck := clusterKey c.loc
  if r.onChip then
    let k := s.cluster ck
    let e : Spawned := { id := s.nextId, launch := c.launch, cluster := ck, entry := r.entry, p0 := r.p0, p1 := r.p1
                         p2 := r.p2, p3 := r.p3, jc := r.jc, jcMap := jmap, gen := r.gen, eligible := none, added := false, spill := none }
    ({ s.setCluster ck { k with spawnQ := k.spawnQ ++ [e] } with nextId := s.nextId + 1 }, { r with id := s.nextId })
  else (s.spillEntry c.launch ck r jmap, { r with id := ((s.launch? c.launch).map fun l => Table.get l.spillTail ck 0).getD 0 })

/-- Reserve the entries of a SPAWN. -/
def State.reserve (s : State) (c : Ctx) (jmap : Bool) (rs : List SpawnReq) : State × List SpawnReq :=
  rs.foldl (fun (p : State × List SpawnReq) r =>
    let (s1, r1) := p.1.reserveOne c jmap r
    (s1, p.2 ++ [r1])) (s, [])

/-- Mark entries as having their additions performed (R274). -/
def State.entriesAdded (s : State) (launch ck : Nat) (rs : List SpawnReq) : State :=
  let k := s.cluster ck
  let hit := fun (e : Spawned) => e.launch == launch
    && rs.any fun r => if r.onChip then e.spill.isNone && r.id == e.id else e.spill == some r.id
  s.setCluster ck { k with spawnQ := updWhere k.spawnQ hit fun e => { e with added := true } }

/-- The join-counter additions of a SPAWN (R274): none in the second place if a counter's page is absent, and then
nothing is performed. Where a check fails now (R427), its warp is killed and its entries are discarded with it, and so are they
where an addition meets uncorrectable data and is not performed (10_atomics.md R218). -/
def State.spawnAdds (s : State) (w : Who) (pc : W64) (jmap : Bool) (rs : List SpawnReq) : State × Bool :=
  let sp := if jmap then 3 else 0
  let withJc := rs.filter fun r => r.jc != 0
  if withJc.any fun r => (s.tryAccess w sp 8 (BitVec.ofNat 64 r.jc) .rmw true).2 == .absent then
    (withJc.foldl (fun s r =>
      if (s.tryAccess w sp 8 (BitVec.ofNat 64 r.jc) .rmw true).2 == .absent then s.postNotice w r.jc 2 else s) s, true)
  else
    let bad := withJc.any fun r => match s.tryAccess w sp 8 (BitVec.ofNat 64 r.jc) .rmw true with
      | (_, .ok pa) => s.badRead pa 8
      | _ => false
    let (s1, _) := s.writeLanes w (some (.int 0 2)) sp 8 pc
      (withJc.map fun r => { lane := r.lane, addr := r.jc, x := (1, 0), y := 0 })
    (if bad || (s1.ctx? w.ctx).all fun c => c.ended then s1.voidSpawns w.launch (clusterKey w.loc) [.spawn jmap rs 0 0]
      else s1.entriesAdded w.launch (clusterKey w.loc) rs, false)

/-- Where a join counter may lie (R283). -/
def State.joinPlace (s : State) (pa : Nat) : Bool :=
  match s.place pa with
  | .hbm _ | .map _ _ _ _ .scratch => true
  | _ => false

/-- JCWAIT at the counter's home (R284). -/
def State.performJcwait (s : State) (o : Op) (w : Who) (space : Nat) (base : W64) : State :=
  match s.tryAccess w space 8 base .read false with
  | (s1, .fail c) => s1.finishOp o.id (.fail c 0 0 base 0)
  | (s1, .absent) =>
    (s1.postNotice w base.toNat 1).updOp o.id fun o => { o with stage := .held [] [] none (base.toNat / 2 ^ 16) 1 }
  | (s1, .ok pa) =>
    if !s1.joinPlace pa then s1.finishOp o.id (.fail 5 0 0 base 0)
    else if s1.badRead pa 8 then (s1.uncHit pa o.pc 0).finishOp o.id (.fail 0x0B 0 0 base 0)
    else if (BitVec.ofNat 64 (s1.readN pa 8)).toInt ≤ 0 then s1.finishOp o.id (.ok [])
    else s1.updOp o.id fun o => { o with stage := .armed pa 0 }

/-- Offsets of a launch queue's registers (Table 18.1). -/
def qReg (q i : Nat) : Nat := 0x140000 + 0x20 * q + 8 * i
/-- QCTL.SIZE. -/
def State.qSize (s : State) (q : Nat) : Nat := bits (s.reg 0 (qReg q 1)) 15 0
/-- Whether the Hearth reads a queue: EN, and two or more slots (R377). -/
def State.qEnabled (s : State) (q : Nat) : Bool := (s.reg 0 (qReg q 1)).getLsbD 16 && decide (2 ≤ s.qSize q)
/-- HEAD and TAIL. -/
def State.qHead (s : State) (q : Nat) : Nat := bits (s.reg 0 (qReg q 2)) 15 0
/-- TAIL. -/
def State.qTail (s : State) (q : Nat) : Nat := bits (s.reg 0 (qReg q 3)) 15 0
/-- A full queue. -/
def State.qFull (s : State) (q : Nat) : Bool := (s.qTail q + 1) % s.qSize q == s.qHead q

/-- Append a record at TAIL and advance it (R377). -/
def State.qAppend (s : State) (q : Nat) (rec : List Byte) : State :=
  let base := bits (s.reg 0 (qReg q 0)) 51 8 * 256
  (s.wr (base + 256 * s.qTail q) rec).setReg 0 (qReg q 3) (BitVec.ofNat 64 ((s.qTail q + 1) % s.qSize q))

/-- LAUNCHG (R290). -/
def State.performLaunchg (s : State) (o : Op) (w : Who) (rec q : W64) : State :=
  let n := q.toNat
  if 63 < n || !s.qEnabled n || !(s.reg 0 (qReg n 1)).getLsbD 17 then s.finishOp o.id (.fail 5 0x50 0 rec 0)
  else
    match s.tryAccess w 0 256 rec .read false with
    | (s1, .fail c) => s1.finishOp o.id (.fail c (if c == 0x0B then 0 else 5) 0 rec 0)
    | (s1, .absent) =>
      (s1.postNotice w rec.toNat 1).updOp o.id fun o => { o with stage := .held [] [] none (rec.toNat / 2 ^ 16) 1 }
    | (s1, .ok pa) =>
      if s1.badRead pa 256 then (s1.uncHit pa o.pc 0).finishOp o.id (.fail 0x0B 0 0 rec 0)
      else if s1.qFull n then s1.finishOp o.id (.fail 5 0x51 0 rec 0)
      else (s1.qAppend n (s1.readBytes pa 256)).finishOp o.id (.ok [])

end Sys2Proof.Machine
end

