-- ==== Sys2Proof/Machine/Fabric.lean ====
section
/-! DEFINITION. Fabric commands (15_fabric.md R319 to R329, R336): what the issuer checks before a packet is sent,
what a target does with a request, connections. Remote devices are the environment: a command that was sent
ends at FABRIC_ACK. A command to the issuer's own pod number is performed here, through its own gateway. -/

namespace Sys2Proof.Machine

/-- Bytes of a fabric element type. -/
def fTyBytes (ty : Nat) : Nat := if ty == 2 || ty == 3 then 8 else 4

/-- FLAG of a peer pair. -/
def pairFlag (s0 : W64) : Nat := bits s0 55 0
/-- DEV of a peer pair. -/
def pairDev (s1 : W64) : Nat := bits s1 9 0

/-- Whether a pair's reserved bits are zero (R321). -/
def pairOk (s0 s1 : W64) : Bool := bits s0 63 56 == 0 && bits s1 63 10 == 0

/-- The issuer of accesses made for a remote device at a die's gateway (R322). -/
def remoteWho (die peer : Nat) : Who :=
  { launch := 0, gang := 0, block := 0, ctx := 0, kind := .lane, loc := ⟨die, 0, 0⟩, die := die, master := 20, source := 7, peer := peer }

/-- Post the notice of a remote access (R322), which does not wait for its page: now, or when the ring has room. -/
def State.postRemote (s : State) (w : Who) (va kind : Nat) : State :=
  if s.noticeRoom w.die then s.pushNotice w.die (BitVec.ofNat 64 (va / 2 ^ 16 * 2 ^ 16 + kind)) (noticeAgent w)
  else s.setDie w.die { s.die w.die with unposted := (s.die w.die).unposted ++ [(va / 2 ^ 16, kind, noticeAgent w)] }

/-- The checks of one remote access of a size and alignment at the target (R322): the physical address, or cause, DETAIL and
address. -/
def State.remoteAccess (s : State) (die port peer va size al : Nat) (t : AccessType) : State × Except (Nat × Nat × Nat) Nat :=
  let w := remoteWho die peer
  if va / 2 ^ 56 != 0 then (s, .error (5, 5, va))
  else if va % al != 0 then (s, .error (4, 4, va))
  else
    match s.translate w va size t with
    | (s1, .absent) => (s1.postRemote w va t.notice, .error (5, 0x72, va))
    | (s1, .violation) => (s1, .error (5, 5, va))
    | (s1, .error pa) => (s1.countUnc pa, .error (0x0B, 6, va))
    | (s1, .ok pa) =>
      match s1.place pa with
      | .hbm _ =>
        if !s1.tablePermits die (28 + port % 8) w pa size t.reads t.writes then (s1, .error (5, 5, va))
        else if t.reads && s1.badRead pa size then (s1.countUnc pa, .error (0x0B, 6, va))
        else (s1, .ok pa)
      | _ => (s1, .error (5, 5, va))

/-- Check a list of lanes (address and size); the physical addresses, or the first failing lane. -/
def State.remoteAll (s : State) (die port peer size : Nat) (t : AccessType) (lane : Nat) (vas : List Nat) :
    State × Except (Nat × Nat × Nat × Nat) (List Nat) :=
  match vas with
  | [] => (s, .ok [])
  | va :: r =>
    match s.remoteAccess die port peer va size size t with
    | (s1, .error (c, d, a)) => (s1, .error (c, d, lane, a))
    | (s1, .ok pa) =>
      match s1.remoteAll die port peer size t (lane + 1) r with
      | (s2, .ok pas) => (s2, .ok (pa :: pas))
      | (s2, .error e) => (s2, .error e)

/-- Check a 64-bit counter that a request increments. -/
def State.remoteCounter (s : State) (die port peer va : Nat) : State × Except (Nat × Nat × Nat) (Option Nat) :=
  match s.remoteAccess die port peer va 8 8 .rmw with
  | (s1, .ok pa) => (s1, .ok (some pa))
  | (s1, .error e) => (s1, .error e)

/-- Check a flag (R325); 0 means none. -/
def State.remoteFlag (s : State) (die port peer flag : Nat) : State × Except (Nat × Nat × Nat) (Option Nat) :=
  if flag == 0 then (s, .ok none) else s.remoteCounter die port peer flag

/-- Increment a signed 64-bit word (R325). -/
def State.bumpFlag (s : State) (pa : Option Nat) : State :=
  match pa with
  | some a => s.wrN a 8 ((s.readN a 8 + 1) % 2 ^ 64)
  | none => s

/-- Write bytes part by part (R327): the state, and the first failure. -/
def State.remoteBytes (s : State) (die port peer : Nat) (ps : List (Nat × Nat)) (bs : List Byte) : State × Option (Nat × Nat × Nat) :=
  match ps with
  | [] => (s, none)
  | (va, l) :: r =>
    match s.remoteAccess die port peer va l 1 .write with
    | (s1, .error e) => (s1, some e)
    | (s1, .ok pa) => (s1.wr pa (bs.take l)).remoteBytes die port peer r (bs.drop l)

/-- Check the parts of a payload without writing (R328). -/
def State.remoteCheck (s : State) (die port peer : Nat) (ps : List (Nat × Nat)) : State × Option (Nat × Nat × Nat) :=
  match ps with
  | [] => (s, none)
  | (va, l) :: r =>
    match s.remoteAccess die port peer va l 1 .write with
    | (s1, .error e) => (s1, some e)
    | (s1, .ok _) => s1.remoteCheck die port peer r

/-- A failed reply. -/
def replyFail (e : Nat × Nat × Nat) : Reply := .fail e.1 e.2.1 0 e.2.2

/-- Perform a staged payload (R328): wholly, or, where a check fails that passed at the staging, not at all. -/
def State.performStaged (s : State) (x : Staged) : State × Reply :=
  let ps := parts32 x.dst x.bytes.length (x.bytes.length + 1)
  match s.remoteFlag x.die x.port x.peer x.flag with
  | (s1, .error e) => (s1, replyFail e)
  | (s1, .ok fl) =>
    match s1.remoteCheck x.die x.port x.peer ps with
    | (s2, some e) => (s2, replyFail e)
    | (s2, none) => ((s2.remoteBytes x.die x.port x.peer ps x.bytes).1.bumpFlag fl, .ok [])

/-- What a target does with a request from a peer, at a port of a die (R322, R324 to R328, R331). -/
def State.performRequest (s : State) (die port peer : Nat) (r : Request) : State × Reply :=
  match r with
  | .load size addrs =>
    match s.remoteAll die port peer size .read 0 addrs with
    | (s1, .error (c, d, l, a)) => (s1, .fail c d l a)
    | (s1, .ok pas) => (s1, .ok (pas.map fun pa => BitVec.ofNat 64 (s1.readN pa size)))
  | .store size cells flag =>
    match s.remoteAll die port peer size .write 0 (cells.map Prod.fst) with
    | (s1, .error (c, d, l, a)) => (s1, .fail c d l a)
    | (s1, .ok pas) =>
      match s1.remoteFlag die port peer flag with
      | (s2, .error e) => (s2, replyFail e)
      | (s2, .ok fl) =>
        let s3 := (pas.zip cells).foldl (fun s p => s.wrN p.1 size p.2.2.toNat) s2
        (s3.bumpFlag fl, .ok [])
  | .atom op ty cells flag =>
    let size := fTyBytes ty
    match s.remoteAll die port peer size .rmw 0 (cells.map Prod.fst) with
    | (s1, .error (c, d, l, a)) => (s1, .fail c d l a)
    | (s1, .ok pas) =>
      match s1.remoteFlag die port peer flag with
      | (s2, .error e) => (s2, replyFail e)
      | (s2, .ok fl) =>
        let (s3, olds) := (pas.zip cells).foldl (fun (x : State × List W64) p =>
          let old := x.1.readN p.1 size
          (x.1.wrN p.1 size (redOp op ty (BitVec.ofNat 64 old) p.2.2).toNat, x.2 ++ [BitVec.ofNat 64 old])) (s2, [])
        (s3.bumpFlag fl, .ok olds)
  | .bulk dst bytes flag lastPart =>
    match s.remoteFlag die port peer flag with
    | (s1, .error e) => (s1, replyFail e)
    | (s1, .ok fl) =>
      match s1.remoteBytes die port peer (parts32 dst bytes.length (bytes.length + 1)) bytes with
      | (s2, some e) => (s2, replyFail e)
      | (s2, none) => (if lastPart then s2.bumpFlag fl else s2, .ok [])
  | .stage dst bytes flag =>
    match s.remoteFlag die port peer flag with
    | (s1, .error e) => (s1, replyFail e)
    | (s1, .ok _) =>
      match s1.remoteCheck die port peer (parts32 dst bytes.length (bytes.length + 1)) with
      | (s2, some e) => (s2, replyFail e)
      | (s2, none) =>
        let d := s2.die die
        (s2.setDie die { d with staged := d.staged ++ [{ die := die, port := port, peer := peer, dst := dst, bytes := bytes, flag := flag }] }, .ok [])
  | .commitStage index =>
    let d := s.die die
    match (d.staged.filter fun x => x.peer == peer)[index]? with
    | none => (s, .fail 0x0C 0x70 0 0)
    | some x => (s.setDie die { d with staged := d.staged.erase x }).performStaged x
  | .slot dst bytes arrive =>
    match s.remoteCounter die port peer arrive with
    | (s1, .error e) => (s1, replyFail e)
    | (s1, .ok fl) =>
      match s1.remoteBytes die port peer (parts32 dst bytes.length (bytes.length + 1)) bytes with
      | (s2, some e) => (s2, replyFail e)
      | (s2, none) => (s2.bumpFlag fl, .ok [])
  | .credit addr =>
    match s.remoteCounter die port peer addr with
    | (s1, .error e) => (s1, replyFail e)
    | (s1, .ok fl) => (s1.bumpFlag fl, .ok [])

/-- The connection of a die to a peer. -/
def State.conn? (s : State) (die peer : Nat) : Option Conn := ((s.die die).conns.find? fun c => c.1 == peer).map Prod.snd

/-- A fresh connection context. -/
def Conn.fresh (spilled : Bool) (now : Nat) : Conn := { dead := false, seq := 0, retx := 0, spilled := spilled, since := now }

/-- No connection context (the default of the table). -/
def Conn.absent : Conn := { dead := true, seq := 0, retx := 0, spilled := false, since := 0 }

/-- Whether a command of a die to a peer has not been acknowledged. -/
def State.outstanding (s : State) (die peer : Nat) : Bool :=
  s.outbox.any fun e => e.2.1 == peer && (s.op? e.1).any fun o => o.loc.die == die

/-- R320: open or reuse a connection; cause and DETAIL where the command cannot be sent. -/
def State.connect (s : State) (die peer : Nat) : State × Option (Nat × Nat) :=
  let d := s.die die
  match s.conn? die peer with
  | some c =>
    if c.dead then (s, some (0x0C, 0x71))
    else if s.outstanding die peer then (s, none)
    else (s.setDie die { d with conns := Table.set d.conns peer { c with since := s.ns } Conn.absent }, none)
  | none =>
    let n := d.conns.length
    if 1024 + bits (s.reg die 0x1C0008) 15 0 ≤ n then (s, some (0x0C, 0x76))
    else (s.setDie die { d with conns := Table.set d.conns peer (Conn.fresh (decide (1024 ≤ n)) s.ns) Conn.absent }, none)

/-- The issuer's pod number and the pod size (R402). -/
def State.podNumber (s : State) : Nat := s.cap 4
/-- Pod size. -/
def State.podSize (s : State) : Nat := s.cap 5

/-- Whether the window of a die's connection to a peer is full (R320; one packet a request, log entry 22). -/
def State.windowFull (s : State) (die peer : Nat) : Bool :=
  decide (512 ≤ (s.outbox.filter fun e => e.2.1 == peer && (s.op? e.1).any fun o => o.loc.die == die).length)

/-- Queue a request to a peer for an operation of a die: it has been sent, under the connection's next sequence number. -/
def State.post (s : State) (die op peer : Nat) (r : Request) : State :=
  let s1 : State := { s with outbox := s.outbox ++ [(op, peer, r)] }
  match s.conn? die peer with
  | some c => s1.setDie die { s1.die die with conns := Table.set (s1.die die).conns peer { c with seq := c.seq + 1 } Conn.absent }
  | none => s1

/-- Read n bytes of a local source for an engine, part by part: bytes, or absent at an address, or a failure. -/
def State.engineRead (s : State) (w : Who) (pc : W64) (space : Nat) (ps : List (Nat × Nat)) (acc : List Byte) :
    State × Except (AccOut × Nat) (List Byte) :=
  match ps with
  | [] => (s, .ok acc)
  | (a, l) :: r =>
    match s.tryAccess w space 1 (BitVec.ofNat 64 a) .read false with
    | (s1, .ok pa) =>
      if (match s1.place (pa + l - 1) with | .nothing => true | _ => false) then (s1, .error (.fail 5, a))
      else if s1.badRead pa l then (s1.uncHit pa pc 0, .error (.fail 0x0B, a))
      else s1.engineRead w pc space r (acc ++ s1.readBytes pa l)
    | (s1, o) => (s1, .error (o, a))

/-- DETAIL of a failed engine access (Tables 14.6 and 15.4). -/
def accDetail (cause : Nat) : Nat := match cause with | 4 => 4 | 5 => 5 | 0x0B => 6 | _ => 0

/-- The member list of an RSTM, or none where it is malformed (R328). -/
def memberList (bs : List Byte) (n : Nat) : Option (List Nat) :=
  let ms := (List.range n).map fun i => leNat ((bs.drop (2 * i)).take 2)
  if ms.all (fun m => m < 1024) && ms.eraseDups.length == n then some ms else none

/-- Hold an operation on an absent page (R155); what its record's AUX would hold stays with it. -/
def State.holdOp (s : State) (o : Op) (w : Who) (va kind : Nat) (aux : Nat := 0) : State :=
  (s.postNotice w va kind).updOp o.id fun o =>
    { o with stage := .held [{ lane := 0, addr := va, x := (BitVec.ofNat 64 aux, BitVec.ofNat 64 (aux / 2 ^ 64)), y := 0 }] [] none (va / 2 ^ 16) kind }

/-- Send a command to one target, or fail it (R320, R321); one that finds the window full waits. -/
def State.sendTo (s : State) (o : Op) (dev : Nat) (r : Request) : State :=
  match s.connect o.loc.die dev with
  | (s1, some (c, d)) => s1.finishOp o.id (.fail c d 0 0 0)
  | (s1, none) =>
    if s1.windowFull o.loc.die dev then s1.updOp o.id fun o => { o with stage := .waiting }
    else (s1.post o.loc.die o.id dev r).updOp o.id fun o => { o with stage := .sent }

/-- Send a multicast's payload to its members (R320, R328): each member with 0, or with the DETAIL with which it has failed
here. -/
def State.sendMembers (s : State) (o : Op) (r : Request) (ms : List Nat) : State × List (Nat × Nat) :=
  match ms with
  | [] => (s, [])
  | m :: t =>
    let (s1, d) :=
      if s.podSize ≤ m then (s, 0x70)
      else match s.connect o.loc.die m with
        | (s1, some (_, d)) => (s1, d)
        | (s1, none) => (s1.post o.loc.die o.id m r, 0)
    let (s2, ds) := s1.sendMembers o r t
    (s2, (m, d) :: ds)

/-- AUX of a multicast's record (R328). -/
def memberAux (failed unknown : Nat) : W64 := BitVec.ofNat 64 (failed % 2 ^ 32 + unknown % 2 ^ 32 * 2 ^ 32)

/-- End a multicast that no live connection can still deliver: to the members that were sent to it is unknown, by a
free choice, whether the commit reached them (R328). -/
def State.settleMembers (s : State) (id : Nat) : State :=
  match s.op? id with
  | none => s
  | some o =>
    match o.cmd, o.stage with
    | .fabric (.rstm _ _ _ _ _ _ ms), .sent =>
      if ms.any fun m => m.2 == 0 then s
      else
        let u := ((List.range ms.length).zip ms).foldl (fun n p =>
          if p.2.2 == 0x75 then n + 2 ^ p.1 * (Config.choose 2 (s.freeIdx + p.1) % 2) else n) 0
        let s1 : State := { s with outbox := s.outbox.filter (fun e => e.1 != id), freeIdx := s.freeIdx + ms.length }
        s1.finishOp id (.fail 0x0C (ms.headD (0, 0)).2 0 0 (memberAux (2 ^ ms.length - 1 - u) u))
    | _, _ => s

/-- The connection to a member of a multicast has died after the payload was sent. -/
def State.loseMember (s : State) (id peer : Nat) : State :=
  ({ s with outbox := s.outbox.filter fun e => !(e.1 == id && e.2.1 == peer) }.updOp id fun o =>
    match o.cmd with
    | .fabric (.rstm a b c d e f ms) => { o with cmd := .fabric (.rstm a b c d e f (ms.map fun m => if m == (peer, 0) then (peer, 0x75) else m)) }
    | _ => o).settleMembers id

/-- The first misaligned or overlong lane address of an element command. -/
def badElement (size : Nat) (accs : List Acc) : Option (Nat × Acc) :=
  match accs.find? fun a => a.addr % size != 0 with
  | some a => some (4, a)
  | none => (accs.find? fun a => a.addr / 2 ^ 56 != 0).map fun a => (5, a)

/-- The fields of a collective descriptor (Table 15.3) with its peer list. -/
structure Coll where
  op : Nat
  send : Nat
  recv : Nat
  stage : Nat
  peers : Nat
  n : Nat
  rank : Nat
  p : Nat
  opr : Nat
  et : Nat
  timeout : Nat
  signal : Nat
  base : Nat
  members : List Nat

/-- Read a descriptor from its 64 bytes, with the bytes of its peer list. -/
def collOf (op : Nat) (bs : List Byte) : Coll :=
  let w := fun (o k : Nat) => leNat ((bs.drop o).take k)
  let p := w 0x24 4 % 2 ^ 11
  { op := op, send := w 0 8, recv := w 8 8, stage := w 0x10 8, peers := w 0x18 8, n := w 0x20 4, rank := nbits (w 0x24 4) 20 11
    p := p, opr := nbits (w 0x28 4) 7 4, et := w 0x28 4 % 16, timeout := w 0x2C 4, signal := w 0x30 8, base := w 0x38 8
    members := (List.range p).map fun i => w (64 + 2 * i) 2 }

/-- Whether the 64 bytes of a descriptor are well formed (R330), the peer list apart; COUNT outside its range is taken
as malformed (log entry 25). -/
def collHeadOk (bs : List Byte) : Bool :=
  let w := fun (o k : Nat) => leNat ((bs.drop o).take k)
  let c := collOf 0 bs
  w 0x24 4 / 2 ^ 21 == 0 && w 0x28 4 / 2 ^ 8 == 0 && 2 ≤ c.p && c.p ≤ 1024 && c.rank < c.p && c.opr ≤ 2 && c.et ≤ 2
    && 1 ≤ c.n && c.n ≤ 2 ^ 31

/-- The member at an offset from this one. -/
def Coll.peer (c : Coll) (d : Nat) : Nat := c.members.getD ((c.rank + d) % c.p) 0
/-- Element bytes. -/
def Coll.esz (c : Coll) : Nat := if c.et == 1 then 2 else 4
/-- Q. -/
def Coll.q (c : Coll) : Nat := (c.n + c.p - 1) / c.p
/-- QB. -/
def Coll.qb (c : Coll) : Nat := (c.q * c.esz + 31) / 32 * 32
/-- Start a fabric element or bulk command whose preconditions are met (R324 to R328). -/
def State.startFabric (s : State) (o : Op) (w : Who) (c : FCmd) : State :=
  let fail (s : State) (cause detail lane : Nat) (addr : Nat) : State :=
    s.finishOp o.id (.fail cause detail lane (BitVec.ofNat 64 addr) 0)
  let element (s0 s1 : W64) (size : Nat) (accs : List Acc) (flagOk : Bool) (r : Request) : State :=
    if !pairOk s0 s1 || s.podSize ≤ pairDev s1 || !flagOk then fail s 0x0C 0x70 0 0
    else
      match badElement size accs with
      | some (c, a) => fail s c c a.lane a.addr
      | none => if pairFlag s0 % 8 != 0 then fail s 4 4 0 (pairFlag s0) else s.sendTo o (pairDev s1) r
  match c with
  | .rld ty s0 s1 accs => element s0 s1 (fTyBytes ty) accs (pairFlag s0 == 0) (.load (fTyBytes ty) (accs.map fun a => a.addr))
  | .rst ty s0 s1 accs =>
    element s0 s1 (fTyBytes ty) accs true (.store (fTyBytes ty) (accs.map fun a => (a.addr, a.x.1)) (pairFlag s0))
  | .ratom op ty s0 s1 accs =>
    element s0 s1 (fTyBytes ty) accs true (.atom op ty (accs.map fun a => (a.addr, a.x.1)) (pairFlag s0))
  | .rcpy ssp s0 s1 dst src size =>
    if !pairOk s0 s1 || s.podSize ≤ pairDev s1 then fail s 0x0C 0x70 0 0
    else if 2 ^ 40 < size.toNat then fail s 2 0x60 0 0
    else if pairFlag s0 % 8 != 0 then fail s 4 4 0 (pairFlag s0)
    else if dst.toNat / 2 ^ 56 != 0 then fail s 5 5 0 dst.toNat
    else
      match s.engineRead w o.pc ssp (parts32 src.toNat size.toNat (size.toNat + 1)) [] with
      | (s1', .error (.absent, a)) => s1'.holdOp o w a 1
      | (s1', .error (.fail c, a)) => fail s1' c (accDetail c) 0 a
      | (s1', .error (.ok _, a)) => fail s1' 5 5 0 a
      | (s1', .ok bs) => s1'.sendTo o (pairDev s1) (.bulk dst.toNat bs (pairFlag s0) true)
  | .rstm ssp s0 s1 dst src size _ =>
    let n := bits s1 60 56 + 1
    let la := bits s1 55 0
    if bits s0 63 56 != 0 || bits s1 63 61 != 0 then fail s 0x0C 0x70 0 0
    else if 65536 < size.toNat then fail s 2 0x60 0 0
    else if la % 2 != 0 then fail s 4 4 0 la
    else if pairFlag s0 % 8 != 0 then fail s 4 4 0 (pairFlag s0)
    else
      match s.engineRead w o.pc 0 (parts32 la (2 * n) (2 * n + 1)) [] with
      | (s1', .error (.absent, a)) => s1'.holdOp o w a 1
      | (s1', .error (.fail c, a)) => fail s1' c (accDetail c) 0 a
      | (s1', .error (.ok _, a)) => fail s1' 5 5 0 a
      | (s1', .ok lb) =>
        match memberList lb n with
        | none => fail s1' 2 0x60 0 0
        | some ms =>
          match s1'.engineRead w o.pc ssp (parts32 src.toNat size.toNat (size.toNat + 1)) [] with
          | (s2, .error (.absent, a)) => s2.holdOp o w a 1
          | (s2, .error (.fail c, a)) => fail s2 c (accDetail c) 0 a
          | (s2, .error (.ok _, a)) => fail s2 5 5 0 a
          | (s2, .ok bs) =>
            if ms.any fun m => s2.windowFull o.loc.die m then s2.updOp o.id fun o => { o with stage := .waiting }
            else
              let (s3, sent) := s2.sendMembers o (.stage dst.toNat bs (pairFlag s0)) ms
              (s3.updOp o.id fun o => { o with cmd := .fabric (.rstm ssp s0 s1 dst src size sent), stage := .sent }).settleMembers o.id
  | .coll _ _ _ => s

end Sys2Proof.Machine
end

