-- ==== Sys2Proof/Machine/Engine.lean ====
section
/-! DEFINITION. Accesses of the engines of a cluster or die (07_memory.md R155, R164): a computation over the state
that may end early, with a failure or on a page that is not present. What it did before it ended stands. -/

namespace Sys2Proof.Machine

/-- Whether an operation's preconditions have all been resolved (R185). -/
def Op.resolved (o : Op) : Bool := o.pre.all fun p => match p.2 with | .on _ => false | _ => true

/-- The record an operation takes from its poisoned preconditions: that of the lowest-numbered token (R185). -/
def Op.prePoison (o : Op) : Option Nat :=
  (o.pre.foldl (fun (best : Option (Nat × Nat)) p => match p.2 with
    | .poisoned r => (match best with
      | some (k, r0) => if p.1 < k then some (p.1, r) else some (k, r0)
      | none => some (p.1, r))
    | _ => best) none).map Prod.snd

/-- Whether an operation's accesses come after every access of its context that stands before it (R165, R172, R181, R182). -/
def State.inTurn (s : State) (o : Op) : Bool :=
  (match o.cmd with | .inactive => true | .access .xlat _ _ _ => true | _ => false) || !s.gatedBefore o.ctx o.id

/-- Whether a command that its engine starts may be started: its preconditions are done, and it is its turn. -/
def State.mayStart (s : State) (o : Op) : Bool := o.stage == .waiting && o.resolved && o.prePoison.isNone && s.inTurn o

/-- Why an engine's command ends before its end: a failure as its record gives it, or a page to wait for,
with how far the command has come. -/
inductive Stop where
  | fail (cause detail addr aux : Nat)
  | hold (va kind pos : Nat)
deriving DecidableEq, Repr

/-- A step of an engine. -/
abbrev Eng (α : Type) := ExceptT Stop (StateM State) α

/-- End with a failure. -/
def Eng.fail (cause detail addr aux : Nat) : Eng α := throw (.fail cause detail addr aux)

/-- Fail unless a condition holds. -/
def Eng.need (b : Bool) (cause detail addr aux : Nat) : Eng Unit := if b then pure () else Eng.fail cause detail addr aux

/-- Check and translate an access of n bytes, aligned to n; the DETAIL of a failure is that of its cause. An address is exact
(00_scope.md: pseudocode arithmetic is exact): one of 2^64 or more fails the check of every space (R131). -/
def Eng.chk (w : Who) (space n addr : Nat) (t : AccessType) (aux : Nat) (atomic : Bool := false) : Eng Nat := fun s =>
  if 2 ^ 64 ≤ addr then (.error (.fail 5 (accDetail 5) addr aux), s)
  else match s.tryAccess w space n (BitVec.ofNat 64 addr) t atomic with
  | (s1, .ok pa) => (.ok pa, s1)
  | (s1, .fail c) => (.error (.fail c (accDetail c) addr aux), s1)
  | (s1, .absent) => (.error (.hold addr t.notice aux), s1)

/-- Read an n-byte element at a physical address, failing where it is uncorrectable. -/
def Eng.get (pa n addr aux : Nat) (pc : W64) : Eng Nat := fun s =>
  if s.badRead pa n then (.error (.fail 0x0B 6 addr aux), s.uncHit pa pc 0) else (.ok (s.readN pa n), s)

/-- Read an n-byte element at an address. -/
def Eng.word (w : Who) (space n addr aux : Nat) (pc : W64) : Eng Nat := do
  let pa ← Eng.chk w space n addr .read aux
  Eng.get pa n addr aux pc

/-- Change the state. -/
def Eng.act (g : State → State) : Eng Unit := fun s => (.ok (), g s)

/-- Read the state. -/
def Eng.see (g : State → α) : Eng α := fun s => (.ok (g s), s)

/-- Do a step for each element of a list, in order. -/
def Eng.each (xs : List α) (g : α → Eng Unit) : Eng Unit :=
  match xs with
  | [] => pure ()
  | x :: r => do g x; Eng.each r g

/-- Do a step for each element of a list, in order, and keep the results. -/
def Eng.collect (xs : List α) (g : α → Eng β) : Eng (List β) :=
  match xs with
  | [] => pure []
  | x :: r => do
    let y ← g x
    let ys ← Eng.collect r g
    pure (y :: ys)

/-- Run a command: what it leaves, and why it ended early if it did. -/
def Eng.outcome (e : Eng Unit) (s : State) : State × Option Stop :=
  match e s with
  | (.ok _, s1) => (s1, none)
  | (.error x, s1) => (s1, some x)

/-- End an operation as its engine left it: done, failed, or held on a page (R155). -/
def State.endEngine (s : State) (o : Op) (w : Who) (r : Option Stop) : State :=
  match r with
  | none => s.finishOp o.id (.ok [])
  | some (.fail c d a x) => s.finishOp o.id (.fail c d 0 (BitVec.ofNat 64 a) (BitVec.ofNat 64 x))
  | some (.hold va k x) => s.holdOp o w va k x

end Sys2Proof.Machine
end

