-- ==== Sys2Proof/Machine/GrammarEngine.lean ====
section
/-! DEFINITION. The grammar engine of a cluster (12_grammar.md R249 to R265): headers, rules, rows, the rule-value
file and its hold. -/

namespace Sys2Proof.Machine

/-- The fields of a grammar header (Table 12.1); `bad` is the offset of its first malformed word, if it has one (R250, R263). -/
structure GHead where
  vt : Nat
  nrules : Nat
  nrows : Nat
  ncols : Nat
  rules : Nat
  ruleBytes : Nat
  rows : Nat
  bad : Option Nat
deriving DecidableEq, Repr

/-- Whether a count of a header lies outside its range (R250). -/
def badCount (x most : Nat) : Bool := x == 0 || decide (most < x)

/-- Read a header from its bytes; `n` is how many bytes of it there are (64 of a header, 48 of a descriptor's copy). -/
def gHead (bs : List Byte) (n : Nat) : GHead :=
  let at' := fun (o k : Nat) => leNat ((bs.drop o).take k)
  let w0 := at' 0 4
  let vt := nbits w0 19 16
  { vt := vt, nrules := at' 4 4, nrows := at' 8 4, ncols := at' 0x0C 4, rules := at' 0x10 8, ruleBytes := at' 0x18 8
    rows := at' 0x20 8
    bad := (([(0, nbits w0 31 20 != 0 || nbits w0 15 0 != 1 || decide (3 < vt)), (4, badCount (at' 4 4) 131072),
        (8, badCount (at' 8 4) 65536), (0x0C, badCount (at' 0x0C 4) 32768), (0x10, at' 0x10 8 % 4 != 0),
        (0x20, at' 0x20 8 % 4 != 0)]
      ++ (List.range ((n - 0x28) / 4)).map fun i => (0x28 + 4 * i, at' (0x28 + 4 * i) 4 != 0)).find? fun (q : Nat × Bool) => q.2).map Prod.fst }

/-- The conversion type of a terminal value type (R252). -/
def gType (vt : Nat) : Nat := match vt with | 0 => 2 | 1 => 3 | 2 => 4 | _ => 5

/-- A negative zero becomes zero. -/
def plusZero (x : Nat) : Nat := if x == 0x80000000 then 0 else x

/-- Sum of R254. -/
def gSum (a t : Nat) : Nat := plusZero (fenc 0 0 (fsum [fdec 0 a, fdec 0 t] false))

/-- A terminal's term (R254): value times x, rounded once, with no E8M0 scale, for which R250 to R254 give no place (log entry
84). -/
def gTerm (vt value x : Nat) : Nat := plusZero (fenc 0 0 ((fdec (gType vt) value).mul (fdec 0 x)))

/-- AUX of a record: rule and item. -/
def gAux (rule item : Nat) : Nat := rule + 2 ^ 32 * item

/-- The physical address of an entry of a cluster's rule-value file (R256). -/
def rvPa (l : Loc) (k : Nat) : Nat := mapBase l.die l.cluster 25 + 4 * k

/-- A word that a grammar command reads (R264): read once. A command that was held takes the words it had read, in the order in
which it read them, and reads on from there (log entry 59). -/
def Eng.once (l : Loc) (rd : Eng Nat) : Eng Nat := fun s =>
  let k := clusterKey l
  let took := fun (s : State) (v : Nat) =>
    let c := s.cluster k
    s.setCluster k { c with gread := v :: c.gread, gkept := c.gkept.tail }
  match (s.cluster k).gkept with
  | v :: _ => (.ok v, took s v)
  | [] =>
    match rd s with
    | (.ok v, s1) => (.ok v, took s1 v)
    | (.error x, s1) => (.error x, s1)

/-- What a cluster keeps of the words that its grammar command has read: all of them where it is held, none where it is over. -/
def State.keepRead (s : State) (l : Loc) (held : Bool) : State :=
  let c := s.cluster (clusterKey l)
  s.setCluster (clusterKey l) { c with gread := [], gkept := if held then c.gread.reverse ++ c.gkept else [] }

/-- The bytes of n words at an aligned place, read word by word (R263, R264). -/
def Eng.block (l : Loc) (pa addr n : Nat) (pc : W64) : Eng (List Byte) := do
  let ws ← Eng.collect (List.range n) fun i => Eng.once l (Eng.get (pa + 4 * i) 4 (addr + 4 * i) 0 pc)
  pure (ws.flatMap fun v => leBytes 4 v)

/-- One item of rule r of declared depth d (R254): checked, and its terms by batch lane. `x` gives x[c][b]; `bw` is 0
for GBIND, which computes nothing. -/
def Eng.item (l : Loc) (h : GHead) (bw : Nat) (x : Nat → Nat → Nat) (ds : List Nat) (r d i p it : Nat)
    (pc : W64) : Eng (List Nat) := do
  let aux := gAux r i
  let v := nbits it 30 0
  if it.testBit 31 then
    Eng.need (decide (v < r)) 7 0 p aux
    Eng.need (decide (nth ds v 0 + 1 ≤ d)) 8 2 p aux
    Eng.collect (List.range bw) fun b => Eng.get (rvPa l (v * bw + b)) 4 (rvPa l (v * bw + b)) aux pc
  else
    Eng.need (decide (nbits it 30 16 < h.ncols)) 2 0x43 p aux
    pure ((List.range bw).map fun b => gTerm h.vt (nbits it 15 0) (x (nbits it 30 16) b))

/-- The items of a rule from item i on, with the sums so far. -/
def Eng.items (w : Who) (l : Loc) (h : GHead) (bw : Nat) (x : Nat → Nat → Nat) (ds : List Nat) (r d p : Nat)
    (pc : W64) (i n : Nat) (sums : List Nat) : Eng (List Nat) :=
  match n with
  | 0 => pure sums
  | k + 1 => do
    let a := p + 4 * i
    let it ← Eng.once l (Eng.word w 0 4 a (gAux r i) pc)
    let ts ← Eng.item l h bw x ds r d i a it pc
    let s := if i == 1 then ts else (sums.zip ts).map fun q => gSum q.1 q.2
    Eng.items w l h bw x ds r d p pc (i + 1) k s

/-- Evaluate rules r, r + 1, ... from address p (R254); the declared depths. -/
def Eng.rules (w : Who) (l : Loc) (h : GHead) (bw : Nat) (x : Nat → Nat → Nat) (pc : W64) (r n p : Nat)
    (ds : List Nat) : Eng (List Nat) :=
  match n with
  | 0 => do
    Eng.need (p == h.rules + h.ruleBytes) 2 0x45 0 (gAux (h.nrules - 1) 0)
    pure ds
  | k + 1 => do
    let word ← Eng.once l (Eng.word w 0 4 p (gAux r 0) pc)
    let cnt := nbits word 15 0
    let d := nbits word 23 16
    Eng.need (cnt != 0 && cnt ≤ 4096 && nbits word 31 24 == 0 && decide (p + 4 * cnt + 4 ≤ h.rules + h.ruleBytes)) 2 0x42 p (gAux r 0)
    Eng.need (d != 0 && d ≤ 64) 8 1 p (gAux r 0)
    let sums ← Eng.items w l h bw x ds r d p pc 1 cnt []
    Eng.each ((List.range bw).zip sums) fun q => Eng.act fun s => s.wr (rvPa l (r * bw + q.1)) (leBytes 4 q.2)
    Eng.rules w l h bw x pc (r + 1) k (p + 4 * (cnt + 1)) (ds ++ [d])

/-- Read and check the row table (R253). -/
def Eng.rowTable (w : Who) (l : Loc) (h : GHead) (pc : W64) : Eng (List Nat) :=
  Eng.collect (List.range h.nrows) fun i => do
    let a := h.rows + 4 * i
    let e ← Eng.once l (Eng.word w 0 4 a 0 pc)
    Eng.need (e.testBit 31 || decide (nbits e 30 0 < h.nrules)) 2 0x44 a (gAux i 0)
    pure e

/-- The descriptor's space (R258). -/
def gSpace (dglb : Bool) : Nat := if dglb then 0 else 1

/-- The check of GBIND's descriptor address (R259): its physical address. -/
def Eng.gDesc (w : Who) (dglb : Bool) (dsc : Nat) (t : AccessType) : Eng Nat := Eng.chk w (gSpace dglb) 64 dsc t 0

/-- GBIND after the check of its descriptor address (R259). -/
def Eng.gbindBody (w : Who) (l : Loc) (pa hdr : Nat) (pc : W64) : Eng Unit := do
  let hpa ← Eng.chk w 0 64 hdr .read 0
  let bs ← Eng.block l hpa hdr 16 pc
  let h := gHead bs 64
  Eng.need h.bad.isNone 2 0x41 (hdr + h.bad.getD 0) 0
  let ds ← Eng.rules w l h 0 (fun _ _ => 0) pc 0 h.nrules h.rules []
  let _ ← Eng.rowTable w l h pc
  Eng.act fun s => s.wr pa (bs.take 48 ++ leBytes 4 1 ++ leBytes 4 (ds.foldl max 0) ++ leBytes 8 hdr)

/-- Whether a GBIND that is held has passed the check of its descriptor address: that stands above
the 64 bits of AUX that it keeps (`performGbind`). -/
def Op.pastDescriptor (o : Op) : Bool := match o.stage with | .held [a] _ _ _ _ => a.x.2 == 1 | _ => false

/-- A GBIND that ends in a failure after the check of its descriptor address, by GABORT and REJECT too, writes STATUS 0 (R259);
where the descriptor's page is no longer there, it writes nothing. -/
def State.unbind (s : State) (o : Op) : State :=
  match o.cmd with
  | .grammar (.bind dglb dsc _) =>
    if !o.pastDescriptor then s
    else
    match Eng.gDesc (o.who.as 3) dglb dsc.toNat .write s with
    | (.ok pa, s1) => s1.wr (pa + 0x30) (leBytes 4 0)
    | (.error _, s1) => s1
  | _ => s

/-- GBIND (R259), from the check of its descriptor address on. -/
def State.performGbind (s : State) (o : Op) (w : Who) (dglb : Bool) (dsc hdr : W64) : State × Option Stop :=
  match Eng.gDesc w dglb dsc.toNat .write s with
  | (.error x, s1) => (s1, some x)
  | (.ok pa, s1) =>
    match Eng.outcome (Eng.gbindBody w o.loc pa hdr.toNat o.pc) s1 with
    | (s2, none) => (s2, none)
    | (s2, some (.hold va k i)) => (s2, some (.hold va k (i + 2 ^ 64)))
    | (s2, some x) => (s2.wr (pa + 0x30) (leBytes 4 0), some x)

/-- Whether a stop holds its command on a page. -/
def Stop.holds (x : Stop) : Bool := match x with | .hold _ _ _ => true | _ => false

/-- The checked addresses of the x range, with the physical ones (R260). -/
def Eng.xRange (w : Who) (space x n : Nat) : Eng (List (Nat × Nat)) :=
  Eng.collect (List.range n) fun i => do
    let pa ← Eng.chk w space 4 (x + 4 * i) .read 0
    pure (x + 4 * i, pa)

/-- The checked addresses of the y range, with the physical ones (R260): where an atomic may be performed (10_atomics.md R206), the
targets that both rules bar being the same. -/
def Eng.yRange (w : Who) (space : Nat) (add : Bool) (y n : Nat) : Eng (List (Nat × Nat)) :=
  Eng.collect (List.range n) fun i => do
    let a := y + 4 * i
    let pa ← Eng.chk w space 4 a (if add then .rmw else .write) 0 true
    pure (a, pa)

/-- One element of y (R260). -/
def Eng.yWrite (l : Loc) (add : Bool) (bw e b a pa : Nat) (pc : W64) : Eng Unit := do
  let r := nbits e 30 0
  let v ← if e.testBit 31 then pure 0 else Eng.get (rvPa l (r * bw + b)) 4 (rvPa l (r * bw + b)) (gAux r 0) pc
  if add then
    if e.testBit 31 then pure ()
    else do
      let old ← Eng.get pa 4 a (gAux r 0) pc
      Eng.act fun s => s.wr pa (leBytes 4 (gSum old v))
  else Eng.act fun s => s.wr pa (leBytes 4 v)

/-- GMV and GMVA (R260): the rules evaluated, with NRULES of the grammar. Each word of the descriptor, x and the tables is read once
(R264); one held after it had read x does not check x's range again. -/
def Eng.gmv (w : Who) (l : Loc) (add dglb : Bool) (bw xsp ysp dsc x y : Nat) (pc : W64) : Eng Nat := do
  let dpa ← Eng.gDesc w dglb dsc .read
  let bs ← Eng.block l dpa dsc 16 pc
  Eng.need (leNat ((bs.drop 0x30).take 4) == 1) 2 0x40 (dsc + 0x30) 0
  let h := gHead bs 48
  Eng.need h.bad.isNone 2 0x41 (dsc + h.bad.getD 0) 0
  Eng.need (decide (h.nrules * bw ≤ 131072)) 9 0 0 0
  Eng.need (x % 4 == 0) 4 4 x 0
  Eng.need (y % 4 == 0) 4 4 y 0
  let again ← Eng.see fun s => !(s.cluster (clusterKey l)).gkept.isEmpty
  let pas ← if again then pure (List.replicate (h.ncols * bw) (0, 0)) else Eng.xRange w xsp x (h.ncols * bw)
  let ys ← Eng.yRange w ysp add y (h.nrows * bw)
  let xs ← Eng.collect pas fun q => Eng.once l (Eng.get q.2 4 q.1 0 pc)
  let _ ← Eng.rules w l h bw (fun c b => nth xs (c * bw + b) 0) pc 0 h.nrules h.rules []
  let rows ← Eng.rowTable w l h pc
  Eng.each ((List.range rows.length).zip rows) fun r =>
    Eng.each (List.range bw) fun b =>
      let q := nth ys (r.1 * bw + b) (0, 0)
      Eng.yWrite l add bw r.2 b q.1 q.2 pc
  pure h.nrules

/-- The hold of a context in its cluster, if it has it. -/
def State.holdOf (s : State) (o : Op) : Option GHold := (s.liveHold (clusterKey o.loc)).filter fun h => h.ctx == o.ctx

/-- A hold past its limit is broken (R257). -/
def State.expireHold (s : State) (k : Nat) : State :=
  let c := s.cluster k
  match c.hold, s.liveHold k with
  | some h, none => s.setCluster k { c with hold := none, broken := c.broken ++ [h.ctx] }
  | _, _ => s

/-- End a context's hold (R257). -/
def State.dropHold (s : State) (k ctx : Nat) : State :=
  let s := s.expireHold k
  let c := s.cluster k
  match c.hold with
  | some h => if h.ctx == ctx then s.setCluster k { c with hold := none } else s
  | none => s

/-- A command with .HOLD that ends done holds the file for its context, unless that was saved or has ended (R257). Its time begins
when the command completes into its token (`State.holdBegins`). -/
def State.makeHold (s : State) (o : Op) (nrules bw : Nat) : State :=
  let k := clusterKey o.loc
  let s := s.expireHold k
  let c := s.cluster k
  match s.ctx? o.ctx with
  | some x =>
    if x.saved || x.ended then s
    else s.setCluster k { c with hold := some { ctx := o.ctx, nrules := nrules, bw := bw, since := none }
                                 broken := c.broken.filter fun i => i != o.ctx }
  | none => s

/-- The time of a hold begins with the completion of the command that made it (R257). -/
def State.holdBegins (s : State) (k ctx : Nat) : State :=
  let c := s.cluster k
  match c.hold with
  | some h =>
    if h.ctx == ctx && h.since.isNone then s.setCluster k { c with hold := some { h with since := some (Table.get s.cyc k 0) } } else s
  | none => s

/-- The entries of the file after a failed command (R256): free values (log entry 26). -/
def State.scrambleFile (s : State) (l : Loc) : State :=
  let i := s.freeIdx
  let s1 := s.putBytes (rvPa l 0) ((List.range 131072).flatMap fun k => leBytes 4 (Config.freeWord i k).toNat)
  { s1 with freeIdx := i + 1 }

/-- GMV and GMVA performed by the engine. -/
def State.performGmv (s : State) (o : Op) (w : Who) (add hold dglb : Bool) (bw xsp ysp : Nat) (dsc x y : W64) : State :=
  let s0 := (s.dropHold (clusterKey o.loc) o.ctx).updOp o.id fun o => { o with stage := .running 0 }
  match Eng.gmv w o.loc add dglb bw xsp ysp dsc.toNat x.toNat y.toNat o.pc s0 with
  | (.ok n, s1) => ((if hold then s1.makeHold o n bw else s1).keepRead o.loc false).finishOp o.id (.ok [])
  | (.error (.hold va k i), s1) => (s1.keepRead o.loc true).holdOp o w va k i
  | (.error x, s1) => ((s1.keepRead o.loc false).scrambleFile o.loc).endEngine o w (some x)

/-- GRVRD's copy (R261). -/
def Eng.grvrd (w : Who) (l : Loc) (space dst first count bw : Nat) (pc : W64) : Eng Unit := do
  Eng.need (count == 0 || dst % 4 == 0) 4 4 dst 0
  let pas ← Eng.collect (List.range (count * bw)) fun i => Eng.chk w space 4 (dst + 4 * i) .write 0
  let xs ← Eng.collect (List.range (count * bw)) fun i =>
    Eng.get (rvPa l (first * bw + i)) 4 (rvPa l (first * bw + i)) 0 pc
  Eng.each (pas.zip xs) fun q => Eng.act fun s => s.wr q.1 (leBytes 4 q.2)

/-- Whether an operation is a grammar command of the engine's queue. -/
def Op.isGrammar (o : Op) : Bool := match o.cmd with | .grammar _ => true | _ => false

/-- Whether a command has ended. -/
def Op.over (o : Op) : Bool := match o.stage with | .finished _ => true | _ => false

/-- Whether an operation is a grammar read-out that ends its context's hold when it completes (R257). -/
def Op.endsHold (o : Op) : Bool := match o.cmd with | .grammar (.grvrd false _ _ _ _) => true | _ => false

/-- R249: whether no earlier grammar command of an operation's context is queued or executing; one that is to end the hold of the
context, which keeps other contexts off, has its completion before a later command. -/
def State.grammarTurn (s : State) (o : Op) : Bool :=
  !s.ops.any fun x => x.ctx == o.ctx && decide (x.id < o.id) && x.isGrammar && (!x.over || (x.endsHold && (s.holdOf x).isSome))

/-- GRVRD's copy, after its tests, which are made once: one held on a page keeps the holding command's BW (R261). -/
def State.copyGrvrd (s : State) (o : Op) (w : Who) (space : Nat) (dst first count : W64) (bw : Nat) : State :=
  match Eng.outcome (Eng.grvrd w o.loc space dst.toNat first.toNat count.toNat bw o.pc) s with
  | (s1, some (.hold va k _)) => s1.holdOp o w va k bw
  | (s1, r) => s1.endEngine o w r

/-- GRVRD at the moment it becomes eligible (R261). -/
def State.performGrvrd (s : State) (o : Op) (w : Who) (space : Nat) (dst first count : W64) : State :=
  match s.holdOf o with
  | none =>
    let broken := ((s.expireHold (clusterKey o.loc)).cluster (clusterKey o.loc)).broken.contains o.ctx
    s.finishOp o.id (.fail 5 (if broken then 0x12 else 0x10) 0 0 0)
  | some h =>
    if h.nrules < first.toNat + count.toNat then s.finishOp o.id (.fail 5 0x11 0 0 0)
    else s.copyGrvrd o w space dst first count h.bw

/-- Start a GRVRD if it is eligible. -/
def State.startGrvrd (s : State) (o : Op) (w : Who) (space : Nat) (dst first count : W64) : State :=
  if s.grammarTurn o then s.performGrvrd o w space dst first count else s

/-- Whether a command is started by the engine at GRAMMAR_COMMAND_START. -/
def Op.gEngine (o : Op) : Bool := match o.cmd with | .grammar (.grvrd _ _ _ _ _) => false | .grammar _ => true | _ => false

/-- Whether the engine of a cluster may start a command (R249, R257). -/
def State.grammarReady (s : State) (o : Op) : Bool :=
  o.gEngine && s.mayStart o && s.grammarTurn o
    && (s.liveHold (clusterKey o.loc)).all fun h => h.ctx == o.ctx

/-- Whether the engine of a cluster is executing a command (one held on a page is). -/
def State.grammarBusy (s : State) (k : Nat) : Bool :=
  s.ops.any fun x => clusterKey x.loc == k && x.isGrammar && !x.over && x.stage != .waiting

/-- Perform a command of the engine, from its beginning; one that was held takes the words it had read (R264). -/
def State.performGrammar (s : State) (o : Op) : State :=
  let w := o.who.as 3
  match o.cmd with
  | .grammar (.bind dglb dsc hdr) =>
    let (s1, r) := (s.updOp o.id fun o => { o with stage := .running 0 }).performGbind o w dglb dsc hdr
    (s1.keepRead o.loc (r.any Stop.holds)).endEngine o w r
  | .grammar (.mv add hold dglb bw xsp ysp dsc x y) => s.performGmv o w add hold dglb bw xsp ysp dsc x y
  | .grammar (.grvrd _ sp dst first count) => s.performGrvrd o w sp dst first count
  | _ => s

/-- GRAMMAR_COMMAND_START: the oldest eligible command of its cluster, while the engine is free (R249). -/
def State.startGrammar (s : State) (id : Nat) : Option State :=
  match s.op? id with
  | none => none
  | some o =>
    if s.grammarReady o && !s.grammarBusy (clusterKey o.loc)
        && !(s.ops.any fun x => clusterKey x.loc == clusterKey o.loc && decide (x.id < o.id) && s.grammarReady x) then
      some ((s.keepRead o.loc false).performGrammar o)
    else none

end Sys2Proof.Machine
end

