-- ==== Sys2Proof/Machine/CopyEngine.lean ====
section
/-! DEFINITION. The copy engines of a cluster (14_copy_streams.md R292 to R297, R304, R311 to R315): the order of
their queues, copies in pieces, gathers and scatters, copies into a ring, and prefix decoding. -/

namespace Sys2Proof.Machine

/-- The pieces of n bytes at an address that cross no 32-byte boundary: offset and length. -/
def pieces (d n off fuel : Nat) : List (Nat × Nat) :=
  match fuel with
  | 0 => []
  | k + 1 =>
    if n ≤ off then []
    else
      let l := min (n - off) (32 - (d + off) % 32)
      (off, l) :: pieces d n (off + l) k

/-- One end of a move: a space and an address in it, or a physical address (a ring's slot). `ok4` tells that the row
it belongs to may lie in a window that is moved in words (R294). -/
structure End where
  phys : Bool
  space : Nat
  addr : Nat
  ok4 : Bool
deriving DecidableEq, Repr

/-- Move by an offset. -/
def End.plus (e : End) (n : Nat) : End := { e with addr := e.addr + n }

/-- Whether a place is a window that copies reach in whole words (R294). -/
def State.wordWindow (s : State) (pa : Nat) : Bool :=
  match s.place pa with
  | .map _ _ _ _ .tile | .map _ _ _ _ .scale | .map _ _ _ _ .acc => true
  | _ => false

/-- The physical address of one end of a piece (R294, R297); a ring's slot meets the access tables (19_device.md R400). -/
def Eng.endPa (w : Who) (e : End) (t : AccessType) (pos : Nat) : Eng Nat :=
  if e.phys then do
    let ok ← Eng.see fun s => s.ringPermits w e.addr 1 t.reads t.writes
    Eng.need ok 5 5 e.addr pos
    pure e.addr
  else do
    let pa ← Eng.chk w e.space 1 e.addr t pos
    let bad ← Eng.see fun s => e.space == 3 && s.wordWindow pa && !e.ok4
    Eng.need (!bad) 4 4 e.addr pos
    pure pa

/-- Read a piece of the source; the record of a failure names the failing byte (R315). -/
def Eng.sourceBytes (w : Who) (src : End) (pos n : Nat) (pc : W64) : Eng (List Byte) := do
  let spa ← Eng.endPa w src .read pos
  let bad ← Eng.see fun s => (List.range n).find? fun i => s.badRead (spa + i) 1
  match bad with
  | some i => do
    Eng.act fun s => s.uncHit (spa + i) pc 0
    Eng.fail 0x0B 6 (src.addr + i) (pos + i)
  | none => Eng.see fun s => s.readBytes spa n

/-- Copy one piece, which lies in one aligned 32-byte part of the destination and is written at once, when all of it has been
read (R167). -/
def Eng.piece (w : Who) (src dst : End) (pos n : Nat) (pc : W64) : Eng Unit := do
  let bs ← Eng.collect (pieces src.addr n 0 (n + 1)) fun q => Eng.sourceBytes w (src.plus q.1) (pos + q.1) q.2 pc
  let dpa ← Eng.endPa w dst .write pos
  Eng.act fun s => s.wr dpa bs.flatten

/-- One row of a copy: its linear offset, its ends, its length. -/
structure Row where
  pos : Nat
  src : End
  dst : End
  len : Nat

/-- Copy a row, from the piece with linear offset `start` on. -/
def Eng.row (w : Who) (r : Row) (start : Nat) (pc : W64) : Eng Unit :=
  Eng.each ((pieces r.dst.addr r.len 0 (r.len + 1)).filter fun q => decide (start < r.pos + q.1 + q.2)) fun q =>
    Eng.piece w (r.src.plus q.1) (r.dst.plus q.1) (r.pos + q.1) q.2 pc

/-- The rows of a copy in the order of R294. -/
def copyRows (dst src : End) (rowBytes rows planes sp dp sps dps : Nat) : List Row :=
  (List.range planes).flatMap fun z => (List.range rows).map fun y =>
    let sa := z * sps + y * sp
    let da := z * dps + y * dp
    { pos := (z * rows + y) * rowBytes, src := { src with addr := src.addr + sa, ok4 := (src.addr + sa) % 4 == 0 && rowBytes % 4 == 0 }
      dst := { dst with addr := dst.addr + da, ok4 := (dst.addr + da) % 4 == 0 && rowBytes % 4 == 0 }, len := rowBytes }

/-- Whether two ranges, each from its lowest to its highest byte, overlap (R295). -/
def spansMeet (a b c d : Nat) : Bool := decide (a < d) && decide (c < b)

/-- R294, R295: a copy whose shape or overlap breaks the rules. -/
def copyBad (dsp ssp dst src rowBytes rows planes sp dp sps dps : Nat) : Bool :=
  (2 ≤ rows && dp < rowBytes) || (2 ≤ planes && dps < rows * dp)
    || (dsp == ssp && planes * rows * rowBytes != 0
      && spansMeet src (src + (planes - 1) * sps + (rows - 1) * sp + rowBytes) dst (dst + (planes - 1) * dps + (rows - 1) * dp + rowBytes))

/-- The element moves of a CPYG with its indices (R296). -/
def gatherRows (scatter : Bool) (dst src : End) (esz : Nat) (idx : List Nat) : List Row :=
  ((List.range idx.length).zip idx).map fun q =>
    let sa := src.addr + (if scatter then q.1 else q.2) * esz
    let da := dst.addr + (if scatter then q.2 else q.1) * esz
    { pos := q.1 * esz, src := { src with addr := sa, ok4 := sa % 4 == 0 && esz % 4 == 0 }
      dst := { dst with addr := da, ok4 := da % 4 == 0 && esz % 4 == 0 }, len := esz }

/-- R295 for a CPYG. -/
def gatherBad (scatter : Bool) (dsp ssp dst src esz : Nat) (idx : List Nat) : Bool :=
  let lo := idx.foldl min (idx.headD 0)
  let hi := idx.foldl max 0
  let n := idx.length
  dsp == ssp && n != 0
    && (if scatter then spansMeet src (src + n * esz) (dst + lo * esz) (dst + (hi + 1) * esz)
        else spansMeet (src + lo * esz) (src + (hi + 1) * esz) dst (dst + n * esz))

/-- One index of the list, read byte by byte. -/
def Eng.index (w : Who) (isp list i width esz : Nat) (pc : W64) : Eng Nat := do
  let bs ← Eng.collect (List.range width) fun j => Eng.word w isp 1 (list + i * width + j) (i * esz) pc
  pure (leNat (bs.map (BitVec.ofNat 8)))

/-- The parts of a row, each moved at once (R167, R297). -/
def Row.parts (r : Row) : List Row :=
  (pieces r.dst.addr r.len 0 (r.len + 1)).map fun q =>
    { pos := r.pos + q.1, src := r.src.plus q.1, dst := r.dst.plus q.1, len := q.2 }

/-- The aligned 32-byte part of the destination that a move lies in. -/
def Row.part (r : Row) : Nat := r.dst.addr / 32

/-- Moves grouped by the part that they lie in, those of a part standing together. -/
def adjacentParts (rs : List Row) : List (List Row) :=
  rs.foldr (fun r gs => match gs with
    | (x :: g) :: rest => if x.part == r.part then (r :: x :: g) :: rest else [r] :: gs
    | _ => [r] :: gs) []

/-- Moves grouped by the part that they lie in, wherever they stand; those of a part keep their order. -/
def scatteredParts (rs : List Row) : List (List Row) :=
  ((rs.map Row.part).eraseDups).map fun k => rs.filter fun r => r.part == k

/-- Write the moves of one part of the destination, which no access finds half written: all of it has been read before (R167). -/
def Eng.part (w : Who) (rs : List Row) (pc : W64) : Eng Unit := do
  let ps ← Eng.collect rs fun r => do
    let bs ← Eng.collect (pieces r.src.addr r.len 0 (r.len + 1)) fun q => Eng.sourceBytes w (r.src.plus q.1) (r.pos + q.1) q.2 pc
    let dpa ← Eng.endPa w r.dst .write r.pos
    pure (dpa, bs.flatten)
  Eng.act fun s => ps.foldl (fun s p => s.wr p.1 p.2) s

/-- What is left of a command's parts: all for 0, and from the part that holds offset k on for k + 1. -/
def partsFrom (gs : List (List Row)) (place : Nat) : List (List Row) :=
  match place with
  | 0 => gs
  | k + 1 => gs.dropWhile fun g => !g.any fun r => decide (r.pos ≤ k) && decide (k < r.pos + r.len)

/-- A hold in a part of a command keeps the failing offset, and beside it (above bit 63) the place to go on from. -/
def Eng.heldWith (g : Nat → Nat) (e : Eng α) : Eng α := fun s =>
  match e s with
  | (.error (.hold va k p), s1) => (.error (.hold va k (p + 2 ^ 64 * g p)), s1)
  | r => r

/-- CPY and CPYG outside rings, from a place on (R294 to R297). The parts of the destination are written in some order. Where a
scatter names a place twice, the element that some order puts last remains. -/
def Eng.copy (w : Who) (op : Nat) (c : CCmd) (place : Nat) (pc : W64) : Eng Unit :=
  let move := fun (gs : List (List Row)) =>
    Eng.heldWith (fun p => p + 1) (Eng.each (partsFrom (freeOrder op gs) place) fun g => Eng.part w g pc)
  match c with
  | .cpy _ dsp ssp dst src rb n planes sp dp sps dps bad => do
    Eng.need (!bad && !copyBad dsp ssp dst src rb n planes sp dp sps dps) 2 0x60 0 0
    move (adjacentParts ((copyRows ⟨false, dsp, dst, true⟩ ⟨false, ssp, src, true⟩ rb n planes sp dp sps dps).flatMap Row.parts))
  | .cpyg scatter dsp ssp isp dst src list count esz wide bad => do
    Eng.need (!bad) 2 0x60 0 0
    let idx ← Eng.heldWith (fun _ => place) (Eng.collect (List.range count) fun i => Eng.index w isp list i (if wide then 8 else 4) esz pc)
    Eng.need (!gatherBad scatter dsp ssp dst src esz idx) 2 0x60 0 0
    let rs := gatherRows scatter ⟨false, dsp, dst, true⟩ ⟨false, ssp, src, true⟩ esz idx
    move (if scatter then scatteredParts ((freeOrder op rs).flatMap Row.parts) else adjacentParts (rs.flatMap Row.parts))
  | .hdec _ _ _ _ => pure ()

/-- Hold a copy on a page: the failing offset, a ring's slot word and the ring's address stay with it, and in `lane` the
place it goes on from. -/
def State.holdCopy (s : State) (o : Op) (w : Who) (va kind pos : Nat) (slot : W64) (pa : Nat) : State :=
  let a : Acc := { lane := pos / 2 ^ 64, addr := va, x := (BitVec.ofNat 64 pos, slot), y := BitVec.ofNat 64 pa }
  (s.postNotice w va kind).updOp o.id fun o => { o with stage := .held [a] [] none (va / 2 ^ 16) kind }

/-- CPY or CPYG performed by its engine, from a place on. -/
def State.performCopy (s : State) (o : Op) (c : CCmd) (place : Nat) : State :=
  let w := o.who.as 2
  match Eng.outcome (Eng.copy w o.id c place o.pc) s with
  | (s1, some (.hold va k pos)) => s1.holdCopy o w va k pos 0 0
  | (s1, r) => s1.endEngine o w r

/-! CPY.1D.RING (R304). -/

/-- The space, descriptor, source space, source and size of a copy into a ring. -/
def CCmd.ring? (c : CCmd) : Option (Nat × Nat × Nat × Nat × Nat) :=
  match c with
  | .cpy true dsp ssp dst src rb _ _ _ _ _ _ _ => some (dsp, dst, ssp, src, rb)
  | _ => none

/-- The engine takes a CPY.RING: its producer claim queues at the ring's home. -/
def State.startRingCopy (s : State) (o : Op) (w : Who) (dsp dst size : Nat) : State :=
  let base := BitVec.ofNat 64 dst
  match s.ringAt w dsp base with
  | (s1, .error (c, d)) => s1.finishOp o.id (.fail c d 0 base 0)
  | (s1, .ok pa) =>
    if s1.badRead pa 64 then (s1.uncHit pa o.pc 0).finishOp o.id (.fail 0x0B 6 0 base 0)
    else if s1.ringMalformed w (s1.ring pa) then s1.finishOp o.id (.fail 5 0x62 0 base 0)
    else if (s1.ring pa).slotBytes < size then s1.finishOp o.id (.fail 2 0x64 0 0 0)
    else
      let k := clusterKey o.loc
      let c := s1.cluster k
      (s1.setCluster k { c with claims := c.claims ++ [o.id] }).updOp o.id fun o => { o with stage := .armed pa 0 }

/-- Publish the slot of a CPY.RING and end it: count and no flag, or count 0 and the flag with its record (R304); the descriptor
and the count word meet the tables again (19_device.md R401). -/
def State.endRingCopy (s : State) (o : Op) (w : Who) (pa size : Nat) (slot : W64) (bad : Option (Nat × Nat × Nat × Nat)) : State :=
  let base := BitVec.ofNat 64 pa
  let (s1, r) := match bad with
    | some (c, d, a, x) =>
      let (s1, i) := s.newRecord w (recordBytes o.opc o.kind.code o.token d c o.loc 0 o.pc (BitVec.ofNat 64 a) (BitVec.ofNat 64 x))
      (s1, some i)
    | none => (s, none)
  if s1.badRead pa 64 then (s1.uncHit pa o.pc 0).finishOp o.id (match r with | some i => .phasePoison i | none => .fail 0x0B 6 0 base 0)
  else if !s1.ringPermits w pa 64 true true then s1.finishOp o.id (match r with | some i => .phasePoison i | none => .fail 5 5 0 base 0)
  else
    let g := s1.ring pa
    let n := if r.isSome then 0 else size
    if s1.ringMalformed w g then s1.finishOp o.id (match r with | some i => .phasePoison i | none => .fail 5 0x62 0 base 0)
    else if !g.mayPub (bits slot 63 48) (bits slot 15 0) n then
      s1.finishOp o.id (match r with | some i => .phasePoison i | none => .fail 5 0x63 0 base 0)
    else if !s1.ringPermits w (g.countPa (bits slot 15 0)) 4 false true then
      s1.finishOp o.id (match r with | some i => .phasePoison i | none => .fail 5 5 0 (BitVec.ofNat 64 (g.countPa (bits slot 15 0))) 0)
    else (s1.ringPublish g (bits slot 15 0) n r).finishOp o.id (match r with | some i => .phasePoison i | none => .ok [])

/-- Copy into the claimed slot, from an offset on, and publish it (R304). The slot's range in the ring's own space is
held against the source's (R295). -/
def State.fillSlot (s : State) (o : Op) (w : Who) (pa dsp dst ssp src size start : Nat) (slot : W64) : State :=
  let g := s.ring pa
  let i := bits slot 15 0
  let at' := g.slotPa i
  let va := ((dst : Int) + g.slotBase + (g.slotBytes * i : Nat)).toNat
  if dsp == ssp && size != 0 && spansMeet src (src + size) va (va + size) then s.endRingCopy o w pa size slot (some (2, 0x60, 0, 0))
  else
    match Eng.outcome (Eng.row w { pos := 0, src := ⟨false, ssp, src, src % 4 == 0 && size % 4 == 0⟩, dst := ⟨true, 0, at', true⟩, len := size }
        start o.pc) s with
    | (s1, none) => s1.endRingCopy o w pa size slot none
    | (s1, some (.fail c d a x)) => s1.endRingCopy o w pa size slot (some (c, d, a, x))
    | (s1, some (.hold va k pos)) => s1.holdCopy o w va k pos slot pa

/-! HDEC (R311 to R314). -/

/-- A job descriptor (Table 14.5); `ok` tells that it is well formed. -/
structure HJob where
  stream : Nat
  nbits : Nat
  table : Nat
  gap : Nat
  out : Nat
  nsym : Nat
  wide : Bool
  osp : Nat
  isp : Nat
  ok : Bool

/-- Read a job descriptor from its 64 bytes. -/
def hJob (bs : List Byte) : HJob :=
  let at' := fun (o k : Nat) => leNat ((bs.drop o).take k)
  let f := at' 0x2C 4
  { stream := at' 0 8, nbits := at' 8 8, table := at' 0x10 8, gap := at' 0x18 8, out := at' 0x20 8, nsym := at' 0x28 4
    wide := f.testBit 4, osp := nbits f 3 2, isp := nbits f 1 0
    ok := f / 32 == 0 && at' 0x30 16 == 0 && at' 8 8 != 0 && at' 8 8 ≤ 2 ^ 40 }

/-- A code: for each length from 1, the first code, the number of codes, and the number of symbols before them. -/
def hCode (counts : List Nat) (first before : Nat) : List (Nat × Nat × Nat) :=
  match counts with
  | [] => []
  | n :: r => (first, n, before) :: hCode r ((first + n) * 2) (before + n)

/-- Read one codeword from bit p, bit by bit (R312): symbol number and length. -/
def Eng.codeword (w : Who) (j : HJob) (pc : W64) (p val len : Nat) (code : List (Nat × Nat × Nat)) : Eng (Option (Nat × Nat)) :=
  match code with
  | [] => pure none
  | (first, n, before) :: r =>
    if j.nbits ≤ p then pure none
    else do
      let b ← Eng.word w j.isp 1 (j.stream + p / 8) 0 pc
      let v := 2 * val + bitOf (b.testBit (p % 8))
      if first ≤ v && v < first + n then pure (some (before + v - first, len + 1))
      else Eng.codeword w j pc (p + 1) v (len + 1) r

/-- How a lane's decoding ended: its symbol number, and its fault (DETAIL), if any. -/
abbrev HEnd := Nat × Option Nat

/-- Decode one lane's segment from bit p to q (R313). -/
def Eng.segment (w : Who) (j : HJob) (pc : W64) (code : List (Nat × Nat × Nat)) (syms : List Nat) (q kend p k fuel : Nat) : Eng HEnd :=
  match fuel with
  | 0 => pure (k, if p != q then some 2 else if k != kend then some 1 else none)
  | n + 1 =>
    if q ≤ p then pure (k, if p != q then some 2 else if k != kend then some 1 else none)
    else do
      match ← Eng.codeword w j pc p 0 0 code with
      | none => pure (k, some 3)
      | some (i, len) =>
        if k < kend then do
          let esz := if j.wide then 2 else 1
          let a := j.out + k * esz
          let pa ← Eng.chk w j.osp esz a .write 0
          Eng.act fun s => s.wr pa (leBytes esz (nth syms i 0))
        else pure ()
        Eng.segment w j pc code syms q kend (p + len) (k + 1) n

/-- The gap entry of a segment. -/
def Eng.gapEntry (w : Who) (j : HJob) (pc : W64) (seg : Nat) : Eng Nat := Eng.word w j.isp 8 (j.gap + 8 * seg) 0 pc

/-- Where a segment's decoding ends: the first codeword boundary after it, and its symbol number (R313). -/
def Eng.segmentEnd (w : Who) (j : HJob) (pc : W64) (seg n : Nat) : Eng (Nat × Nat) :=
  match n with
  | 0 => pure (j.nbits, j.nsym)
  | k + 1 => do
    let g ← Eng.gapEntry w j pc seg
    if g.testBit 16 then Eng.segmentEnd w j pc (seg + 1) k else pure (4096 * seg + nbits g 15 0, g / 2 ^ 32)

/-- One lane of HDEC: its count, and its fault with kend − IDX and k − IDX. -/
def Eng.hLane (w : Who) (j : HJob) (pc : W64) (code : List (Nat × Nat × Nat)) (syms : List Nat) (seg : Nat) :
    Eng (Nat × Option (Nat × Nat × Nat)) := do
  let g := (j.nbits + 4095) / 4096
  if g ≤ seg then pure (0, none)
  else
    let e ← Eng.gapEntry w j pc seg
    if e.testBit 16 then pure (0, none)
    else
      let (q, kend) ← Eng.segmentEnd w j pc (seg + 1) (g - seg - 1)
      let p := 4096 * seg + nbits e 15 0
      let idx := e / 2 ^ 32
      let (k, f) ← Eng.segment w j pc code syms q kend p idx (q - p)
      pure (k - idx, f.map fun d => (d, (kend + 2 ^ 32 - idx) % 2 ^ 32, (k - idx) % 2 ^ 32))

/-- HDEC (R311 to R313): the lanes' counts and faults. The lanes decode in some order (R314). -/
def Eng.hdec (w : Who) (op : Nat) (jloc : Bool) (job seg : W64) (lanes : List Nat) (pc : W64) :
    Eng (List (Nat × Nat × Option (Nat × Nat × Nat))) := do
  let pa ← Eng.chk w (if jloc then 1 else 0) 64 job.toNat .read 0
  let _ ← Eng.get pa 64 job.toNat 0 pc
  let bs ← Eng.see fun s => s.readBytes pa 64
  let j := hJob bs
  Eng.need j.ok 2 0x66 job.toNat 0
  Eng.need (j.table % 2 == 0) 4 4 j.table 0
  Eng.need (j.gap % 8 == 0) 4 4 j.gap 0
  Eng.need (!j.wide || j.out % 2 == 0) 4 4 j.out 0
  let counts ← Eng.collect (List.range 16) fun i => Eng.word w j.isp 2 (j.table + 2 * i) 0 pc
  let t := counts.foldl (fun a b => a + b) 0
  Eng.need (t != 0 && t ≤ 4096 && decide (((List.range 16).zip counts).foldl (fun a c => a + c.2 * 2 ^ (15 - c.1)) 0 ≤ 65536)) 2 0x65 j.table 0
  let syms ← Eng.collect (List.range t) fun i => Eng.word w j.isp 2 (j.table + 32 + 2 * i) 0 pc
  Eng.need (j.wide || syms.all fun x => decide (x ≤ 255)) 2 0x65 j.table 0
  let rs ← Eng.collect (freeOrder op lanes) fun l => do
    let r ← Eng.hLane w j pc (hCode counts 0 0) syms (seg.toNat + l)
    pure (l, r)
  pure (lanes.filterMap fun l => rs.find? fun r => r.1 == l)

/-- HDEC performed by its engine (R314). -/
def State.performHdec (s : State) (o : Op) (jloc : Bool) (job seg : W64) (lanes : List Nat) : State :=
  let w := o.who.as 2
  match Eng.hdec w o.id jloc job seg lanes o.pc s with
  | (.error x, s1) => s1.endEngine o w (some x)
  | (.ok rs, s1) =>
    match rs.find? fun r => r.2.2.isSome with
    | some (l, _, some (d, x, y)) => s1.finishOp o.id (.fail 0x0D d l 0 (BitVec.ofNat 64 (x + 2 ^ 32 * y)))
    | _ => s1.finishOp o.id (.ok (rs.flatMap fun r => o.dst.split r.1 r.2.1))

/-! The engines' queues (R292). -/

/-- The copy engine of a context: that of a sequencer context's number, else core mod 4. -/
def copyEngineOf (kind : CtxKind) (slotNo : Nat) (l : Loc) : Nat := if kind == .seq then slotNo else l.core % 4

/-- The engine of an operation, over all clusters. -/
def State.copyEngine (s : State) (o : Op) : Nat :=
  4 * clusterKey o.loc + copyEngineOf o.kind (((s.ctx? o.ctx).map fun c => c.slotNo).getD 0) o.loc

/-- Whether an operation is a command of the copy engines. -/
def Op.isCopy (o : Op) : Bool := match o.cmd with | .copy _ => true | _ => false

/-- Whether a copy command waits in its queue with its preconditions done. -/
def Op.copyReady (o : Op) : Bool := o.isCopy && o.stage == .waiting && o.resolved && o.prePoison.isNone

/-- R304: no earlier CPY.RING of the context has still to claim. -/
def State.ringTurn (s : State) (o : Op) : Bool :=
  !s.ops.any fun x => x.ctx == o.ctx && decide (x.id < o.id) && x.stage == .waiting
    && (match x.cmd with | .copy c => c.ring?.isSome | _ => false)

/-- Whether a copy command may be started as far as rings and its context's accesses order it. -/
def State.copyMay (s : State) (o : Op) : Bool :=
  o.copyReady && s.inTurn o && (match o.cmd with | .copy c => c.ring?.isNone || s.ringTurn o | _ => false)

/-- A held copy goes on at its place (R297). -/
def State.resumeCopy (s : State) (o : Op) (c : CCmd) (a : Acc) : State :=
  match c with
  | .hdec jloc job seg lanes => s.performHdec o jloc job seg lanes
  | _ =>
    match c.ring? with
    | some (dsp, dst, ssp, src, size) => s.fillSlot o (o.who.as 2) a.y.toNat dsp dst ssp src size a.x.1.toNat a.x.2
    | none => s.performCopy o c a.lane

/-- A held copy whose page was rejected ends, a CPY.RING with its poisoned publish (R297, R304). -/
def State.rejectCopy (s : State) (o : Op) (c : CCmd) (a : Acc) : State :=
  match c.ring? with
  | some (_, _, _, _, size) => s.endRingCopy o (o.who.as 2) a.y.toNat size a.x.2 (some (5, 5, a.addr, a.x.1.toNat))
  | none => s.finishOp o.id (.fail 5 5 0 (BitVec.ofNat 64 a.addr) a.x.1)

/-- Perform a copy command that its engine starts. -/
def State.performCopyCmd (s : State) (o : Op) (c : CCmd) : State :=
  match c with
  | .hdec jloc job seg lanes => s.performHdec o jloc job seg lanes
  | _ =>
    match c.ring? with
    | some (dsp, dst, _, _, size) => s.startRingCopy o (o.who.as 2) dsp dst size
    | none => s.performCopy o c 0

/-- COPY_ENGINE_START: the oldest command of its engine that may start, while the engine works on fewer than four. -/
def State.startCopy (s : State) (id : Nat) : Option State :=
  match s.op? id with
  | none => none
  | some o =>
    match o.cmd with
    | .copy c =>
      let e := s.copyEngine o
      let mine := s.ops.filter fun x => x.isCopy && s.copyEngine x == e
      if s.copyMay o && !(mine.any fun x => decide (x.id < id) && s.copyMay x)
          && decide ((mine.filter fun x => x.stage != .waiting && !x.over).length < 4) then
        some (s.performCopyCmd o c)
      else none
    | _ => none

/-- RING_CLAIM_GRANT: the first waiting claim of its side at a ring that can be served (R301, R304), checked again (R401); a
consumer's claim reads the count word of its slot (R315). -/
def State.grantClaim (s : State) (id : Nat) : Option State :=
  match s.op? id with
  | none => none
  | some o =>
    match o.stage with
    | .armed pa side =>
      let k := clusterKey o.loc
      let cl := s.cluster k
      let same := fun (x : Nat) => match s.op? x with | some y => y.stage == .armed pa side && y.claimsAt pa | none => false
      if !o.claimsAt pa || (cl.claims.filter same).head? != some id then none
      else
        let s0 := s.setCluster k { cl with claims := cl.claims.erase id }
        let w := o.who.as 2
        if s.badRead pa 64 then some ((s0.uncHit pa o.pc 0).finishOp id (.fail 0x0B 6 0 (BitVec.ofNat 64 pa) 0))
        else if s.ringMalformed o.who (s.ring pa) then some (s0.finishOp id (.fail 5 0x62 0 (BitVec.ofNat 64 pa) 0))
        else
          match s.claim (s.ring pa) (side == 1) with
          | none => none
          | some (g, slot) =>
            let cnt := g.countPa (bits slot 15 0)
            if !s.ringPermits w pa 64 true true then some (s0.finishOp id (.fail 5 5 0 (BitVec.ofNat 64 pa) 0))
            else if side == 1 && !s.ringPermits w cnt 4 true false then some (s0.finishOp id (.fail 5 5 0 (BitVec.ofNat 64 cnt) 0))
            else if side == 1 && s.badRead cnt 4 then some ((s0.uncHit cnt o.pc 0).finishOp id (.fail 0x0B 6 0 (BitVec.ofNat 64 cnt) 0))
            else
            let s1 := s0.wr pa g.bytes
            match o.cmd with
            | .copy c =>
              match c.ring? with
              | some (dsp, dst, ssp, src, size) =>
                some ((s1.updOp id fun o => { o with stage := .running 0 }).fillSlot o w pa dsp dst ssp src size 0 slot)
              | none => none
            | _ => some (s1.finishOp id (.ok [(0, 0, slot)]))
    | _ => none

end Sys2Proof.Machine
end

