-- ==== Sys2Proof/Machine/EncoderEngine.lean ====
section
/-! DEFINITION. The video encoders (16_encoder.md R338 to R348): placing sessions, their queues, encoding a frame. The
coded bytes within the framing of a bitstream and the QP of rate control are free values (log entry 15). -/

namespace Sys2Proof.Machine

/-- The issuer of an encoder's accesses on a die. -/
def encoderWho (o : Op) (die : Nat) : Who := { o.who with die := die, master := 17, source := 6 }

/-- The session a launch names by a handle (R342). -/
def State.session? (s : State) (launch handle : Nat) : Option Session :=
  let key := ((s.launch? launch).map fun l => l.record.key).getD 0
  s.sessions.find? fun x => !x.closed && x.handle == handle && (x.launch == launch || (x.key != 0 && x.key == key))

/-- The session whose queue holds a command. -/
def State.opSession (s : State) (id : Nat) : Option Session := s.sessions.find? fun x => x.queue.contains id

/-- Change an open session. -/
def State.updSession (s : State) (handle : Nat) (g : Session → Session) : State :=
  { s with sessions := updWhere s.sessions (fun x => !x.closed && x.handle == handle) g }

/-- Units an encoder's sessions hold; an encoder is numbered 16 die + encoder. -/
def State.unitsUsed (s : State) (enc : Nat) : Nat :=
  s.sessions.foldl (fun n x => if !x.closed && x.handle / 8 == enc then n + x.units else n) 0

/-- The lowest free slot of an encoder. -/
def State.freeSession (s : State) (enc : Nat) : Option Nat :=
  (List.range 8).find? fun i => !s.sessions.any fun x => !x.closed && x.handle == 8 * enc + i

/-- Free units of a die (R347). -/
def State.freeUnits (s : State) (die : Nat) : Nat :=
  (List.range 16).foldl (fun n i => n + (8 - s.unitsUsed (16 * die + i))) 0

/-- Where a session of some units is placed (R338): its handle. -/
def State.placeSession (s : State) (die units : Nat) : Option Nat :=
  ((List.range 16).map (fun i => 16 * die + i) ++ (List.range 16).map (fun i => 16 * (1 - die) + i)).findSome? fun e =>
    if s.unitsUsed e + units ≤ 8 then (s.freeSession e).map fun i => 8 * e + i else none

/-- A session as its descriptor opens it, or none where that is malformed (R340). -/
def sessionOf (bs : List Byte) : Option Session :=
  let at' := fun (o k : Nat) => leNat ((bs.drop o).take k)
  let f := at' 0 4
  let codec := f % 16
  let d10 := f.testBit 4
  let w := at' 4 2
  let h := at' 6 2
  let g := at' 0x0C 4
  let rc := g % 4
  let qp := nbits g 15 8
  let pitch := at' 0x1C 4
  let ok := f / 32 == 0 && codec ≤ 2 && !(codec == 1 && d10) && !(codec == 2 && !d10)
    && h % 2 == 0 && 64 ≤ h && h ≤ 2160 && w % 2 == 0 && 64 ≤ w && w ≤ 3840
    && at' 8 4 / 256 == 0 && 1 ≤ at' 8 1 && at' 8 1 ≤ 60 && 1 ≤ nbits g 31 16 && nbits g 7 2 == 0
    && (codec == 0 || qp ≤ 51) && rc != 3 && (rc == 0 || (1 ≤ at' 0x10 4 && 1 ≤ at' 0x18 4))
    && (rc != 2 || at' 0x10 4 ≤ at' 0x14 4) && pitch % 256 == 0 && decide (w * (if d10 then 2 else 1) ≤ pitch) && at' 0x20 32 == 0
  if ok then
    some { handle := 0, key := 0, launch := 0, codec := codec, width := w, height := h, d10 := d10, gop := nbits g 31 16, qp := qp
           rc := rc, pitch := pitch, fps := at' 8 1, target := at' 0x10 4, peak := at' 0x14 4, vbv := at' 0x18 4
           units := if w * h ≤ 2088960 then 1 else 4, queue := [], frames := 0, bytes := 0
           sinceKey := 0, dropped := false, sizes := [], coded := none, closed := false }
  else none

/-- VCFG (R344): the handle. -/
def Eng.open (o : Op) (w : Who) (a : Nat) : Eng Nat := do
  let pa ← Eng.chk w 0 64 a .read 0
  let _ ← Eng.get pa 64 a 0 o.pc
  let bs ← Eng.see fun s => s.readBytes pa 64
  match sessionOf bs with
  | none => Eng.fail 2 0x80 a 0
  | some x => do
    let p ← Eng.see fun s => s.placeSession o.loc.die x.units
    match p with
    | none => Eng.fail 5 0x81 0 0
    | some h => do
      Eng.act fun s => { s with sessions := s.sessions ++
        [{ x with handle := h, launch := o.launch, key := ((s.launch? o.launch).map fun l => l.record.key).getD 0 }] }
      pure h

/-- The bytes of a row of a surface, read part by part. -/
def Eng.rowBytes (w : Who) (a n : Nat) (pc : W64) : Eng (List Byte) := do
  let ps ← Eng.collect (parts32 a n (n + 1)) fun p => do
    let pa ← Eng.chk w 0 1 p.1 .read 0
    let x ← Eng.get pa p.2 p.1 0 pc
    pure (leBytes p.2 x)
  pure ps.flatten

/-- n samples of a row: bytes, or bits [9:0] of halfwords. -/
def samplesOf (d10 : Bool) (n : Nat) (bs : List Byte) : List Nat :=
  (List.range n).map fun i => if d10 then leNat ((bs.drop (2 * i)).take 2) % 1024 else (bs.getD i 0).toNat

/-- Read a surface (R341): its luma, Cb and Cr samples. -/
def Eng.surface (w : Who) (x : Session) (y : Nat) (pc : W64) : Eng (List (List Nat)) := do
  let row := fun (r : Nat) => Eng.rowBytes w (y + r * x.pitch) (x.width * (if x.d10 then 2 else 1)) pc
  let luma ← Eng.collect (List.range x.height) row
  let chroma ← Eng.collect (List.range (x.height / 2)) fun r => row ((x.height + 15) / 16 * 16 + r)
  let cs := chroma.map (samplesOf x.d10 x.width)
  let pick := fun (k : Nat) => cs.flatMap fun t => (List.range (x.width / 2)).map fun i => t.getD (2 * i + k) 0
  pure [luma.flatMap (samplesOf x.d10 x.width), pick 0, pick 1]

/-- Whether the next frame of a session is a key frame (R346). -/
def Session.keyNext (x : Session) (key : Bool) : Bool := key || x.frames == 0 || x.gop ≤ x.sinceKey || x.dropped

/-- The level, in bits, of the buffer that rate control models (R340): each frame's bytes fill it, and between two frames it
drains at TARGET (CBR) or at up to PEAK (VBR). -/
def Session.level (x : Session) : Nat :=
  x.sizes.foldl (fun l n => l + 8 * n - (if x.rc == 1 then x.target else x.peak) * 1000 / x.fps) 0

/-- The QP of the next frame (R340): the field's, or within its codec's range what rate control chooses. -/
def Session.nextQp (x : Session) : Nat :=
  if x.rc == 0 || x.frames == 0 then x.qp
  else
    let q := Config.frameQp [x.codec, x.rc, x.target, x.peak, x.vbv, x.fps, x.qp] x.level x.sizes
    if x.codec == 0 then q % 256 else min q 51

/-- A number as AV1 writes sizes, 7 bits a byte. -/
def leb128 (fuel n : Nat) : List Byte :=
  match fuel with
  | 0 => []
  | k + 1 => if n < 128 then [BitVec.ofNat 8 n] else BitVec.ofNat 8 (n % 128 + 128) :: leb128 k (n / 128)

/-- A unit of a HEVC byte stream: start code, header, content. -/
def nalUnit (header : Byte) (bs : List Byte) : List Byte := [0, 0, 0, 1, header, 1] ++ bs

/-- An OBU of an AV1 low-overhead stream: header with a size field, size, content. -/
def obu (header : Byte) (bs : List Byte) : List Byte := header :: leb128 8 bs.length ++ bs

/-- The bitstream of a frame (R339): AV1 a temporal delimiter, on a key frame a sequence header, then the frame as one OBU or as a
frame header with a tile group; HEVC on a key
frame VPS, SPS and PPS and an IDR picture, else a trailing picture. `part` gives the coded bytes, `alt` which of the two forms
of a picture is used (log entry 15). -/
def frameStream (codec : Nat) (key alt : Bool) (part : Nat → List Byte) : List Byte :=
  if codec == 0 then
    obu 0x12 [] ++ (if key then obu 0x0A (part 0) else []) ++ if alt then obu 0x1A (part 1) ++ obu 0x22 (part 3) else obu 0x32 (part 3)
  else if key then
    nalUnit 0x40 (part 0) ++ nalUnit 0x42 (part 1) ++ nalUnit 0x44 (part 2) ++ nalUnit (if alt then 0x28 else 0x26) (part 3)
  else nalUnit (if alt then 0x00 else 0x02) (part 3)

/-- Encode a frame: its surface read, its bytes formed. -/
def Eng.codeFrame (o : Op) (w : Who) (x : Session) (key : Bool) (y : Nat) : Eng Coded := do
  Eng.need (y % 256 == 0) 4 4 y 0
  let px ← Eng.surface w x y o.pc
  let i ← Eng.see fun s => s.freeIdx
  Eng.act fun s => { s with freeIdx := s.freeIdx + 1 }
  let k := x.keyNext key
  let set := [x.codec, x.width, x.height, bitOf x.d10, bitOf k, x.nextQp]
  pure { op := o.id, stream := frameStream x.codec k (Config.choose i 2 == 1) fun n => Config.payload i n set px, sent := 0
         key := k, qp := x.nextQp }

/-- Write what is left of an encoded frame to its buffer, part by part. -/
def Eng.sendFrame (w : Who) (handle buf : Nat) (f : Coded) : Eng Unit :=
  Eng.each (parts32 (buf + f.sent) (f.stream.length - f.sent) (f.stream.length + 1)) fun p => do
    let pa ← Eng.chk w 0 1 p.1 .write 0
    Eng.act fun s => (s.wr pa ((f.stream.drop (p.1 - buf)).take p.2)).updSession handle fun x =>
      { x with coded := some { f with sent := p.1 - buf + p.2 } }

/-- VENC (R346): the result word. A dropped frame writes nothing and leaves the session's other state unchanged; a frame whose
writing was held on a page goes on where it was. -/
def Eng.encode (o : Op) (w : Who) (x : Session) (key : Bool) (y buf cap : Nat) : Eng Nat := do
  let f ← match x.coded.filter fun f => f.op == o.id with
    | some f => pure f
    | none => do
      let f ← Eng.codeFrame o w x key y
      if cap < f.stream.length then do
        Eng.act fun s => s.updSession x.handle fun x => { x with dropped := true }
        Eng.fail 5 0x83 0 0
      else pure f
  Eng.act fun s => s.updSession x.handle fun x => { x with coded := some f }
  Eng.sendFrame w x.handle buf f
  let n := f.stream.length
  Eng.act fun s => s.updSession x.handle fun x =>
    { x with frames := x.frames + 1, bytes := x.bytes + BitVec.ofNat 64 n, sinceKey := if f.key then 1 else x.sinceKey + 1
             dropped := false, sizes := x.sizes ++ [n], coded := none }
  pure (n + 2 ^ 32 * bitOf f.key + 2 ^ 40 * f.qp)

/-- The arrival of a VENC with .ARR (R346, R198), after the frame's bytes are written; an address that fails its checks
fails the command. -/
def State.vencArrive (s : State) (o : Op) (w : Who) (bsp : Nat) (bar : W64) (psn : Option Nat) : State × Option Stop :=
  match s.tryAccess w bsp 32 bar .rmw false with
  | (s1, .fail c) => (s1, some (.fail c (accDetail c) bar.toNat 0))
  | (s1, .absent) => (s1, some (.hold bar.toNat 2 0))
  | (s1, .ok pa) => ((if o.rel then s1.hearRelease none pa else s1).arrive w ⟨o.opc, o.token, o.pc⟩ bsp pa bar 1 0 psn, none)

/-- End a VENC: its arrival, poisoned when the encode failed, then its token. -/
def State.endVenc (s : State) (o : Op) (w : Who) (arr : Bool) (bsp : Nat) (bar : W64) (r : Except Stop Nat) : State :=
  match r with
  | .error (.hold va k _) => s.holdOp o w va k
  | .ok x =>
    let ok := Result.ok [(0, 0, BitVec.ofNat 64 x)]
    if !arr then s.finishOp o.id ok
    else
      match s.vencArrive o w bsp bar none with
      | (s1, none) => s1.finishOp o.id ok
      | (s1, some (.hold va k _)) =>
        (s1.postNotice w va k).updOp o.id fun o =>
          { o with stage := .held [{ lane := 1, addr := va, x := (BitVec.ofNat 64 x, 0), y := 0 }] [] none (va / 2 ^ 16) k }
      | (s1, some f) => s1.endEngine o w (some f)
  | .error (.fail c d a x) =>
    if !arr then s.finishOp o.id (.fail c d 0 (BitVec.ofNat 64 a) (BitVec.ofNat 64 x))
    else
      let (s1, i) := s.newRecord w (recordBytes o.opc o.kind.code o.token d c o.loc 0 o.pc (BitVec.ofNat 64 a) (BitVec.ofNat 64 x))
      match s1.vencArrive o w bsp bar (some i) with
      | (s2, some (.hold va k _)) =>
        (s2.postNotice w va k).updOp o.id fun o =>
          { o with stage := .held [{ lane := 2, addr := va, x := (BitVec.ofNat 64 i, 0), y := 0 }] [] none (va / 2 ^ 16) k }
      | (s2, _) => s2.finishOp o.id (.phasePoison i)

/-- A held VENC goes on: its encode again, or its arrival alone. -/
def State.resumeArrive (s : State) (o : Op) (w : Who) (bsp : Nat) (bar : W64) (a : Acc) : State :=
  let psn := if a.lane == 2 then some a.x.1.toNat else none
  match s.vencArrive o w bsp bar psn with
  | (s1, some (.hold va k _)) => s1.postNotice w va k
  | (s1, some f) =>
    match psn with
    | some i => s1.finishOp o.id (.phasePoison i)
    | none => s1.endEngine o w (some f)
  | (s1, none) => s1.finishOp o.id (match psn with | some i => .phasePoison i | none => .ok [(0, 0, a.x.1)])

/-- The handle whose queue a command enters (R345). -/
def Cmd.handle? (c : Cmd) : Option W64 :=
  match c with
  | .vcfg true a => some a
  | .venc _ _ _ h _ _ _ _ => some h
  | _ => none

/-- The session whose queue a command of a launch enters. -/
def State.cmdSession (s : State) (launch : Nat) (c : Cmd) : Option Session :=
  match c.handle? with
  | some h => s.session? launch h.toNat
  | none => none

/-- Take a command out of its session's queue once it has been performed; a closed session goes with its last command. -/
def State.unqueue (s : State) (id : Nat) : State :=
  { s with sessions := (s.sessions.map fun x => { x with queue := x.queue.filter fun i => i != id }).filter fun x =>
      !x.closed || !x.queue.isEmpty }

/-- Close a session: its slot and units are free; the commands behind it keep their order (R344, R345). -/
def State.closeSession (s : State) (handle : Nat) : State :=
  let s1 := s.updSession handle fun x => { x with closed := true }
  { s1 with sessions := s1.sessions.filter fun x => !x.closed || !x.queue.isEmpty }

/-- Perform an encoder command (R344 to R346). One whose handle was not open at its dispatch, or was closed ahead of it in the
queue, fails (Table 16.4). -/
def State.performEncoder (s : State) (o : Op) : State :=
  match o.cmd with
  | .vcfg false a =>
    let w := encoderWho o o.loc.die
    match Eng.open o w a.toNat s with
    | (.ok h, s1) => s1.finishOp o.id (.ok [(0, 0, BitVec.ofNat 64 h)])
    | (.error x, s1) => s1.endEngine o w (some x)
  | .vcfg true _ =>
    match s.opSession o.id with
    | some x =>
      if x.closed then s.finishOp o.id (.fail 5 0x82 0 0 0)
      else ((s.unqueue o.id).closeSession x.handle).finishOp o.id (.ok [(0, 0, 0)])
    | none => s.finishOp o.id (.fail 5 0x82 0 0 0)
  | .venc key arr bsp _ y buf cap bar =>
    let shut := (encoderWho o o.loc.die, s, Except.error (Stop.fail 5 0x82 0 0))
    let (w, s1, r) := match s.opSession o.id with
      | some x =>
        if x.closed then shut
        else
          let w := encoderWho o (x.handle / 128)
          let (r, s1) := Eng.encode o w x key y.toNat buf.toNat cap.toNat s
          (w, s1, r)
      | none => shut
    s1.endVenc o w arr bsp bar r
  | _ => s

/-- Whether a command is an encoder's. -/
def Op.isEncoder (o : Op) : Bool := match o.cmd with | .vcfg _ _ | .venc _ _ _ _ _ _ _ _ => true | _ => false

/-- ENCODER_COMMAND_START: a command at the head of its session's queue, or of no open session (R345). -/
def State.startEncoder (s : State) (id : Nat) : Option State :=
  match s.op? id with
  | none => none
  | some o =>
    let head := match s.opSession id with
      | some x => x.queue.head? == some id
      | none => true
    if o.isEncoder && s.mayStart o && head then
      let s1 := s.performEncoder o
      some (if (s1.op? id).any fun x => x.over then s1.unqueue id else s1)
    else none

end Sys2Proof.Machine
end

