-- ==== Sys2Proof/Machine/Image.lean ====
section
/-! DEFINITION. The saved context image (17_system.md R366, R367), the values of the system registers (R355, R356),
and trace records (R373 to R375). -/

namespace Sys2Proof.Machine

/-- n zero bytes. -/
def zeros (n : Nat) : List Byte := List.replicate n 0

/-- Whether a debugger holds the debug right for a launch (19_device.md R405). -/
def State.debugRight (s : State) (launch : Nat) : Bool :=
  match s.launch? launch with
  | some l => (List.range 8).any fun g => (s.reg 0 0x200040).getLsbD g && s.reg 0 (0x200000 + 8 * g) == l.record.tag
  | none => false

/-- The counter banks where a context runs. -/
def State.banksAt (s : State) (l : Loc) : List Bank :=
  if l.core == 24 then (s.cluster (clusterKey l)).seqBanks else (s.core l).banks

/-- The number of the bank a launch holds. -/
def bankOf (bs : List Bank) (launch : Nat) : Option Nat :=
  ((List.range bs.length).find? fun i => ((bs[i]?).getD Bank.reset).launch == some launch)

/-- A capability register (19_device.md R402, Table 19.4). -/
def State.capReg (s : State) (i : Nat) : W64 :=
  BitVec.ofNat 64 (match i with
    | 0 => s.cap 0 + 2 ^ 8 * s.cap 1 + 2 ^ 43 * s.cap 5 + 2 ^ 54 * s.cap 4
    | 1 => 24 + 2 ^ 8 * 4
    | 2 => s.cap 2 + 2 ^ 8 * 64
    | 3 => s.cap 3
    | _ => 0)

/-- A system register of a context by number (Table 17.2); CAP0 to CAP7 are read apart. -/
def State.sysReg (s : State) (c : Ctx) (n : Nat) : W64 :=
  match n with
  | 0x00 => c.sr.tcause
  | 0x01 => c.sr.tlanes
  | 0x02 => c.sr.tfault
  | 0x03 => c.sr.taddr
  | 0x04 => c.sr.tepc
  | 0x05 => c.sr.tval
  | 0x06 => c.sr.trec
  | 0x07 => c.sr.prbase
  | 0x08 => c.sr.pmode
  | 0x09 => c.sr.pstat
  | 0x0A => c.sr.trctl
  | 0x0B => c.sr.stctl
  | 0x0C => BitVec.ofNat 64 (bitOf (s.debugRight c.launch) + 2 * bitOf c.sr.dbgRev)
  | 0x0D => match bankOf (s.banksAt c.loc) c.launch with
    | some b => BitVec.ofNat 64 (16 + b)
    | none => 0
  | 0x0E => c.sr.tentry
  | 0x10 => (s.stat c).pscause
  | 0x11 => (s.stat c).psaddr
  | 0x12 => (s.stat c).pslanes
  | _ => 0

/-- LSTATE of a lane (Table 17.7). -/
def Ctx.lstate (c : Ctx) (l : Nat) : Nat :=
  let x := c.lane l
  let (st, arg) := if x.halted then (2, 4) else match x.st with
    | .runnable => (0, 0)
    | .parked m => (1, m.val)
    | .waiting (.waitk _ _ _) => (2, 0)
    | .waiting (.twaitk _ _ _ _) => (2, 1)
    | .waiting (.bsync _) => (2, 2)
    | .waiting (.monwait _ _ _ _ _ _ _ _) => (2, 3)
    | .exited => (3, 0)
  st + 4 * arg + 32 * bitOf (c.suspended l)

/-- The wait record of a lane (Table 17.7). -/
def Ctx.wrec (c : Ctx) (l : Nat) : List Byte :=
  match (c.lane l).st with
  | .waiting (.waitk m d _) => leBytes 4 m.toNat ++ leBytes 4 d.byte ++ zeros 24
  | .waiting (.twaitk m d dl _) => leBytes 4 m.toNat ++ leBytes 4 d.val ++ zeros 16 ++ leBytes 8 dl
  | .waiting (.bsync i) => leBytes 4 i.val ++ zeros 28
  | .waiting (.monwait is64 sp a d e dl _ _) =>
    leBytes 4 (bitOf is64 + 2 * sp) ++ leBytes 4 d.byte ++ leBytes 8 a ++ leBytes 8 e.toNat ++ leBytes 8 dl
  | _ => zeros 32

/-- Size of an image without its side-log entries (R366). -/
def imageSize (w v : Nat) : Nat := 4096 + (w * v * 4 + 4095) / 4096 * 4096

/-- The code of Table 17.6 for a context's kind. -/
def CtxKind.imageCode (k : CtxKind) : Nat := match k with | .lane => 1 | .slot => 2 | .seq => 3

/-- The first 4,096 bytes of an image. An exited lane, which never runs again (R72), has PC 0 there (21_programs_grammar_spawn.md
R418; log entry 91). -/
def State.imageHead (s : State) (c : Ctx) (nlog : Nat) : List Byte :=
  let ls := List.range 64
  leBytes 8 (c.kind.imageCode + 2 ^ 8 * c.width + 2 ^ 16 * c.vregs + 2 ^ 24 + 2 ^ 32 * nlog + 2 ^ 48 * c.last.getD 0)
    ++ leBytes 8 ((c.lane 0).gen + 2 ^ 8 * c.npay + 2 ^ 16 * (if c.kind == .lane then c.warp else 0))
    ++ zeros 16
    ++ (ls.flatMap fun l => leBytes 8 (if (c.lane l).st == .exited then 0 else (c.lane l).pc.toNat))
    ++ (ls.map fun l => if l < c.width then BitVec.ofNat 8 (c.lstate l) else 0)
    ++ (ls.flatMap fun n => leBytes 8 (c.rdS n).toNat)
    ++ ((List.range 7).flatMap fun n => leBytes 8 ((Table.get c.p n (0 : W64)).toNat))
    ++ ((List.range 8).flatMap fun n => leBytes 8 (c.rdM n).toNat)
    ++ ((List.range 32).flatMap fun k => leBytes 4 ((c.rdTok k).code + 2 ^ 16 * ((c.rdTok k).poison?).getD 0))
    ++ ((List.range 16).flatMap fun n => leBytes 8 (s.sysReg c n).toNat)
    ++ zeros 40
    ++ (ls.flatMap fun l => if l < c.width then c.wrec l else zeros 32)
    ++ zeros 512

/-- The v registers of an image. -/
def Ctx.imageV (c : Ctx) : List Byte :=
  (List.range c.vregs).flatMap fun n => (List.range c.width).flatMap fun l => leBytes 4 (c.rdV n l).toNat

/-- Two words as one 64-bit value, the first low. -/
def pair64 (x y : W32) : W64 := (x.setWidth 64) ||| ((y.setWidth 64) <<< 32)

/-- One saved side-log entry, 2,048 bytes (Table 17.7); `cls` holds the class-defined bits of CTL. -/
def logImage (op sub space cls : Nat) (accs : List Acc) : List Byte :=
  let lanes := maskOf (accs.map fun a => a.lane)
  let at' := fun (l : Nat) => accs.find? fun a => a.lane == l
  leBytes 8 (op + 2 ^ 8 * sub + 2 ^ 16 * space + 2 ^ 18 * cls) ++ leBytes 8 lanes.toNat ++ zeros 48
    ++ ((List.range 64).flatMap fun l => leBytes 8 (((at' l).map fun a => a.addr).getD 0))
    ++ ((List.range 64).flatMap fun l => match at' l with
        | some a => leBytes 8 a.x.1.toNat ++ leBytes 8 a.x.2.toNat
        | none => zeros 16)
    ++ zeros 448

/-- The class-defined bits of a logged store: SEMIT's element type M[1:0] (Table 14.1), whose SUB does not give it. -/
def storeClass (op esz : Nat) : Nat := if op == 0xB8 then Nat.log2 esz else 0

/-- The class-defined bits of a logged reduction: its type (Table 10.1), but for JCADD's (OP 0xA2), which has none beyond its space
(13_spawn.md Table 13.3). -/
def reduceClass (op ty : Nat) : Nat := if op == 0xA2 then 0 else ty

/-- The image of a side-log entry: its instruction's OP and SUB, its lanes, addresses and data. -/
def LogEntry.image (e : LogEntry) : List Byte :=
  let put := logImage (e.code % 256) (e.code / 256)
  match e.act with
  | .store sp esz accs => put sp (storeClass (e.code % 256) esz) accs
  | .reduce (.int _ ty) sp _ accs | .reduce (.flt _ ty) sp _ accs | .reduce (.cas ty) sp _ accs =>
    put sp (reduceClass (e.code % 256) ty) accs
  | .jcDec sp accs => put sp 0 accs
  | .spawn jm rs _ _ => put (if jm then 3 else 0) 0
      (rs.map fun r => { lane := r.lane, addr := r.jc, x := (pair64 r.p0 r.p1, pair64 r.p2 r.p3), y := 0 })
  | .arrive _ _ sp b n x _ => put sp 0 [{ lane := 0, addr := b.toNat, x := (n, x), y := 0 }]
  | .pbinit sc sp b n x => put sp sc [{ lane := 0, addr := b.toNat, x := (n, x), y := 0 }]
  | _ => zeros 2048

/-- A context's whole image; a pre-emption image carries its side-log entries. -/
def State.imageBytes (s : State) (c : Ctx) (withLog : Bool) : List Byte :=
  let es := if withLog then (s.logOf c).map Prod.snd else []
  let v := c.imageV
  s.imageHead c es.length ++ v ++ zeros (imageSize c.width c.vregs - 4096 - v.length) ++ es.flatMap LogEntry.image

/-- Store bytes at an image's address: physical, or virtual in the launch's context area. -/
def State.putImage (s : State) (w : Who) (at' : Bool × Nat) (bs : List Byte) : State :=
  if !at'.1 then s.wr at'.2 bs
  else s.wrVa w at'.2 bs

/-- The image of a producer slot evicted with its child warp: its context part has no slot for one (log entry 87). -/
def noImage : Bool × Nat := (true, 2 ^ 64)

/-- Write a saved context's image again (R365: completions land in the image). -/
def State.refreshImage (s : State) (cid : Nat) : State :=
  match s.ctx? cid with
  | some c =>
    match c.saved, c.image with
    | true, some a => if a == noImage then s else s.putImage (whoOf c) a (s.imageBytes c (!a.1))
    | _, _ => s
  | none => s

/-! Trace (R373 to R375). -/

/-- Offsets of a cluster's trace registers (Table 17.9). -/
def tbReg (cl i : Nat) : Nat := 0x120000 + 0x20 * cl + 8 * i

/-- The bytes of a record: header and body. -/
def State.traceBytes (s : State) (c : Ctx) (kind : Nat) (body : List Byte) : List Byte :=
  let len := (16 + body.length + 15) / 16
  leBytes 8 (kind + 2 ^ 8 * len + 2 ^ 16 * c.loc.core + 2 ^ 21 * c.slotNo + 2 ^ 27 * c.loc.cluster + 2 ^ 31 * c.loc.die
      + 2 ^ 32 * (s.ns % 2 ^ 32))
    ++ zeros 8 ++ body ++ zeros (16 * len - 16 - body.length)

/-- A cluster as master of what it writes and reads at physical addresses (19_device.md R400). -/
def clusterWho (die cl : Nat) : Who :=
  { launch := 0, gang := 0, block := 0, ctx := 0, kind := .lane, loc := ⟨die, cl, 24⟩, die := die
    master := 8 * die + cl, source := 1, peer := 0 }

/-- Write bytes at a physical address in a cluster's name; what the access tables deny, or no memory holds, is not written. -/
def State.putAs (s : State) (die cl pa : Nat) (bs : List Byte) : State :=
  if s.tablesPermit (clusterWho die cl) pa bs.length false true then s.wr pa bs else s

/-- Write bytes into a cluster's ring at PTR and advance it. What the access tables deny the cluster, or lies in a
stack that CAP2.HBM does not report, is lost with PTR advanced (log entry 101). -/
def State.tracePut (s : State) (die cl : Nat) (bs : List Byte) : State :=
  let base := bits (s.reg die (tbReg cl 0)) 51 12 * 4096
  let size := bits (s.reg die (tbReg cl 1)) 39 12 * 4096
  let ptr := bits (s.reg die (tbReg cl 2)) 39 0
  (s.putAs die cl (base + ptr % size) bs).setReg die (tbReg cl 2) (BitVec.ofNat 64 ((ptr + bs.length) % 2 ^ 40))

/-- Ask every traced context of a cluster for a sync record (R374). -/
def State.askSync (s : State) (die cl : Nat) : State :=
  { s with ctxs := updWhere s.ctxs (fun c => c.loc.die == die && c.loc.cluster == cl && c.sr.trctl.getLsbD 0) fun c => { c with traceSync := true } }

/-- Append one record: a pad record fills a gap before a 4 KiB boundary; crossing one asks for sync records, which a sync
record that stands behind the boundary is for its own context. -/
def State.traceRaw (s : State) (c : Ctx) (kind : Nat) (body : List Byte) : State :=
  let die := c.loc.die
  let cl := c.loc.cluster
  let rec' := s.traceBytes c kind body
  let ptr := bits (s.reg die (tbReg cl 2)) 39 0
  let gap := 4096 - ptr % 4096
  if gap < rec'.length then
    let padHead := leBytes 8 (2 ^ 8 * (gap / 16) + 2 ^ 16 * c.loc.core + 2 ^ 21 * c.slotNo + 2 ^ 27 * cl + 2 ^ 31 * die
      + 2 ^ 32 * (s.ns % 2 ^ 32))
    let s1 := ((s.tracePut die cl (padHead ++ zeros (gap - 8))).askSync die cl).tracePut die cl rec'
    if kind == 1 then s1.updCtx c.id fun c => { c with traceSync := false } else s1
  else
    let s1 := s.tracePut die cl rec'
    if gap == rec'.length then s1.askSync die cl else s1

/-- The body of a sync record. -/
def Ctx.syncBody (c : Ctx) : List Byte :=
  (c.allLanes.flatMap fun l => leBytes 8 (c.lane l).pc.toNat)
    ++ ((List.range 64).map fun l => if l < c.width then BitVec.ofNat 8 (c.lstate l) else 0)
    ++ ((List.range 8).flatMap fun n => leBytes 8 (c.rdM n).toNat)

/-- Whether a context's records can be written: traced, and its cluster's buffer has a size. -/
def State.traced (s : State) (c : Ctx) : Bool :=
  c.sr.trctl.getLsbD 0 && bits (s.reg c.loc.die (tbReg c.loc.cluster 1)) 39 12 != 0

/-- Write what must precede a context's next record: a lost record, a sync record. -/
def State.traceLead (s : State) (cid : Nat) : State :=
  match s.ctx? cid with
  | none => s
  | some c =>
    let s1 := if c.traceLost == 0 then s else s.traceRaw c 5 (leBytes 8 c.traceLost)
    let c1 := (s1.ctx? cid).getD c
    let s2 := if c1.traceSync || c.traceLost != 0 then (s1.updCtx cid fun c => { c with traceSync := false }).traceRaw c1 1 c1.syncBody else s1
    s2.updCtx cid fun c => { c with traceLost := 0 }

/-- A record of a context (R374, R375), or its loss while the write port is saturated (a free choice). -/
def State.trace (s : State) (cid kind : Nat) (body : List Byte) : State :=
  match s.ctx? cid with
  | none => s
  | some c =>
    if !s.traced c then s
    else
      let s0 := { s with freeIdx := s.freeIdx + 1 }
      if Config.choose 2 s.freeIdx % 2 == 1 then
        (s0.bumpReg c.loc.die (tbReg c.loc.cluster 3)).updCtx cid fun c => { c with traceLost := c.traceLost + 1 }
      else
        let s1 := s0.traceLead cid
        s1.traceRaw ((s1.ctx? cid).getD c) kind body

/-- The sync record due at a run boundary (R374). -/
def State.traceBoundary (s : State) (cid : Nat) : State :=
  match s.ctx? cid with
  | some c => if s.traced c && c.traceSync then s.traceLead cid else s
  | none => s

/-- Taking an exception with its trace record (KIND 4) and its count (event 0x0B). -/
def State.trapTo (s : State) (cid : Nat) (t : TrapInfo) : State :=
  match s.ctx? cid with
  | none => s.takeTrap cid t
  | some c =>
    let s1 := (s.countAt c.launch c.loc 0x0B 1).takeTrap cid t
    match s1.ctx? cid with
    | none => s1
    | some c1 =>
      if c1.ended then s1
      else s1.trace cid 4 (leBytes 8 c1.sr.tcause.toNat ++ leBytes 8 c1.sr.tlanes.toNat ++ leBytes 8 c1.sr.tfault.toNat
             ++ leBytes 8 c1.sr.taddr.toNat)

end Sys2Proof.Machine
end

