-- ==== Sys2Proof/Machine/Effects.lean ====
section
/-! DEFINITION. Commit effects (02_formats.md R33) and outstanding operations: dispatch onto tokens, preconditions
(R185), starting an operation, its completion (R186), waits and their poison outcome (R189 to R192, R203), and the
drain of a commit behind the side log (R156). -/

namespace Sys2Proof.Machine

/-- The CAUSE and DETAIL of a poison record of a launch; software trap where the index is 0xFFFF or the record cannot
be read (R189). -/
def State.recordCause (s : State) (c : Ctx) (idx : Nat) : Nat × Nat :=
  if idx == 0xFFFF then (0x0F, 0)
  else
    match s.quietRead (whoOf c) (c.sr.prbase.toNat + 32 + 32 * idx) 32 with
    | some pa => (s.readN pa 1, s.readN (pa + 1) 1)
    | none => (0x0F, 0)

/-- The tokens of a mask in a state. -/
def Ctx.toksWhere (c : Ctx) (mask : W32) (p : TokSt → Bool) : List Nat :=
  (List.range 32).filter fun k => mask.getLsbD k && p (c.rdTok k)

/-- The poisoned tokens of a mask. -/
def Ctx.poisonedIn (c : Ctx) (mask : W32) : List Nat := c.toksWhere mask fun t => (t.poison?).isSome

/-- R189: a wait of lanes completed with poisoned tokens ps: the poison status, and in trap mode the deferred trap. -/
def State.poisonWait (s : State) (cid : Nat) (lanes : List Nat) (ps : List Nat) (waitPc : W64) : State :=
  match s.ctx? cid, ps with
  | some c, k :: _ =>
    let idx := ((c.rdTok k).poison?).getD 0xFFFF
    let (cause, detail) := s.recordCause c idx
    let s := if idx == 0xFFFF then s else s.countQuiet (whoOf c) (c.sr.prbase.toNat + 32 + 32 * idx) 32
    s.updCtx cid fun c =>
      let c1 := { c with sr := { c.sr with pstat := c.sr.pstat ||| maskOf ps ||| 0x100000000 } }
      if c.sr.pmode.getLsbD 0 then c1
      else c1.updLanes lanes fun _ x =>
        { x with deferred := some { cause := cause, detail := detail, psn := true, token := k, taddr := waitPc, tepc := x.pc
                                    tval := 0, trec := idx } }
  | _, _ => s

/-- Write a 64-bit result of a wait to an s destination; the zero code and an e register discard it. -/
def Ctx.putWait (c : Ctx) (d : Reg) (x : W64) : Ctx := match d with | .s n => c.wrS n.val x | _ => c

/-- The lanes that wait on the same wait record as a lane. -/
def Ctx.waitGroup (c : Ctx) (w : Wait) : List Nat := c.allLanes.filter fun l => (c.lane l).st == .waiting w

/-- End a WAITK or TWAITK whose tokens are not pending (R191, R192): every lane of the wait becomes runnable. -/
def State.endTokenWait (s : State) (cid lane : Nat) : Option State :=
  match s.ctx? cid with
  | none => none
  | some c =>
    match (c.lane lane).st with
    | .waiting (.waitk mask dst pc) =>
      if !(c.toksWhere mask TokSt.isPending).isEmpty then none
      else
        let ls := c.waitGroup (.waitk mask dst pc)
        let ps := c.poisonedIn mask
        some ((s.updCtx cid fun c => (c.updLanes ls fun _ x => { x with st := .runnable }).putWait dst (maskOf ps)).poisonWait cid ls ps pc)
    | .waiting (.twaitk mask dst dl pc) =>
      if !(c.toksWhere mask TokSt.isPending).isEmpty then none
      else
        let ls := c.waitGroup (.twaitk mask dst dl pc)
        let ps := c.poisonedIn mask
        some ((s.updCtx cid fun c =>
          ls.foldl (fun c l => c.wrP dst.val l true) (c.updLanes ls fun _ x => { x with st := .runnable })).poisonWait cid ls ps pc)
    | _ => none

/-- The effective clock of an island in MHz (19_device.md R395). -/
def State.effMHz (s : State) (die cluster : Nat) : Nat := max 1 (bits (s.reg 0 (0x160000 + 8 * (8 * die + cluster))) 26 16)

/-- Device time when t core cycles have passed at the present clock (R367). -/
def State.deadline (s : State) (l : Loc) (t : Nat) : Nat :=
  let f := s.effMHz l.die l.cluster
  s.ns + (t * 1000 + f - 1) / f

/-- Outcome of a monitor read. -/
inductive MonOut where
  | value (x : W64)
  | absent
  | fail (cause : Nat)
deriving DecidableEq, Repr

/-- Read a monitored element at its home (R203). -/
def State.monRead (s : State) (c : Ctx) (is64 : Bool) (space addr : Nat) (pc : W64) (lane : Nat) : State × MonOut :=
  let n := if is64 then 8 else 4
  match s.tryAccess (whoOf c) space n (BitVec.ofNat 64 addr) .read false with
  | (s1, .fail k) => (s1, .fail k)
  | (s1, .absent) => (s1.postNotice (whoOf c) addr 1, .absent)
  | (s1, .ok pa) =>
    match s1.readElem pa n pc lane with
    | (s2, some x) => (s2, .value (BitVec.ofNat 64 x))
    | (s2, none) => (s2, .fail 0x0B)

/-- A MONWAIT that returns: d written, its lanes runnable. -/
def State.monReturn (s : State) (cid : Nat) (lanes : List Nat) (d : Reg) (x : W64) : State :=
  s.updCtx cid fun c => (c.updLanes lanes fun _ y => { y with st := .runnable }).putWait d x

/-- A MONWAIT that ends with a deferred trap (R203, R426). -/
def State.monTrap (s : State) (cid : Nat) (lanes : List Nat) (cause : Nat) (pc addr : W64) : State :=
  s.updCtx cid fun c => c.updLanes lanes fun _ x =>
    { x with st := .runnable, deferred := some { cause := cause, detail := 0, psn := false, token := 0, taddr := pc, tepc := x.pc
                                                 tval := addr, trec := 0xFFFF } }

/-- A MONWAIT whose read failed after its commit: uncorrectable data ends the wait with a deferred trap (R203); a check that
fails now kills its block (R427). -/
def State.monFail (s : State) (c : Ctx) (lanes : List Nat) (cause : Nat) (pc addr : W64) : State :=
  if cause == 0x0B then s.monTrap c.id lanes cause pc addr else s.lateFail (whoOf c) pc (lanes.headD 0) cause addr

/-- A MONWAIT reads its element: it returns on a changed value, is held on an absent page, ends with a trap, or waits
on (R203). -/
def State.monStep (s : State) (cid : Nat) (lanes : List Nat) (w : Wait) : State :=
  match s.ctx? cid, w with
  | some c, .monwait is64 sp a d e dl _ pc =>
    match s.monRead c is64 sp a pc (lanes.headD 0) with
    | (s1, .value x) =>
      if x == (if is64 then e else e &&& 0xFFFFFFFF) then
        s1.updCtx cid fun c => c.updLanes lanes fun _ y => { y with st := .waiting (.monwait is64 sp a d e dl false pc) }
      else s1.monReturn cid lanes d x
    | (s1, .absent) =>
      s1.updCtx cid fun c => c.updLanes lanes fun _ y => { y with st := .waiting (.monwait is64 sp a d e dl true pc) }
    | (s1, .fail k) => s1.monFail c lanes k pc (BitVec.ofNat 64 a)
  | _, _ => s

/-- Commit of a wait (R191, R192, R202, R203). -/
def State.beginWait (s : State) (cid : Nat) (w : Wait) (lanes : List Nat) : State :=
  match s.ctx? cid with
  | none => s
  | some c =>
    match w with
    | .waitk _ _ _ =>
      let s1 := s.updCtx cid fun c => c.updLanes lanes fun _ x => { x with st := .waiting w }
      (s1.endTokenWait cid (lanes.headD 0)).getD s1
    | .twaitk mask dst t pc =>
      let w1 := Wait.twaitk mask dst (s.deadline c.loc t) pc
      let s1 := s.updCtx cid fun c => c.updLanes lanes fun _ x => { x with st := .waiting w1 }
      match s1.endTokenWait cid (lanes.headD 0) with
      | some s2 => s2
      | none =>
        if t == 0 then
          s.updCtx cid fun c => lanes.foldl (fun c l => c.wrP dst.val l false) c
        else s1
    | .bsync _ => if c.kind != .lane then s else s.updCtx cid fun c => c.updLanes lanes fun _ x => { x with st := .waiting w }
    | .monwait is64 sp a d e t h pc => s.monStep cid lanes (.monwait is64 sp a d e (if t == 0 then 0 else s.deadline c.loc t) h pc)

/-! Operations. -/

/-- Whether an operation is a fabric command of R182's stream, apart from RFENCE itself. -/
def Op.isFabric (o : Op) : Bool := match o.cmd with | .fabric _ => true | _ => o.opc / 16 == 0xC && o.cmd != .rfence

/-- The operations of a context dispatched before one (operation numbers rise with dispatch). -/
def State.earlier (s : State) (o : Op) : List Op := s.ops.filter fun x => x.ctx == o.ctx && x.id < o.id

/-- Bytes that a fabric command accesses: at a device by its pod number, or at any for none; virtual addresses. -/
structure Span where
  dev : Option Nat
  addr : Nat
  len : Nat
  write : Bool

/-- What a fabric command accesses at its targets, its flag among them, and in this device's memory (15_fabric.md R324 to R331), as far
as it names it: an RSTM's members and a collective's buffers stand in memory, the latter where its descriptor `bs` puts them. -/
def FCmd.spans (c : FCmd) (own : Nat) (bs : List Byte) : List Span :=
  let lanes := fun (ty : Nat) (d : Option Nat) (w : Bool) (accs : List Acc) => accs.map fun a => (⟨d, a.addr, fTyBytes ty, w⟩ : Span)
  let flag := fun (d : Option Nat) (s0 : W64) => if pairFlag s0 == 0 then [] else [(⟨d, pairFlag s0, 8, true⟩ : Span)]
  let source := fun (sp a n : Nat) => if sp == 0 then [(⟨some own, a, n, false⟩ : Span)] else []
  match c with
  | .rld ty _ s1 accs => lanes ty (some (pairDev s1)) false accs
  | .rst ty s0 s1 accs | .ratom _ ty s0 s1 accs => lanes ty (some (pairDev s1)) true accs ++ flag (some (pairDev s1)) s0
  | .rcpy ssp s0 s1 dst src size =>
    ⟨some (pairDev s1), dst.toNat, size.toNat, true⟩ :: flag (some (pairDev s1)) s0 ++ source ssp src.toNat size.toNat
  | .rstm ssp s0 s1 dst src size _ =>
    ⟨none, dst.toNat, size.toNat, true⟩ :: flag none s0 ++ source ssp src.toNat size.toNat
      ++ source 0 (bits s1 55 0) (2 * (bits s1 60 56 + 1))
  | .coll op desc _ =>
    let c := collOf op bs
    let peer := fun (d : Nat) => some (c.peer d)
    if !collHeadOk bs then source 0 desc.toNat 64
    else
      [⟨some own, desc.toNat, 64, true⟩, ⟨some own, c.peers, 2 * c.p, false⟩, ⟨some own, c.send, c.n * c.esz, false⟩
        , ⟨some own, c.recv, c.n * c.esz, true⟩, ⟨some own, c.stage, 64 + 2 * c.qb, false⟩, ⟨peer 1, c.stage, 8, true⟩
        , ⟨peer 1, c.stage + 64, 2 * c.qb, true⟩, ⟨peer (c.p - 1), c.stage + 8, 8, true⟩]
        ++ (if c.signal == 0 then [] else [⟨some own, c.signal, 8, true⟩])

/-- The bytes of a collective's descriptor and peer list, as it has read them or as they stand. -/
def State.collBytes (s : State) (o : Op) : List Byte :=
  match o.cmd with
  | .fabric (.coll _ desc data) =>
    if !data.isEmpty then data
    else
      let at' := fun (va : Nat) => match s.walk o.loc.die va with | .leaf _ e large => leafPa e large va | _ => va
      let bs := s.readBytes (at' desc.toNat) 64
      bs ++ (List.range (collOf 0 bs).p).flatMap fun i => s.readBytes (at' ((collOf 0 bs).peers + 2 * i)) 2
  | _ => []

/-- Where a range of virtual addresses lies on a die, page by page. -/
def State.frames (s : State) (die a n fuel : Nat) : List (Nat × Nat) :=
  match fuel with
  | 0 => []
  | k + 1 =>
    if n == 0 then []
    else
      let l := min n (65536 - a % 65536)
      (match s.walk die a with | .leaf _ e large => [(leafPa e large a, l)] | _ => []) ++ s.frames die (a + l) (n - l) k

/-- Whether two ranges of bytes meet. -/
def rangesMeet (p q : Nat × Nat) : Bool := decide (p.1 < q.1 + q.2) && decide (q.1 < p.1 + p.2)

/-- Whether two accesses meet in an element: on one device, by their addresses, and on this device by the places that these name. -/
def State.spansMeet (s : State) (die : Nat) (x y : Span) : Bool :=
  let frames := fun (z : Span) => s.frames die z.addr z.len (z.len / 65536 + 2)
  (x.dev.isNone || y.dev.isNone || x.dev == y.dev)
    && (rangesMeet (x.addr, x.len) (y.addr, y.len)
      || (x.dev.all (fun d => d == s.podNumber) && y.dev.all (fun d => d == s.podNumber)
        && (frames x).any fun p => (frames y).any fun q => rangesMeet p q))

/-- Whether a command writes an element that another accesses at the same device (08_ordering.md Table 8.2, first row). -/
def State.sameElement (s : State) (x y : Op) : Bool :=
  match x.cmd, y.cmd with
  | .fabric a, .fabric b =>
    let bs := b.spans s.podNumber (s.collBytes y)
    (a.spans s.podNumber (s.collBytes x)).any fun p => p.write && bs.any fun q => s.spansMeet x.loc.die p q
  | _, _ => false

/-- Whether an operation may be performed as far as the order of its context's fabric commands is concerned: RFENCE (R182), and
an earlier write of an element that it accesses, which must have been acknowledged (R176, 15_fabric.md R319). -/
def State.fenceFree (s : State) (o : Op) : Bool :=
  if o.cmd == .rfence then !(s.earlier o).any fun x => x.isFabric || x.cmd == .rfence
  else if o.isFabric then !(s.earlier o).any fun x => x.cmd == .rfence || (!x.over && s.sameElement x o)
  else true

/-- Whether a command waits for its engine's own start (COPY_ENGINE_START, MATRIX_COMMAND_PERFORM,
GRAMMAR_COMMAND_START, ENCODER_COMMAND_START, COLLECTIVE_ENGINE_START). -/
def Cmd.engine (c : Cmd) : Bool :=
  match c with
  | .grammar (.grvrd _ _ _ _ _) => false
  | .matrix _ _ _ | .grammar _ | .copy _ | .vcfg _ _ | .venc _ _ _ _ _ _ _ _ => true
  | .fabric (.coll _ _ _) => true
  | _ => false

/-- Perform or start an operation whose preconditions are met; an engine's command stays queued, but a matrix
command with an empty mask, which completes at once (R224). VCFG is performed
by its encoder at ENCODER_COMMAND_START. -/
def State.startOp (s : State) (o : Op) : State :=
  let w := o.who
  match o.cmd with
  | .inactive => s.finishOp o.id (.ok [])
  | .access k sp esz accs => s.performAccess o k sp esz accs
  | .fencek => s.finishOp o.id (.ok [])
  | .rfence => s.finishOp o.id (.ok [])
  | .pbwait cur ph sp b => s.performPbwait o w cur ph sp b
  | .jcwait sp b => s.performJcwait o w sp b
  | .launchg r q => s.performLaunchg o w r q
  | .racq cons sp b => s.startRacq o w cons sp b
  | .rrel fr la sp b sl n => s.performRrel o w fr la sp b sl n
  | .fabric c => if o.cmd.engine then s else s.startFabric o w c
  | .grammar (.grvrd _ sp dst n k) => s.startGrvrd o (w.as 3) sp dst n k
  | .matrix mask _ _ => if mask == 0 then s.finishOp o.id (.ok []) else s
  | _ => s

/-- Move one waiting operation on: skipped for a poisoned precondition (R186), started, or left. -/
def State.advanceOp (s : State) (id : Nat) : State :=
  match s.op? id with
  | none => s
  | some o =>
    if o.stage != .waiting || !o.resolved then s
    else
      match o.prePoison with
      | some r => if o.cmd == .rfence && !s.fenceFree o then s else (s.finishOp id (.skipped r)).unqueue id
      | none => if s.fenceFree o && s.inTurn o then s.startOp o else s

/-- Move every waiting operation on, in dispatch order. -/
def State.settleOps (s : State) : State := (s.ops.map fun o => o.id).foldl (fun s id => s.advanceOp id) s

/-- The values a finished operation writes (R30). -/
def Ctx.putResult (c : Ctx) (d : Dst) (ws : List (Nat × Nat × W64)) : Ctx :=
  match d with
  | .none => c
  | .v n _ => ws.foldl (fun c w => c.wrV (n + w.2.1) w.1 (w.2.2.setWidth 32)) c
  | .s n _ => ws.foldl (fun c w => c.wrS (n + w.2.1) w.2.2) c

/-- How a result leaves its token: the record of a poisoned one, allocated here for a failure (R186, R188). -/
def State.outcome (s : State) (o : Op) (r : Result) : State × Option Nat :=
  match r with
  | .ok _ => (s, none)
  | .skipped x | .phasePoison x => (s, some x)
  | .fail cause detail lane addr aux =>
    let (s1, x) := s.newRecord o.who (recordBytes o.opc o.kind.code o.token detail cause o.loc lane o.pc addr aux)
    (s1, some x)

/-- What the completion of a grammar command does to its context's hold (12_grammar.md R257): a read-out without .HOLD ends it, and
the time of one begins with the completion of the command that made it. -/
def State.endHold (s : State) (o : Op) : State :=
  match o.cmd with
  | .grammar (.grvrd false _ _ _ _) => s.dropHold (clusterKey o.loc) o.ctx
  | .grammar (.mv _ true _ _ _ _ _ _ _) => s.holdBegins (clusterKey o.loc) o.ctx
  | _ => s

/-- Complete an operation into its token (R184, R30): destination written, later preconditions resolved, waiting
arrivals released (R200). -/
def State.completeOp (s : State) (o : Op) (r : Result) : State :=
  let (s1, psn) := s.outcome o r
  let tok := match psn with | some x => TokSt.poisoned x | none => TokSt.done
  let s2 := s1.updCtx o.ctx fun c =>
    if c.rdTok o.token == .pending o.id then
      (match r with | .ok ws => c.putResult o.dst ws | _ => c).wrTok o.token tok
    else c
  let s3 : State := { s2 with
    badVregs := match r, o.dst with
      | .ok ws, .v n _ => s2.badVregs.filter fun b => !(b.1 == o.ctx && ws.any fun w => n + w.2.1 == b.2.1 && w.1 == b.2.2)
      | _, _ => s2.badVregs
    ops := (s2.ops.filter fun x => x.id != o.id).map fun x =>
      { x with
        time := if x.pre.any fun p => p.2 == .on o.id then s2.ns else x.time
        overtaken := x.overtaken.map fun p => { p with edge := p.edge || ((x.pre.any fun q => q.2 == .on o.id) && p.brings o) }
        pre := x.pre.map fun p => if p.2 == .on o.id then (p.1, match psn with | some i => Pre.poisoned i | none => Pre.met) else p }
    lates := s2.lates.map fun l => if l.op == o.id && l.outcome.isNone then { l with outcome := some psn } else l }
  ((s3.endHold o).refreshImage o.ctx).settleOps

/-- Commands that have not left an engine's queue, and the queue's size (R249, R292, 15_fabric.md). -/
def State.queueFull (s : State) (c : Ctx) (cmd : Cmd) : Bool :=
  let same (p : Op → Bool) : Nat := (s.ops.filter fun o => o.stage == .waiting && p o).length
  match cmd with
  | .copy _ =>
    let eng := 4 * clusterKey c.loc + copyEngineOf c.kind c.slotNo c.loc
    decide (32 ≤ same fun o => o.isCopy && s.copyEngine o == eng)
  | .grammar _ =>
    decide (64 ≤ same fun o => (match o.cmd with | .grammar _ => true | _ => false) && clusterKey o.loc == clusterKey c.loc)
  | .fabric (.coll _ _ _) =>
    decide (16 ≤ same fun o => (match o.cmd with | .fabric (.coll _ _ _) => true | _ => false) && o.loc.die == c.loc.die)
  | _ => match s.cmdSession c.launch cmd with | some x => decide (16 ≤ x.queue.length) | none => false

/-- A matrix command takes the core mask and its sequence number at dispatch (11_matrix.md R224, R225). -/
def Cmd.captured (cmd : Cmd) (c : Ctx) : Cmd :=
  match cmd with
  | .matrix _ _ m => .matrix (if m == .idle then 0 else c.coreMask) c.seqNo.toNat m
  | x => x

/-- Dispatch a token-producing instruction (R33): none while its token is pending or its engine's queue is full. -/
def State.dispatch (s : State) (c : Ctx) (pc : W64) (token : Nat) (pres : List Nat) (opc : Nat) (rel acq : Bool)
    (scope : Nat) (dst : Dst) (cmd : Cmd) : Option State :=
  if (c.rdTok token).isPending || s.queueFull c cmd then none
  else
    let pre := pres.map fun k => (k, match c.rdTok k with
      | .pending op => Pre.on op
      | .poisoned r => Pre.poisoned r
      | _ => Pre.met)
    let o : Op := { id := s.nextId, ctx := c.id, launch := c.launch, gang := c.gang, block := c.block, kind := c.kind
                    loc := c.loc, token := token, opc := opc, pc := pc, rel := rel, acq := acq, scope := scope, dst := dst
                    pre := pre, cmd := cmd.captured c, stage := .waiting, time := s.ns }
    let s0 : State := { s with ops := s.ops ++ [o], nextId := s.nextId + 1 }
    let s1 := match s.cmdSession c.launch cmd with
      | some x => s0.updSession x.handle fun x => { x with queue := x.queue ++ [o.id] }
      | none => s0
    let s2 := s1.updCtx c.id fun c =>
      { ((c.forgetMet [token]).wrTok token (.pending o.id)) with seqNo := match cmd with | .matrix _ _ _ => c.seqNo + 1 | _ => c.seqNo }
    some (s2.advanceOp o.id)

/-- GABORT (12_grammar.md R262): the context's queued and executing grammar commands end, and its hold; an executing GBIND writes
STATUS 0 (R259), an executing GMV or GMVA leaves the file's entries open (R256). -/
def State.gabort (s : State) (c : Ctx) : State :=
  let mine := fun (o : Op) => o.ctx == c.id && o.isGrammar && !o.over
  let s1 := s.dropHold (clusterKey c.loc) c.id
  let s2 := (s1.ops.filter fun o => mine o && o.gEngine && o.stage != .waiting).foldl (fun (s : State) o =>
    match o.cmd with
    | .grammar (.bind _ _ _) => s.unbind o
    | _ => s.scrambleFile c.loc) s1
  { s2 with ops := updWhere s2.ops mine fun o => { o with stage := .finished (.fail 0x0F 0x30 0 0 0) } }

/-- Residency regions after a RESB (07_memory.md R162): the status and the regions of the core. Status 3 goes before 2, an .UNBIND of a
place that cannot be bound answers 4, and 'is zero' is read of the size (log entry 97). -/
def resbRegions (key gang : Nat) (b : Block) (unbind : Bool) (off bytes : W64) (rs : List Region) : Nat × List Region :=
  let mine := rs.filter fun r => r.key == key && r.gang == gang && r.block == b.index
  let o := off.toNat
  let n := bytes.toNat
  if key == 0 then (1, rs)
  else if unbind then
    match mine.find? fun r => r.off == o && r.size == n with
    | some r => (0, rs.erase r)
    | none => (4, rs)
  else if o % 1024 != 0 || n % 1024 != 0 || n == 0 || b.size < o + n
      || mine.any (fun r => r.off < o + n && o < r.off + r.size) then (3, rs)
  else if 4 ≤ (rs.filter fun r => r.key == key).length then (2, rs)
  else (0, rs ++ [{ launch := b.launch, key := key, off := o, size := n, gang := gang, block := b.index, base := b.base + o }])

/-- The regions of a context's core after a RESB, with its status; a child warp has no region. -/
def State.resb (s : State) (c : Ctx) (unbind : Bool) (off bytes : W64) (rs : List Region) : Nat × List Region :=
  match s.block? c.block, s.launch? c.launch with
  | some b, some l => resbRegions l.record.key ((s.gang? c.gang).map (fun g => g.linear) |>.getD 0) b unbind off bytes rs
  | _, _ => (1, rs)

/-- Whether a warp holds a slot and registers of a core: it is resident, or has ended in a block whose successor takes them
(04_control.md R75); such a warp keeps them while its block is pre-empted (log entry 96). -/
def State.resident (s : State) (l : Loc) (c : Ctx) : Bool :=
  c.loc == l && c.kind != .seq && !c.saved
    && (!c.ended || (c.kind == .lane && (s.block? c.block).any fun b => b.succSlot.isSome))

/-- The warps of a core that have an SBIND in a commit that is held: the slot it found room for is kept for it (R8, R305). -/
def State.slotsDue (s : State) (l : Loc) : List Ctx :=
  s.ctxs.filter fun c => c.loc == l && !c.saved && !c.ended
    && c.commitQ.any fun e => match e.act with | .sbind _ _ => true | _ => false

/-- Warps and register bytes resident on a core, the producer slots among them (R8). -/
def State.coreLoad (s : State) (l : Loc) : Nat × Nat :=
  let cs := s.ctxs.filter (s.resident l)
  let due := s.slotsDue l
  (cs.length + due.length, cs.foldl (fun n c => n + c.width * c.vregs * 4) 0 + due.foldl (fun n c => n + 32 * c.vregs * 4) 0)

/-- The least warp slot of a core that no warp holds; the spec names none of the free ones (log entry 80). -/
def State.freeSlot (s : State) (l : Loc) : Nat :=
  ((List.range 48).find? fun i => !s.ctxs.any fun c => s.resident l c && c.slotNo == i).getD 0

/-- Whether a block's producer slot is bound. -/
def State.slotBound (s : State) (b : Block) : Bool :=
  match b.slotCtx with
  | some i => (match s.ctx? i with | some c => !c.ended | none => false)
  | none => false

/-- Whether the producer slot of a core is bound, by one of its blocks, or about to be. -/
def State.slotTaken (s : State) (l : Loc) : Bool :=
  (s.blocks.any fun b => b.loc == l && s.slotBound b && !(b.slotCtx.bind s.ctx?).any fun c => c.saved) || !(s.slotsDue l).isEmpty

/-- SBIND's status (14_copy_streams.md R305); `again` when an earlier SBIND of the run binds it. -/
def State.sbindStatus (s : State) (c : Ctx) (entry : W64) (again : Bool) : Nat :=
  match s.block? c.block, s.launch? c.launch with
  | some _, some l =>
    if c.kind == .slot || again || s.slotTaken c.loc then 1
    else if entry.toNat > 63 || (s.spawnTarget (whoOf c) entry.toNat).isNone then 3
    else
      let (n, r) := s.coreLoad c.loc
      if 48 ≤ n || 524288 < r + 32 * l.record.vregs * 4 then 2 else 0
  | _, _ => 3

/-- Bind and start the producer slot (R306). -/
def State.sbind (s : State) (c : Ctx) (entry arg : W64) : State :=
  match s.block? c.block, s.launch? c.launch, s.spawnTarget (whoOf c) entry.toNat with
  | some b, some l, some pc =>
    let n := { Ctx.start s.nextId .slot l c.gang c.block 16 c.loc (s.freeSlot c.loc) 32 (s.pastPads c.loc pc) with s := Table.set (argTable l.record.args) 16 arg 0 }
    { s.updBlock b.id (fun b => { b with slotCtx := some n.id, stat := SlotStat.reset }) with ctxs := s.ctxs ++ [n], nextId := s.nextId + 1 }
  | _, _, _ => s

/-- The status word of SCTL.STAT (Table 14.4). -/
def SlotStat.word (x : SlotStat) (bound : Bool) : W64 :=
  BitVec.ofNat 64 (bitOf bound + 2 * bitOf x.ended + 4 * bitOf x.stopped + 8 * bitOf x.killed + 16 * bitOf x.dset + 32 * bitOf x.lenerr)

/-- The counters after an SCTL (R307). -/
def SlotStat.sctl (x : SlotStat) (sel : Nat) (a : W64) : SlotStat :=
  match sel with
  | 1 => { x with dlen := a, dset := true }
  | 4 => { x with stopped := true }
  | _ => x

/-- The counters after a SEMIT of k offered elements, w of them written (R309). -/
def SlotStat.emit (x : SlotStat) (k w : Nat) : SlotStat :=
  { x with ylen := x.ylen + BitVec.ofNat 64 k, elen := x.elen + BitVec.ofNat 64 w }

/-- Whether SCTL answers the slot's values: the block of the issuing context has bound a slot, ended or not (log entry 27). -/
def State.sctlBound (s : State) (c : Ctx) : Bool := match s.block? c.block with | some b => b.slotCtx.isSome | none => false

/-- The lanes of a stopped slot count as exited at its run boundary (R306). -/
def Ctx.stopLanes (c : Ctx) : Ctx :=
  if c.stopReq then
    let c1 := c.updLanes c.allLanes fun _ x => { x with st := .exited, halted := false, deferred := none }
    { c1 with m := [], stopReq := false }
  else c

/-- Exit lanes (R72): exited, and cleared from every mask. -/
def Ctx.exitLanes (c : Ctx) (ls : List Nat) : Ctx :=
  let c1 := c.updLanes ls fun _ x => { x with st := .exited, halted := false }
  masks.foldl (fun c n => c.wrM n.val (c.rdM n.val &&& ~~~(maskOf ls))) c1

/-- MTSR at commit (17_system.md R361): TRCTL's EN rising asks for a sync record (R374). -/
def Ctx.mtsr (c : Ctx) (n : Nat) (x : W64) : Ctx :=
  match n with
  | 0x04 => { c with sr := { c.sr with tepc := x } }
  | 0x08 => { c with sr := { c.sr with pmode := x } }
  | 0x09 => { c with sr := { c.sr with pstat := x } }
  | 0x0A => { c with sr := { c.sr with trctl := x }, traceSync := c.traceSync || (x.getLsbD 0 && !c.sr.trctl.getLsbD 0) }
  | _ => c

/-- Write words of a tile, scale or accumulator window. -/
def State.mapWords (s : State) (l : Loc) (off : Nat) (ws : List (Nat × W32)) : State :=
  ws.foldl (fun s w => s.wr (mapBase l.die l.cluster l.core + off + 4 * w.1) (leBytes 4 w.2.toNat)) s

/-- Whether an effect may be performed ahead of a drained side log: stores and reductions enter the log (R156). -/
def Act.mayLog (a : Act) : Bool := match a with | .store _ _ _ | .reduce _ _ _ _ | .jcDec _ _ | .pbinit _ _ _ _ _ | .semit _ _ _ _ => true | _ => false

/-- Effects that the side log does not hold back: waits on tokens, which begin after the commit (R156, R191, R192), and PRF,
which never waits (R140). -/
def Act.freeOfLog (a : Act) : Bool :=
  match a with | .wait (.waitk _ _ _) _ | .wait (.twaitk _ _ _ _) _ | .prefetch _ _ => true | _ => false

/-- Effects that an earlier load or atomic with a pending precondition does not hold back: dispatches, whose operations take their
turn, and those that the side log lets pass. -/
def Act.freeOfOrder (a : Act) : Bool := a.freeOfLog || (match a with | .dispatch _ _ _ _ _ _ _ _ => true | _ => false)

/-- The lanes of a HALT, or of a BKPT that had the debug right, after their commit (17_system.md R358, R359): they halt where the launch
has the right now, and else carry the debug trap. -/
def State.haltAt (s : State) (c : Ctx) (ls : List Nat) (pc next : W64) (detail : Nat) : State :=
  s.updCtx c.id fun x => x.updLanes ls fun _ y =>
    if s.debugRight c.launch then { y with halted := true }
    else { y with deferred := some { cause := 0x0E, detail := detail, psn := false, token := 0, taddr := pc, tepc := next, tval := 0
                                     trec := 0xFFFF } }

/-- Perform one effect of a context; none while it must wait (R33, R156, R165). -/
def State.performAct (s : State) (c : Ctx) (e : Eff) : Option State :=
  let w := whoOf c
  if (!e.act.mayLog && !e.act.freeOfLog && s.behindLog c) || (!e.act.freeOfOrder && s.behindGated c) then none
  else
    match e.act with
    | .store sp esz accs => s.commitWrite c none sp esz e.pc accs e.code (.store sp esz)
    | .reduce op sp esz accs => s.commitWrite c (some op) sp esz e.pc accs e.code (.reduce op sp esz)
    | .jcDec sp accs => s.commitWrite c (some (.int 0 2)) sp 8 e.pc accs e.code (.jcDec sp)
    | .prefetch _ accs => some (accs.foldl (fun s a => (s.tryAccess w 0 1 (BitVec.ofNat 64 a.addr) .prefetch false).1) s)
    | .tileWrite y ws => some (s.mapWords c.loc (0x400000 + 2048 * y) ws)
    | .scaleWrite y bs =>
      some (bs.foldl (fun s b => s.wr (mapBase c.loc.die c.loc.cluster c.loc.core + 0x408000 + 64 * y + b.1) [b.2]) s)
    | .accWrite n ws =>
      let s1 := s.mapWords c.loc (0x480000 + 4096 * n) ws
      let k := s1.core c.loc
      some (if ws.isEmpty then s1 else s1.setCore c.loc { k with mirrored := setNth k.mirrored n false })
    | .resb un off n =>
      let k := s.core c.loc
      some (s.setCore c.loc { k with regions := (s.resb c un off n k.regions).2 })
    | .fence _ => some s
    | .tkclr mask => some (s.updCtx c.id fun c =>
        let ks := c.toksWhere mask fun t => !t.isPending
        ks.foldl (fun c k => c.wrTok k .free) (c.forgetMet ks))
    | .tkarr rel k sp b n => s.commitTkarr c e.pc e.code rel k sp b n
    | .arrive opc k sp b n x p => s.commitArrive c e.pc e.code opc k sp b n x p
    | .pbinit sc sp b arr n =>
      if s.behindLog c then (if s.logRoom c.loc then some (s.pushLog c e.pc e.code e.act) else none)
      else
        match s.initAt w e.pc sc sp b arr n with
        | (s1, false) => some s1
        | (s1, true) => if s1.logRoom c.loc then some ((s1.postNotice w b.toNat 2).pushLog c e.pc e.code e.act) else none
    | .pbarr _ sp b n x => s.commitArrive c e.pc e.code 0x68 0 sp b n x none
    | .tkpsn k v =>
      if (c.rdTok k).isPending then none
      else
        let (s1, r) := s.ctxRecord c 0x6C k 0 0x0F 0 e.pc 0 (v.setWidth 64)
        some (s1.updCtx c.id fun c => c.wrTok k (.poisoned r))
    | .mxset m => some (s.updCtx c.id fun c => { c with coreMask := m.toNat % 2 ^ 24 })
    | .gabort => some (s.gabort c)
    | .spawn jm rs _ _ =>
      if s.behindLog c then none
      else
        match s.spawnAdds w e.pc jm rs with
        | (s1, false) => some s1
        | (s1, true) => if s1.logRoom c.loc then some (s1.pushLog c e.pc e.code e.act) else none
    | .rinit sp b off cfg =>
      match s.ringAt w sp b with
      | (s1, .ok pa) => some (s1.ringInit pa b off cfg)
      | (s1, .error (k, _)) => some (s1.lateFail w e.pc 0 k b)
    | .sbind entry arg => some (s.sbind c entry arg)
    | .sctl sel a =>
      match s.block? c.block with
      | some b =>
        if !s.slotBound b then some s
        else
          let s1 := s.setStat b.id fun x => x.sctl sel a
          if sel == 4 then
            match b.slotCtx with
            | some i => some (s1.updCtx i fun x => let y := { x with stopReq := true }; if i != c.id && x.commitQ.isEmpty then y.stopLanes else y)
            | none => some s1
          else some s1
      | none => some s
    | .semit sp esz accs k =>
      match s.commitWrite c none sp esz e.pc accs e.code (.store sp esz) with
      | none => none
      | some s1 => some (s1.setStat c.block fun x => x.emit k accs.length)
    | .collcfg n => some (s.updLaunch c.launch fun l => { l with share := setNth l.share c.loc.die n })
    | .mtsr n x => some (s.updCtx c.id fun c => c.mtsr n x)
    | .tmark tag v =>
      some (if c.sr.trctl.getLsbD 2 then s.trace c.id 3 (leBytes 8 v.toNat ++ leBytes 8 tag) else s)
    | .park m ls => some (s.updCtx c.id fun c => c.updLanes ls fun _ x => { x with st := .parked m })
    | .exit ls => some (s.updCtx c.id fun c => c.exitLanes ls)
    | .succ n arg => some (s.updBlock c.block fun b => { b with succSlot := some (n, arg) })
    | .wait x ls => some (s.beginWait c.id x ls)
    | .eret => some (s.updCtx c.id fun c => c.eret (s.pastPads c.loc c.sr.tepc))
    | .haltLanes ls pc nx d | .haltTrap ls pc nx d => some (s.haltAt c ls pc nx d)
    | .yieldWarp => some { s.updCtx c.id (fun c => { c with behind := s.nextId }) with nextId := s.nextId + 1 }
    | .dispatch tk pres opc rel acq sc d cmd => s.dispatch c e.pc tk pres opc rel acq sc d cmd
    | .taken ts =>
      some (if c.sr.trctl.getLsbD 1 then s.trace c.id 2 (ts.flatMap fun t => leBytes 8 t.1.toNat ++ leBytes 8 t.2.toNat) else s)

/-- The end of a commit: a stopped slot's lanes exit, complete masks release (R70), block barriers complete (R202), and
a due sync record is written. -/
def State.finishCommit (s : State) (cid : Nat) : State :=
  match s.ctx? cid with
  | none => s
  | some c =>
    let s1 := s.updCtx cid fun c => c.stopLanes.release
    (s1.barrierRelease c.block).traceBoundary cid

/-- Perform a context's waiting effects in order until one must wait. -/
def State.drainN (s : State) (cid fuel : Nat) : State :=
  match fuel with
  | 0 => s
  | k + 1 =>
    match s.ctx? cid with
    | none => s
    | some c =>
      match c.commitQ with
      | [] => s.finishCommit cid
      | e :: _ =>
        match s.performAct c e with
        | none => s
        | some s1 => (s1.updCtx cid fun c => { c with commitQ := c.commitQ.drop 1 }).drainN cid k

/-- Perform a context's waiting effects. -/
def State.drain (s : State) (cid : Nat) : State :=
  match s.ctx? cid with
  | some c => s.drainN cid (c.commitQ.length + 1)
  | none => s

/-- A run of a context has committed: the context is the youngest and has one run more in its streak (18_launch.md R386, R387), and
the run has passed the other warps of its core (R389). -/
def State.committed (s : State) (cid : Nat) : State :=
  match s.ctx? cid with
  | none => s
  | some c =>
    { s with
      nextId := s.nextId + 1
      ctxs := s.ctxs.map fun x =>
        if x.id == cid then { x with behind := s.nextId, streak := x.streak + 1 }
        else if c.kind != .seq && x.kind != .seq && x.loc == c.loc then { x with passed := x.passed + 1 } else x }

/-- Go on with a held commit, which counts as committed once it is complete. -/
def State.drainHeld (s : State) (cid : Nat) : State :=
  let t := s.drain cid
  if (t.ctx? cid).any fun c => c.commitQ.isEmpty && !c.ended then t.committed cid else t

end Sys2Proof.Machine
end

