-- ==== Sys2Proof/Machine/Env.lean ====
section
/-! DEFINITION. What an instruction of an open run sees and answers: guards (02_formats.md R19), operand reads at
run-entry values (R33), uniform forms (R27), results held until commit, and the traps of R35 steps 2 to 4. -/

namespace Sys2Proof.Machine

/-- An instruction in its run: the state, the open run, its context (registers at run entry), kind and fields. -/
structure Env where
  s : State
  r : Run
  c : Ctx
  k : Kind
  f : Fields

/-- What an instruction adds to its run: held register writes, e writes (key 64 n + lane), commit effects, and the
PCs of lanes that transfer. -/
structure Out where
  held : List Held
  e : List (Nat × W64)
  acts : List Act
  jumps : List (Nat × W64)
deriving DecidableEq, Repr

/-- Nothing to add. -/
def Out.nil : Out := { held := [], e := [], acts := [], jumps := [] }
/-- Commit effects only. -/
def Out.effect (acts : List Act) : Out := { Out.nil with acts := acts }
/-- Held register writes only. -/
def Out.regs (held : List Held) : Out := { Out.nil with held := held }
/-- Both results. -/
def Out.append (x y : Out) : Out :=
  { held := x.held ++ y.held, e := x.e ++ y.e, acts := x.acts ++ y.acts, jumps := x.jumps ++ y.jumps }

/-- An instruction's answer: results, or a trap as its own fault (R35 step 5). -/
inductive Res where
  | ok (o : Out)
  | trap (t : TrapInfo)
deriving DecidableEq, Repr

/-- The guard of a lane (R19). -/
def Env.guard (v : Env) (l : Nat) : Bool := v.c.rdP v.f.pg.val l != v.f.pn
/-- The lanes of the run whose guard is true. -/
def Env.parts (v : Env) : List Nat := v.r.lanes.filter v.guard
/-- The lowest-numbered lane of the run. -/
def Env.low (v : Env) : Nat := v.r.lanes.headD 0
/-- The guard of the lowest lane, which uniform forms test. -/
def Env.lowG (v : Env) : Bool := v.guard v.low
/-- Bytes of the instruction. -/
def Env.len (v : Env) : Nat := lenBytes v.f.ext.bits.1
/-- Address of the instruction. -/
def Env.pc (v : Env) : W64 := v.r.pc
/-- Address after the instruction. -/
def Env.next (v : Env) : W64 := v.r.pc + BitVec.ofNat 64 v.len
/-- The accesses' issuer. -/
def Env.who (v : Env) : Who := whoOf v.c

/-- IMM32, or the low half of IMM64. -/
def Env.imm (v : Env) : W32 :=
  match v.f.ext with
  | .f96i w => w
  | .f128i w => w.setWidth 32
  | _ => 0
/-- Whether IMM32 is present. -/
def Env.isImm (v : Env) : Bool := v.f.ext.fmt == 1
/-- X0 as a number. -/
def Env.x (v : Env) : Nat := v.f.x
/-- M as a number. -/
def Env.m (v : Env) : Nat := v.f.m.toNat

/-- en of a lane. -/
def Env.rdE (v : Env) (n l : Nat) : W64 := Table.get v.r.e (64 * n + l) 0

/-- An operand's low 32 bits in a lane. -/
def Env.rd32 (v : Env) (x : Reg) (l : Nat) : W32 :=
  match x with
  | .v n => v.c.rdV n.val l
  | .s n => (v.c.rdS n.val).setWidth 32
  | .e n => (v.rdE n.val l).setWidth 32
  | _ => 0

/-- An operand as 64 bits in a lane; a v operand is a pair (R26). -/
def Env.rd64 (v : Env) (x : Reg) (l : Nat) : W64 :=
  match x with
  | .v n => (v.c.rdV n.val l).setWidth 64 ||| ((v.c.rdV (n.val + 1) l).setWidth 64 <<< 32)
  | .s n => v.c.rdS n.val
  | .e n => v.rdE n.val l
  | _ => 0

/-- The whole of one register, zero-extended: 32 bits of a v register, 64 of an s or e register. -/
def Env.rdWhole (v : Env) (x : Reg) (l : Nat) : W64 :=
  match x with
  | .v n => (v.c.rdV n.val l).setWidth 64
  | _ => v.rd64 x l

/-- An operand of 32 or 64 bits, zero-extended. -/
def Env.rd (v : Env) (wide : Bool) (x : Reg) (l : Nat) : W64 :=
  if wide then v.rd64 x l else (v.rd32 x l).setWidth 64

/-- Source B, or IMM32 extended by the type's signedness (R22). -/
def Env.rdB (v : Env) (wide signed : Bool) (l : Nat) : W64 :=
  if v.isImm then
    (if wide && signed then v.imm.signExtend 64 else v.imm.setWidth 64)
  else v.rd wide v.f.b l

/-- A 64-bit uniform operand of an instruction that acts once, in the lowest lane; IMM32 zero-extended where the
format replaces it. -/
def Env.uni (v : Env) (x : Reg) : W64 := v.rd64 x v.low
/-- As `uni`, with IMM32 in its place in F96I. -/
def Env.uniI (v : Env) (x : Reg) : W64 := if v.isImm then v.imm.setWidth 64 else v.rd64 x v.low

/-- The uniform form: no v register named (R27). -/
def Env.uniform (v : Env) : Bool := !usesV v.k v.f

/-- Write a value to D in lanes: v (a pair if wide) and e lane by lane, s with the first lane's value. -/
def Env.put (v : Env) (wide : Bool) (lanes : List Nat) (g : Nat → W64) : Out :=
  match v.f.d with
  | .v n =>
    Out.regs (lanes.flatMap fun l =>
      Held.v n.val l ((g l).setWidth 32) :: (if wide then [Held.v (n.val + 1) l ((g l >>> 32).setWidth 32)] else []))
  | .s n => match lanes with
    | l :: _ => { Out.nil with held := [.s n.val (g l)] }
    | [] => Out.nil
  | .e n => { Out.nil with e := lanes.map fun l => (64 * n.val + l, g l) }
  | _ => Out.nil

/-- Write one uniform value to D: s once, e in every lane of the warp, v in the given lanes (R27, R94). -/
def Env.putOnce (v : Env) (wide : Bool) (vlanes : List Nat) (x : W64) : Out :=
  match v.f.d with
  | .e n => { Out.nil with e := v.c.allLanes.map fun l => (64 * n.val + l, x) }
  | .s n => { Out.nil with held := [.s n.val x] }
  | _ => v.put wide vlanes fun _ => x

/-- A lane-by-lane or uniform computation of D (R19, R27). -/
def Env.alu (v : Env) (wide : Bool) (g : Nat → W64) : Res :=
  .ok (if v.uniform then (if v.lowG then v.putOnce wide v.r.lanes (g v.low) else Out.nil)
       else v.put wide v.parts g)

/-- The lanes that a load, a store or a fabric access acts in: those whose guard is true; in the uniform form the guard of the
lowest lane decides for all (R19, log entry 62). -/
def Env.takers (v : Env) : List Nat := if v.uniform then (if v.lowG then v.r.lanes else []) else v.parts

/-- A predicate result (ICMP.P, FCMP.P, R89): lane by lane, or in every lane of the warp in uniform form. -/
def Env.aluP (v : Env) (g : Nat → Bool) : Res :=
  let n := v.f.d.byte
  .ok (Out.regs (
    if v.uniform then (if v.lowG then v.c.allLanes.map fun l => Held.p n l (g v.low) else [])
    else v.parts.map fun l => Held.p n l (g l)))

/-- A trap of the run at this instruction: every lane of the run at fault, resuming at the run's first instruction. -/
def Env.plainTrap (v : Env) (cause : Nat) : TrapInfo :=
  { cause := cause, detail := 0, psn := false, token := 0, lanes := v.r.lanes, fault := v.r.lanes
    taddr := v.r.pc, tepc := v.r.first, tval := 0, trec := 0xFFFF }

/-- A trap for lanes whose address fails: those lanes at fault, the first one's address in TVAL (R351). -/
def Env.addrTrap (v : Env) (cause : Nat) (fault : List Nat) (addr : W64) : TrapInfo :=
  { v.plainTrap cause with fault := fault, tval := addr }

/-- Cause codes (Table 17.1). -/
def cIllegalInstr : Nat := 0x01
def cIllegalOperand : Nat := 0x02
def cContext : Nat := 0x03
def cMisaligned : Nat := 0x04
def cAccess : Nat := 0x05
def cMirror : Nat := 0x06
def cSpawnEntry : Nat := 0x0A
def cUncorrectable : Nat := 0x0B
def cFabric : Nat := 0x0C
def cStream : Nat := 0x0D
def cDebug : Nat := 0x0E
def cSoftware : Nat := 0x0F

/-- The registers D names as a destination: v n as n, s n as 256 + n, e n as 320 + n. -/
def destKeys (k : Kind) (f : Fields) : List Nat :=
  if !dIsDest k then []
  else
    match (k.slots f).d, f.d with
    | .reg _ _ _ _ n _, .v x => (List.range n).map fun i => x.val + i
    | .reg _ _ _ _ _ sm, .s x => (List.range sm).map fun i => 256 + x.val + i
    | .reg _ _ _ _ _ _, .e x => [320 + x.val]
    | _, _ => []

/-- R30: the instructions of a run that write a register a later one also writes, one of the two as a token-producing
instruction. -/
def clashes (is : List (W64 × Kind × Fields)) : List W64 :=
  match is with
  | [] => []
  | i :: rest =>
    let ds := destKeys i.2.1 i.2.2
    let hit := rest.any fun j => (i.2.1.info.token || j.2.1.info.token) && (destKeys j.2.1 j.2.2).any ds.contains
    (if hit then [i.1] else []) ++ clashes rest

/-- The v and s registers a field names: v n as n, s n as 256 + n. -/
def slotKeys (sl : Slot) (r : Reg) : List Nat :=
  match sl, r with
  | .reg _ _ _ _ n _, .v x => (List.range n).map fun i => x.val + i
  | .reg _ _ _ _ _ sm, .s x => (List.range sm).map fun i => 256 + x.val + i
  | .pay, .v x => (List.range 4).map fun i => x.val + i
  | _, _ => []

/-- The v and s registers an instruction names (R30), CAS's NEW and a peer pair among them. -/
def namedKeys (k : Kind) (f : Fields) : List Nat :=
  let sl := k.slots f
  let x := Reg.ofByte (nbits f.x 15 8)
  let extra := match k with
    | .cas => slotKeys (.any (if nbits f.x 7 5 == 2 || nbits f.x 7 5 == 3 then 2 else 1)) x
    | .rld | .rst | .ratom | .rcpy | .rstm => slotKeys (.reg false true false false 1 2) x
    | _ => []
  slotKeys sl.d f.d ++ slotKeys sl.a f.a ++ slotKeys sl.b f.b ++ slotKeys sl.c f.c ++ extra

/-- The v registers an instruction reads as operands; LOOP also reads its counter in D (04_control.md R66). -/
def sourceVs (k : Kind) (f : Fields) : List Nat :=
  ((if dIsDest k && k != .loopL then namedKeys k { f with d := .zero } else namedKeys k f).filter fun x => decide (x < 256))

/-- The lane an RDLANE or WRLANE addresses: k at width N (05_integer_lane.md R80, R100). -/
def Env.laneOperand (v : Env) : Nat := if v.isImm then v.imm.toNat else (v.rd (v.f.tyW == 2) v.f.b v.low).toNat

/-- The width that bounds SHFL's segment (R97): the launch's, for a sequencer context too. In the producer slot it is the slot's
own 32 lanes (log entry 83). -/
def Env.wholeWidth (v : Env) : Nat :=
  if v.c.kind == .seq then ((v.s.launch? v.c.launch).map fun l => l.record.lanes).getD 64 else v.c.width

/-- The segment of SHFL (R97). -/
def Env.segment (v : Env) : Nat :=
  let g := nbits v.m 5 3
  if g == 0 then v.wholeWidth else 2 ^ g

/-- The source lane of SHFL (R97). -/
def shflLane (op seg l k : Nat) : Nat :=
  let base := l - l % seg
  match op with
  | 0 => base + k % seg
  | 1 => if l < base + k then l else l - k
  | 2 => if l + k ≥ base + seg then l else l + k
  | _ => l ^^^ (k % seg)

/-- The lane a lane of a SHFL reads A in: its source lane where that takes part, else itself (R97). -/
def Env.shflFrom (v : Env) (l : Nat) : Nat :=
  let j := shflLane v.f.sub.val v.segment l (if v.isImm then v.imm else v.rd32 v.f.b l).toNat
  if v.parts.contains j then j else l

/-- The partner lane of QSWAP and QBC (R98). -/
def Env.partner (v : Env) (l : Nat) : Nat :=
  if v.k == .qbc then 4 * (l / 4) + nbits v.f.m.toNat 4 3 else l ^^^ (v.f.sub.val + 1)

/-- Whether the instruction reads v register n in lane l as an operand: in the lanes that take part; the lane exchanges read A
in other lanes (R97, R98, R100). -/
def Env.readsV (v : Env) (n l : Nat) : Bool :=
  let ofA := (slotKeys (v.k.slots v.f).a v.f.a).contains n
  let own := v.parts.contains l
  match v.k with
  | .rdlane => ofA && !v.parts.isEmpty && l == v.laneOperand
  | .qswap | .qbc => ofA && v.parts.any fun i => v.partner i == l
  | .shfl => (ofA && v.parts.any fun i => v.shflFrom i == l) || ((slotKeys (v.k.slots v.f).b v.f.b).contains n && own)
  | _ => (sourceVs v.k v.f).contains n && own

/-- A lane in which the instruction reads a v register with an uncorrectable error (07_memory.md R160). -/
def Env.badRegister (v : Env) : Option Nat :=
  (v.s.badVregs.find? fun b => b.1 == v.c.id && v.readsV b.2.1 b.2.2).map fun b => b.2.2

/-- The first uncorrectable word that a TRD or ACRD reads in its core's files (07_memory.md R144, R160): its address and
its lane. -/
def Env.badFile (v : Env) : Option (Nat × Nat) :=
  if v.s.badWords.isEmpty then none
  else
    let file := fun (base words : Nat) =>
      let j0 := (v.uni v.f.b).toNat
      let at' := mapBase v.c.loc.die v.c.loc.cluster v.c.loc.core + base
      if (v.s.core v.c.loc).holder != some v.c.block then none
      else (v.parts.find? fun l => decide (j0 + l < words) && v.s.badRead (at' + 4 * (j0 + l)) 4).map fun l => (at' + 4 * (j0 + l), l)
    match v.k with
    | .trd => file (0x400000 + 2048 * v.f.a.byte) 512
    | .acrd => file (0x480000 + 4096 * v.f.a.byte) 1024
    | _ => none

/-- The first failing check of R35 steps 2 to 4, as a cause and the trap address (R34). -/
def Env.checkFails (v : Env) : Option (Nat × W64) :=
  if !encOk v.k v.f then some (cIllegalInstr, v.pc)
  else if (v.k == .trap || v.k == .bkpt) && v.r.count != 0 then some (cIllegalInstr, v.pc)
  else if v.k == .shfl && decide (v.wholeWidth < v.segment) then some (cIllegalInstr, v.pc)
  else if !contextOk v.c.kind v.k v.f then some (cContext, v.pc)
  else if !operandsOk v.c.vregs v.k v.f then some (cIllegalOperand, v.pc)
  else if v.r.clash.contains v.pc then some (cIllegalOperand, v.pc)
  else none

/-- Whether the instruction ends its run (R31). -/
def Env.endsRun (v : Env) : Bool := v.f.last || v.k.info.ends || v.r.count + 1 == 24

/-- The precondition tokens of an instruction: KW, and the mask KM of F128X (R28, R29). -/
def preTokens (f : Fields) : List Nat :=
  (if f.kv then [f.kw.val] else [])
    ++ (match f.ext with
      | .f128x km _ => (List.range 32).filter fun k => km.getLsbD k && !(f.kv && f.kw.val == k)
      | _ => [])

/-- A command whose guard is false in every lane that tests it (R19): nothing is performed; a matrix command is numbered and
pending as any other (11_matrix.md R225, R243). -/
def Cmd.idle (c : Cmd) : Cmd := match c with | .matrix _ _ _ => .matrix 0 0 .idle | _ => .inactive

/-- Dispatch of a token-producing instruction onto a token (R28, R33). A command none of whose lanes takes part is
inactive (R19). -/
def Env.produceOn (v : Env) (token : Nat) (rel acq : Bool) (scope : Nat) (dst : Dst) (active : Bool) (cmd : Cmd) : Res :=
  .ok (Out.effect [.dispatch token (preTokens v.f) v.k.info.op rel acq scope dst (if active then cmd else cmd.idle)])

/-- The token M[4:0] names (R28). -/
def Env.token (v : Env) : Nat := nbits v.m 4 0

/-- Dispatch without .REL and .ACQ. -/
def Env.produce (v : Env) (dst : Dst) (active : Bool) (cmd : Cmd) : Res := v.produceOn v.token false false 0 dst active cmd

/-- Dispatch with .REL in M[5], .ACQ in M[6] and the scope in X0[2:0], or a default one without X0 (R23, R28). -/
def Env.produceRA (v : Env) (scope : Nat) (dst : Dst) (active : Bool) (cmd : Cmd) : Res :=
  v.produceOn v.token (v.f.m.getLsbD 5) (v.f.m.getLsbD 6) (if v.f.ext.x0?.isSome then v.x % 8 else scope) dst active cmd

/-- D as the destination of a token-producing instruction: n v registers or sn s registers. -/
def Env.dst (v : Env) (n sn : Nat) : Dst :=
  match v.f.d with
  | .v x => .v x.val n
  | .s x => .s x.val sn
  | _ => .none

/-- The lane in which an operand of a per-lane memory instruction is read: the lowest lane when the instruction names
no v register (R27). -/
def Env.at' (v : Env) (l : Nat) : Nat := if v.uniform then v.low else l

/-- Write a status to D once (s or e), in the uniform way. -/
def Env.status (v : Env) (x : W64) : Out := v.putOnce true [] x

/-- Out with acts appended. -/
def Out.also (o : Out) (acts : List Act) : Out := { o with acts := o.acts ++ acts }

/-- The open run after an instruction's results. -/
def Env.grow (v : Env) (o : Out) : Run :=
  { v.r with
    pc := v.s.pastPads v.c.loc v.next
    count := v.r.count + 1
    e := o.e.foldl (fun t p => Table.set t p.1 p.2 0) v.r.e
    held := v.r.held ++ o.held
    effs := v.r.effs ++ o.acts.map fun a => { pc := v.r.pc, code := v.k.info.op + 256 * v.f.sub.val, act := a }
    jumps := v.r.jumps ++ o.jumps }

end Sys2Proof.Machine
end

