-- ==== Sys2Proof/Machine/Runs.lean ====
section
/-! DEFINITION. Executing one instruction of the open run and committing a run (02_formats.md R31 to R35), with the
checks made on the state a commit would leave (04_control.md R71, 09_tokens_barriers.md R202). -/

namespace Sys2Proof.Machine

/-- What the run at an address holds, as far as its code can be read now: its instructions with their addresses, and the
address of the first block on a page that is not present. -/
structure Ahead where
  seen : List (W64 × Kind × Fields)
  missing : Option Nat

/-- Read the run at an address ahead, without side effect. -/
def State.ahead (s : State) (at' : Loc) (pc : W64) (fuel : Nat) : Ahead :=
  match fuel with
  | 0 => { seen := [], missing := none }
  | n + 1 =>
    let a := pc.toNat
    match s.peekCode at' a with
    | .absent => { seen := [], missing := some a }
    | .ok pa =>
      match decode (s.readBytes pa (32 - a % 32)) with
      | .ok i len =>
        match i.view with
        | some (k, f) =>
          if f.last || k.info.ends then { seen := [(pc, k, f)], missing := none }
          else
            let r := s.ahead at' (s.pastPads at' (pc + BitVec.ofNat 64 len)) n
            { r with seen := (pc, k, f) :: r.seen }
        | none => { seen := [], missing := none }
      | _ => { seen := [], missing := none }
    | _ => { seen := [], missing := none }

/-- Write one held register value. -/
def Ctx.put (c : Ctx) (h : Held) : Ctx :=
  match h with
  | .v n l x => c.wrV n l x
  | .s n x => c.wrS n x
  | .p n l x => c.wrP n l x
  | .m n x => c.wrM n x

/-- Write held values, last in program order winning (R33). -/
def Ctx.putAll (c : Ctx) (hs : List Held) : Ctx := hs.foldl Ctx.put c

/-- The lanes of a committed run at their new PCs; a lane stepped by the debugger halts again (R370). -/
def Ctx.movePcs (c : Ctx) (r : Run) : Ctx :=
  c.updLanes r.lanes fun l x =>
    { x with pc := (r.jumps.find? fun j => j.1 == l).elim r.pc fun j => j.2
             fell := !r.jumps.any fun j => j.1 == l
             halted := x.stepping, stepping := false }

/-- The lane states that the control effects of a commit leave, before any release (R70 to R72, R202, R370). -/
def Ctx.afterAct (c : Ctx) (a : Act) : Ctx :=
  match a with
  | .park m ls => c.updLanes ls fun _ x => { x with st := .parked m }
  | .exit ls => c.exitLanes ls
  | .wait w ls =>
    match w with
    | .bsync _ => if c.kind != .lane then c else c.updLanes ls fun _ x => { x with st := .waiting w }
    | _ => c.updLanes ls fun _ x => { x with st := .waiting w }
  | .haltLanes ls _ _ _ => c.updLanes ls fun _ x => { x with halted := true }
  | .eret => c.eret c.sr.tepc
  | _ => c

/-- The context a commit would leave. -/
def Ctx.after (c : Ctx) (r : Run) : Ctx :=
  r.effs.foldl (fun c e => c.afterAct e.act) ((c.putAll r.held).movePcs r)

/-- Whether a commit would leave a meeting or a block's barriers deadlocked (R71, R202). -/
def State.deadlocks (s : State) (c : Ctx) (r : Run) : Bool :=
  let c1 := c.after r
  c1.meetingDeadlock
    || (c.kind == .lane && barrierDeadlock ((s.warpsOf c.block).map fun x => if x.id == c.id then c1 else x))

/-- Reserve the entries of the SPAWNs of a commit (13_spawn.md R273), in program order; SPQ.LAST tells how the
last one with a failing lane failed (R289). -/
def State.reserveAll (s : State) (c : Ctx) (effs : List Eff) : State × List Eff :=
  effs.foldl (fun (p : State × List Eff) e =>
    match e.act with
    | .spawn jm rs fg fr =>
      let (s1, rs1) := p.1.reserve c jm rs
      let s2 := (s1.countAt c.launch c.loc 9 rs.length).countAt c.launch c.loc 0x0A (fg + fr)
      let s3 := if fg + fr == 0 then s2 else s2.updCtx c.id fun c => { c with spqLast := bitOf (fg != 0) + 2 * bitOf (fr != 0) }
      (s3, p.2 ++ [{ e with act := .spawn jm rs1 fg fr }])
    | _ => (p.1, p.2 ++ [e])) (s, [])

/-- Registers written whole are sound again (07_memory.md R160). -/
def State.mend (s : State) (cid : Nat) (hs : List Held) : State :=
  if s.badVregs.isEmpty then s
  else { s with badVregs := s.badVregs.filter fun b =>
    !(b.1 == cid && hs.any fun h => match h with | .v n l _ => n == b.2.1 && l == b.2.2 | _ => false) }

/-- Count an uncorrectable error in the vector registers of a core (19_device.md R404); it has no address (log entry 33). -/
def State.countReg (s : State) (l : Loc) : State :=
  s.countError l.die l.cluster l.core 7 0

/-- Commit a run (R33): held values written together, PCs moved, effects performed in program order as far as they can
be now. -/
def State.commitRun (s : State) (c : Ctx) (r : Run) : State :=
  let (s1, effs) := s.reserveAll c r.effs
  let s2 := (s1.updCtx c.id fun c => { (c.putAll r.held).movePcs r with commitQ := effs }).countAt c.launch c.loc 3 1
  (({ s2 with run := none } : State).mend c.id r.held).drain c.id

/-- Count the uncorrectable table entry that a trap before commit has met (19_device.md R404). -/
def State.countTrap (s : State) (w : Who) (t : TrapInfo) : State :=
  if t.cause == 0x0B then s.countWalk w t.tval.toNat else s

/-- One instruction of a run: checks in the order of R35, its effect within the run, and at the run's end the commit.
An instruction is counted whether or not its run commits (Table 17.5). -/
def Env.execute (v : Env) (body : Env → Res) : State :=
  let s := v.s.countAt v.c.launch v.c.loc 2 1
  match v.checkFails with
  | some (cause, at') => s.trapTo v.c.id { v.plainTrap cause with taddr := at' }
  | none =>
    match v.badRegister, v.badFile with
    | some l, _ => (s.countReg v.c.loc).killUnc v.c.block v.r.pc l 0
    | none, some (pa, l) => s.uncHit pa v.r.pc l
    | none, none =>
      match body v with
      | .trap t => (s.countTrap v.who t).trapTo v.c.id t
      | .ok o =>
        let r := v.grow o
        if !v.endsRun then { s with run := some r }
        else if s.deadlocks v.c r then
          s.trapTo v.c.id { v.plainTrap cIllegalInstr with taddr := r.first }
        else s.commitRun v.c r

/-- The meaning of an instruction of the map: kind, fields and what it computes from its environment. -/
def execIsa (k : Kind) (f : Fields) (body : Env → Res) (s : State) : Host.Outcome State Fault Refusal :=
  match s.run with
  | none => .fault .noRun
  | some r =>
    match s.ctx? r.ctx with
    | none => .fault .noContext
    | some c => .next (Env.execute { s := s, r := r, c := c, k := k, f := f } body)

/-- The entry index of a lane: 32 bits of a v register, otherwise 64 bits or the immediate (R271). -/
def Env.spawnIdx (v : Env) (l : Nat) : Nat :=
  if v.isImm then v.imm.toNat
  else match v.f.b with
    | .v n => (v.c.rdV n.val l).toNat
    | r => (v.rd64 r l).toNat

/-- The spawn-table entries that an instruction looks up (13_spawn.md R272, 04_control.md R74, 14_copy_streams.md R305). -/
def Env.lookups (v : Env) : List Nat :=
  match v.k with
  | .spawn => (v.parts.map v.spawnIdx).eraseDups
  | .exitSucc => if v.parts.isEmpty then [] else [(v.uni v.f.a).toNat]
  | .sbind => if v.lowG then [(v.uni v.f.a).toNat] else []
  | _ => []

/-- The state with the uncorrectable errors counted that the instruction meets in the spawn table (19_device.md R404). -/
def Env.looked (v : Env) : State :=
  if v.checkFails.isNone && v.badRegister.isNone then v.lookups.foldl (fun s i => s.countSpawn v.who i) v.s else v.s

/-- The meaning of an instruction that looks up the spawn table. -/
def execTable (k : Kind) (f : Fields) (body : Env → Res) (s : State) : Host.Outcome State Fault Refusal :=
  match s.run with
  | none => .fault .noRun
  | some r =>
    match s.ctx? r.ctx with
    | none => .fault .noContext
    | some c => execIsa k f body (Env.looked { s := s, r := r, c := c, k := k, f := f })

end Sys2Proof.Machine
end

