-- ==== Sys2Proof/Machine/Issue.lean ====
section
/-! DEFINITION. Issue: the groups of a warp and their order (04_control.md R55, R56), what a run needs before it
begins (02_formats.md R29, R30; fetch, 04_control.md R59), deferred traps (17_system.md R426), breakpoints (R370), and
the fetch of the next instruction of an open run (02_formats.md R15, R16). -/

namespace Sys2Proof.Machine

/-- The lanes that could run and stand at a PC: a group (R55). -/
def Ctx.groupAt (c : Ctx) (ls : List Nat) (pc : W64) : List Nat := ls.filter fun l => (c.lane l).pc == pc

/-- The lowest lanes of the groups formed by a list of lanes in increasing order. -/
def Ctx.leaders (c : Ctx) (ls : List Nat) : List Nat :=
  ls.filter fun l => (c.groupAt ls (c.lane l).pc).headD l == l

/-- The next group to issue among a list of lanes (R56). -/
def Ctx.nextGroup (c : Ctx) (ls : List Nat) : List Nat :=
  let heads := c.leaders ls
  let after := match c.last with
    | some k => heads.find? fun l => decide (k < l)
    | none => none
  match (match after with | some l => some l | none => heads.head?) with
  | some l => c.groupAt ls (c.lane l).pc
  | none => []

/-- The registers of a token-producing destination. -/
def Dst.keys (d : Dst) : List Nat :=
  match d with
  | .none => []
  | .v n k => (List.range k).map fun i => n + i
  | .s n k => (List.range k).map fun i => 256 + n + i

/-- The tokens that gate a run's begin (R29). -/
def Ahead.gates (a : Ahead) : List Nat :=
  a.seen.flatMap fun x => if x.2.1.info.token then [] else preTokens x.2.2

/-- Registers of a context pending on its tokens (R30). -/
def State.pendingKeys (s : State) (c : Ctx) : List Nat :=
  s.ops.flatMap fun o => if o.ctx == c.id && c.rdTok o.token == .pending o.id then o.dst.keys else []

/-- Whether a run may not begin yet: a gate is pending, or a register it names is (R29, R30). -/
def State.gated (s : State) (c : Ctx) (a : Ahead) : Bool :=
  (a.gates.any fun k => (c.rdTok k).isPending)
    || (let ks := s.pendingKeys c; a.seen.any fun x => (namedKeys x.2.1 x.2.2).any ks.contains)

/-- The page whose fetch holds a lane at its PC (R59). -/
def Lane.heldAt (x : Lane) : Option Nat := x.fetchHold.bind fun h => if h.1 == x.pc then some h.2 else Option.none

/-- The runnable lanes of a context that wait for no held fetch (R59, R155); a deferred trap is taken before its run is fetched
(R426). -/
def Ctx.fetchable (c : Ctx) : List Nat :=
  let ls := c.allLanes.filter c.canRun
  ls.filter fun l =>
    let g := c.groupAt ls (c.lane l).pc
    (g.any fun i => (c.lane i).deferred.isSome) || !(g.any fun i => (c.lane i).heldAt.isSome)

/-- Take a deferred trap at the entry of a run (R426): it is no longer held by any lane that carries it. -/
def State.takeDeferred (s : State) (c : Ctx) (ls : List Nat) (d : Deferred) : State :=
  (s.updCtx c.id fun c => { c.updLanes ls (fun _ x => if x.deferred == some d then { x with deferred := none } else x) with
      last := some (ls.headD 0) }).trapTo c.id
    { cause := d.cause, detail := d.detail, psn := d.psn, token := d.token, lanes := ls, fault := ls
      taddr := d.taddr, tepc := d.tepc, tval := d.tval, trec := d.trec }

/-- Open a run for a group: its warp has begun one (18_launch.md R389). -/
def State.openRun (s : State) (c : Ctx) (ls : List Nat) (pc : W64) (clash : List W64) : State :=
  { s.updCtx c.id (fun c =>
      { c.updLanes ls (fun _ x => { x with met := x.met.filter fun m => m.1 != pc }) with last := some (ls.headD 0), passed := 0 }) with
    run := some { ctx := c.id, lanes := ls, first := pc, pc := pc, count := 0, e := [], held := [], effs := [], jumps := []
                  clash := clash } }

/-- The poisoned tokens that the run at an address meets (R29, R30, R189): its gates, and those that a wait of its lanes for
its registers has met and that have been neither freed nor dispatched onto since (`Ctx.forgetMet`). -/
def Ctx.meets (c : Ctx) (ls : List Nat) (pc : W64) (gates : List Nat) : List Nat :=
  (List.range 32).filter fun k =>
    (c.rdTok k).poison?.isSome && (gates.contains k || ls.any fun l => (c.lane l).met.contains (pc, k))

/-- The lanes of a group whose run would begin at an armed breakpoint and that are not being stepped (R370). -/
def State.atBreak (s : State) (c : Ctx) (ls : List Nat) (pc : W64) : List Nat :=
  match s.launch? c.launch with
  | some l =>
    if s.debugRight c.launch && l.breaks.any (fun b => b.2 == pc) then ls.filter fun l => !(c.lane l).stepping else []
  | none => []

/-- Begin the next run of a context, or do what stands in its place: go past pads (R16), halt at a breakpoint, take a deferred
trap, post the notice of a fetch, or take the outcome of a poisoned precondition. None while the context has no run to begin, or its launch is cancelled
(R393). -/
def State.beginRun (s : State) (cid : Nat) : Option State :=
  match s.ctx? cid with
  | none => none
  | some c =>
    if c.ended || c.saved || !c.commitQ.isEmpty || s.run.isSome || (s.launch? c.launch).any (fun x => x.dying) then none
    else
      match c.nextGroup c.fetchable with
      | [] => none
      | l :: rest =>
        let ls := l :: rest
        let pc := (c.lane l).pc
        let brk := s.atBreak c ls pc
        let fell := ls.filter fun l => (c.lane l).fell
        let past := if fell.isEmpty then pc else s.pastPads c.loc pc
        if past != pc then some (s.updCtx cid fun c => c.updLanes fell fun _ x => { x with pc := past })
        else if !brk.isEmpty then some (s.updCtx cid fun c => c.updLanes brk fun _ x => { x with halted := true })
        else
          match ls.findSome? fun l => (c.lane l).deferred with
          | some d => some (s.takeDeferred c ls d)
          | none =>
            let a := s.ahead c.loc pc 24
            match a.missing with
            | some va => some ((s.updCtx cid fun c => c.updLanes ls fun _ x => { x with fetchHold := some (pc, va / 2 ^ 16) }).postNotice (whoOf c) va 3)
            | none =>
              if s.gated c a then none
              else
                let ps := c.meets ls pc a.gates
                if ps.isEmpty then some (s.openRun c ls pc (clashes a.seen))
                else
                  let s1 := s.poisonWait cid ls ps pc
                  match s1.ctx? cid with
                  | some c1 =>
                    match (c1.lane l).deferred with
                    | some d => some (s1.takeDeferred c1 ls d)
                    | none => some (s1.openRun c1 ls pc (clashes a.seen))
                  | none => some s1

/-- R30, R189: the group of a context that waits at run entry for a register pending on an operation. -/
def State.waitsAtEntry (s : State) (o : Op) : Option (List Nat × W64) :=
  match s.ctx? o.ctx with
  | none => none
  | some c =>
    if c.ended || !c.commitQ.isEmpty then none
    else
      match c.nextGroup c.fetchable with
      | [] => none
      | l :: rest =>
        let pc := (c.lane l).pc
        if (s.ahead c.loc pc 24).seen.any fun x => (namedKeys x.2.1 x.2.2).any o.dst.keys.contains then some (l :: rest, pc)
        else none

/-- What fetching the next instruction gives. -/
inductive Fetched where
  | ok (i : Instr)
  | hold
  | trap (cause : Nat) (tval : W64)
deriving DecidableEq, Repr

/-- Fetch and decode the instruction at an address (R15, R16, R59). -/
def State.fetch (s : State) (c : Ctx) (pc : W64) : State × Fetched :=
  let a := pc.toNat
  if a / 2 ^ 56 != 0 then (s, .trap cAccess pc)
  else
    match s.translate (whoOf c) (a / 32 * 32) 32 .fetch with
    | (s1, .absent) => (s1.postNotice (whoOf c) a 3, .hold)
    | (s1, .violation) => (s1, .trap cAccess pc)
    | (s1, .error pa) => (s1.countUnc pa, .trap cUncorrectable pc)
    | (s1, .ok pa) =>
      if s1.badRead pa 32 then (s1.countUnc pa, .trap cUncorrectable pc)
      else
        match decode (s1.readBytes (pa + a % 32) (32 - a % 32)) with
        | .ok i _ => (s1, .ok i)
        | _ => (s1, .trap cIllegalInstr 0)

/-- A trap of the open run where its next instruction cannot be had (R35 steps 1 and 2). -/
def State.fetchTrap (s : State) (r : Run) (cause : Nat) (tval : W64) : State :=
  s.trapTo r.ctx { cause := cause, detail := 0, psn := false, token := 0, lanes := r.lanes, fault := r.lanes
                   taddr := r.pc, tepc := r.first, tval := tval, trec := 0xFFFF }

end Sys2Proof.Machine
end

