-- ==== Sys2Proof/Machine/MatrixUnit.lean ====
section
/-! DEFINITION. The matrix unit of a core (11_matrix.md R226 to R247): a step's arithmetic, the latch, mirror mode,
drains and loads, stamps, and the performance of one command on the cores of its mask. -/

namespace Sys2Proof.Machine

/-- Conversion type of an A or B type code (R229). -/
def mType (t : Nat) : Nat := match t with | 0 => 2 | 1 => 1 | 2 => 3 | 3 => 4 | _ => 5
/-- Conversion type of an OT or IT code (R234). -/
def oType (t : Nat) : Nat := match t with | 0 => 0 | 1 => 2 | 2 => 1 | 3 => 3 | 4 => 4 | _ => 5
/-- Element bytes of an OT or IT code. -/
def oBytes (t : Nat) : Nat := match t with | 0 => 4 | 1 | 2 => 2 | _ => 1
/-- K and the group size G of a type's family (R229, R230). -/
def mFamily (t : Nat) : Nat × Nat := if t ≤ 1 then (32, 8) else if t ≤ 3 then (64, 16) else (64, 32)

/-- Element k of a 64-byte row or column. -/
def mElem (t : Nat) (row : List Byte) (k : Nat) : Nat :=
  if t ≤ 1 then leNat ((row.drop (2 * k)).take 2) else leNat ((row.drop k).take 1)

/-- The exact product of two elements (R105, R230). -/
def mProduct (at' bt x y : Nat) : FVal := if at' == 4 then lgMul x y else (fdec (mType at') x).mul (fdec (mType bt) y)

/-- A value times an E8M0 scale (R106). -/
def FVal.scaleE8 (v : FVal) (e : Nat) : FVal :=
  if e == 255 then .nan
  else match v with
    | .fin n m x => .fin n m (x + e - 127)
    | v => v

/-- One group added into an accumulator element (R230): one rounding, an exact zero is +0. -/
def mGroup (acc : Nat) (products : List FVal) (sa sb : Nat) : Nat :=
  let s := ((fsum products false).scaleE8 sa).scaleE8 sb
  fenc 0 0 (fsum [fdec 0 acc, s] false)

/-- One element over a step: its groups in increasing K (R230). `ra` and `cb` are the row of A and the column of B,
`sa` and `sb` their two scales. -/
def mElement (at' bt acc : Nat) (ra cb : List Byte) (sa sb : List Nat) : Nat :=
  let (k, g) := mFamily at'
  let ps := (List.range k).map fun i => mProduct at' bt (mElem at' ra i) (mElem bt cb i)
  (List.range (k / g)).foldl (fun acc j => mGroup acc ((ps.drop (j * g)).take g) (nth sa (j * g / 32) 127) (nth sb (j * g / 32) 127)) acc

/-- The 1,024 elements of an accumulator after a step. -/
def mStep (at' bt : Nat) (acc : List Nat) (a sca b scb : List Byte) : List Nat :=
  (List.range 32).flatMap fun i =>
    let ra := (a.drop (64 * i)).take 64
    let sa := ((sca.drop (2 * i)).take 2).map BitVec.toNat
    (List.range 32).map fun j =>
      mElement at' bt (nth acc (32 * i + j) 0) ra ((b.drop (64 * j)).take 64) sa (((scb.drop (2 * j)).take 2).map BitVec.toNat)

/-- Where accumulator c of a core lies. -/
def accPa (l : Loc) (c : Nat) : Nat := mapBase l.die l.cluster l.core + 0x480000 + 4096 * c
/-- Where tile register y lies. -/
def tilePa (l : Loc) (y : Nat) : Nat := mapBase l.die l.cluster l.core + 0x400000 + 2048 * y
/-- Where the scale bytes of tile register y lie. -/
def scalePa (l : Loc) (y : Nat) : Nat := mapBase l.die l.cluster l.core + 0x408000 + 64 * y

/-- The words of an accumulator. -/
def State.accWords (s : State) (l : Loc) (c : Nat) : List Nat := (List.range 1024).map fun w => s.readN (accPa l c + 4 * w) 4
/-- The words of an accumulator's shadow. -/
def Core.shadowWords (k : Core) (c : Nat) : List Nat :=
  (List.range 1024).map fun w => (Table.get k.shadow (1024 * c + w) (0 : W32)).toNat
/-- Replace a shadow. -/
def Core.setShadow (k : Core) (c : Nat) (ws : List Nat) : Core :=
  { k with shadow := ((List.range 1024).zip ws).foldl (fun t p => Table.set t (1024 * c + p.1) (BitVec.ofNat 32 p.2) 0) k.shadow }
/-- Replace an accumulator. -/
def State.setAcc (s : State) (l : Loc) (c : Nat) (ws : List Nat) : State :=
  s.wr (accPa l c) (ws.flatMap fun w => leBytes 4 w)

/-- Why a command fails on a core: cause, DETAIL, address. -/
abbrev MFail := Nat × Nat × Nat

/-- What became of a command on one core: ended, failed, waiting for a page, or with more to do. -/
inductive MOut where
  | done
  | fail (f : MFail)
  | absent (va : Nat)
  | more (w : MWork)
deriving DecidableEq, Repr

/-- The fields of an MMA's words (Tables 11.1 and 11.5): offsets and steps of B and of its scales, tile step. -/
structure MWords where
  bsv : Bool
  boff : Nat
  soff : Nat
  bs : Nat
  ss : Nat
  ys : Nat

/-- Read the words. -/
def mWords (bw sw : W64) : MWords :=
  { bsv := bw.getLsbD 63, boff := bits bw 18 0, soff := bits bw 50 32, bs := bits sw 18 0, ss := bits sw 50 32, ys := bits sw 55 52 }

/-- The first check of R235 and R236 that fails, against a region of `size` bytes. -/
def mCheck (bw sw : W64) (steps size : Nat) : Option MFail :=
  let w := mWords bw sw
  let is := List.range steps
  if bits bw 62 51 != 0 || bits bw 31 19 != 0 || bits sw 63 56 != 0 || sw.getLsbD 51 || bits sw 31 19 != 0 then some (2, 1, 0)
  else if w.boff % 64 != 0 || w.bs % 64 != 0 || (w.bsv && (w.soff % 64 != 0 || w.ss % 64 != 0)) then some (4, 2, 0)
  else if is.any (fun i => size < w.boff + i * w.bs + 2048 || (w.bsv && size < w.soff + i * w.ss + 64)) then some (5, 3, 0)
  else none

/-- The operands of a step: tile register, offsets of B and of its scales. -/
structure MStep where
  y : Nat
  boff : Nat
  soff : Nat

/-- Step i of a command (R236). -/
def MWords.at' (w : MWords) (y i : Nat) : MStep := { y := (y + i * w.ys) % 16, boff := w.boff + i * w.bs, soff := w.soff + i * w.ss }

/-- The first uncorrectable word that a step reads. -/
def State.stepError (s : State) (l : Loc) (region c : Nat) (bsv : Bool) (x : MStep) : Option Nat :=
  let bad := fun (pa n : Nat) => if s.badRead pa n then some pa else none
  (if (s.core l).latch.isSome then none else (bad (tilePa l x.y) 2048).orElse fun _ => bad (scalePa l x.y) 64).orElse fun _ =>
    (bad (region + x.boff) 2048).orElse fun _ => (if bsv then bad (region + x.soff) 64 else none).orElse fun _ => bad (accPa l c) 4096

/-- The latch of a step (R231, R235, R146): the A it uses, and what its update will write to the accumulator and its shadow. -/
def State.stepLatch (s : State) (l : Loc) (region c at' bt : Nat) (bsv : Bool) (x : MStep) : Latch × List Nat × List Nat :=
  let k := s.core l
  let a := k.latch.getD { a := s.readBytes (tilePa l x.y) 2048, scales := s.readBytes (scalePa l x.y) 64 }
  let b := s.readBytes (region + x.boff) 2048
  let scb := if bsv then s.readBytes (region + x.soff) 64 else List.replicate 64 (127 : Byte)
  (a, mStep at' bt (s.accWords l c) a.a a.scales b scb, mStep at' bt (k.shadowWords c) a.a a.scales b scb)

/-- Replace an accumulator's words, its shadow and its mirrored bit. -/
def State.putAcc (s : State) (l : Loc) (c : Nat) (ws sh : List Nat) (mirrored : Bool) : State :=
  let s1 := s.setAcc l c ws
  let k := (s1.core l).setShadow c sh
  s1.setCore l { k with mirrored := setNth k.mirrored c mirrored }

/-- The update of a step (R232). -/
def State.stepUpdate (s : State) (l : Loc) (c : Nat) (dup : Bool) (ws sh : List Nat) : State :=
  let k := s.core l
  s.putAcc l c ws (if dup then sh else k.shadowWords c) (dup && nth k.mirrored c true)

/-- The stamp episode after the steps of a command (R247), whose first step collected its operands and started at `began`. -/
def Episode.stepped (e : Episode) (ready began now n : Nat) : Episode :=
  if e.steps == 0 then { copyIn := ready, opWait := began, cstart := began, cend := now, steps := n }
  else { e with cend := now, steps := (e.steps + n) % 2 ^ 32 }

/-- An act of an MMA or MMAS on a core (R235, R236, R244 to R246): the checks of every step and the first latch, a later
latch, or an update, after the last of which the command has ended there. A command that fails has left the core as it was. -/
def State.mmaOn (s : State) (o : Op) (l : Loc) (b : Block) (keep dup : Bool) (at' bt steps c y : Nat) (bw sw : W64) (w : MWork) :
    State × MOut :=
  let region := mapBase l.die l.cluster l.core + b.base
  let x := mWords bw sw
  match w.after with
  | some (ws, sh) =>
    let s1 := s.stepUpdate l c dup ws sh
    if w.step + 1 < steps then (s1, .more { w with step := w.step + 1, after := none })
    else
      let k := s1.core l
      (s1.setCore l { k with
        latch := if keep then w.used else none
        episodes := setNth k.episodes c ((nth k.episodes c Episode.reset).stepped o.time w.since s.ns steps) }, .done)
  | none =>
    let first := w.step == 0
    let errs := if first then (List.range steps).findSome? fun i => s.stepError l region c x.bsv (x.at' y i)
      else s.stepError l region c x.bsv (x.at' y w.step)
    match (if first then mCheck bw sw steps b.size else none), errs with
    | some f, _ => (s, .fail f)
    | none, some pa =>
      let s1 := if first then s else s.putAcc l c w.undo.1 w.undo.2.1 w.undo.2.2
      (s1.uncHit pa o.pc 0, .fail (0x0B, 6, pa))
    | none, none =>
      let (a, r) := s.stepLatch l region c at' bt x.bsv (x.at' y w.step)
      let k := s.core l
      (s, .more { w with after := some r, used := some a
                         undo := if first then (s.accWords l c, k.shadowWords c, nth k.mirrored c true) else w.undo
                         since := if first then s.ns else w.since })

/-- ACZERO on a core (R237). -/
def State.aczeroOn (s : State) (l : Loc) (c : Nat) : State × MOut :=
  let z := List.replicate 1024 0
  let s1 := s.putAcc l c z z true
  let k := s1.core l
  (s1.setCore l { k with episodes := setNth k.episodes c Episode.reset }, .done)

/-- The issuer of a drain's or load's accesses on core n: in .LOC, the block of that core (R238). -/
def Op.mWho (o : Op) (b : Block) (space : Nat) : Who :=
  if space == 1 then { o.who with kind := .lane, block := b.id } else o.who

/-- Address, element size and row bytes of a tile (R238). -/
def tileParts (rowBytes : Nat) (base pitch cstr : W64) (n : Nat) : List W64 :=
  let p := if pitch == 0 then BitVec.ofNat 64 rowBytes else pitch
  (List.range 32).flatMap fun i => (List.range (rowBytes / 32)).map fun q =>
    base + BitVec.ofNat 64 n * cstr + BitVec.ofNat 64 i * p + BitVec.ofNat 64 (32 * q)

/-- Check and translate 32-byte parts (R238): physical addresses, the first failure, or the first absent page. -/
def State.tileCheck (s : State) (w : Who) (space : Nat) (t : AccessType) (atomic : Bool) (ps : List W64) (absent : Option Nat) :
    State × Except MOut (List Nat) :=
  match ps with
  | [] => match absent with | some va => (s, .error (.absent va)) | none => (s, .ok [])
  | a :: r =>
    match s.tryAccess w space 32 a t atomic with
    | (s1, .fail c) => (s1, .error (.fail (c, accDetail c, a.toNat)))
    | (s1, .absent) => s1.tileCheck w space t atomic r (some (absent.getD a.toNat))
    | (s1, .ok pa) =>
      match s1.tileCheck w space t atomic r absent with
      | (s2, .ok pas) => (s2, .ok (pa :: pas))
      | (s2, e) => (s2, e)

/-- R241. -/
def tileAligned (rowBytes : Nat) (base pitch cstr : W64) : Bool :=
  base.toNat % 32 == 0 && pitch.toNat % 32 == 0 && cstr.toNat % 32 == 0 && (pitch == 0 || rowBytes ≤ pitch.toNat)

/-- Write one part of a drained tile: the elements of `ws`, added to what stands there with .ADD (R238, R239). -/
def State.drainPart (s : State) (add : Bool) (rm ot pa : Nat) (ws : List Nat) : State :=
  let e := oBytes ot
  let ct := oType ot
  let xs := ((List.range ws.length).zip ws).map fun p =>
    if add then fenc ct rm (FVal.add rm (fdec ct (s.readN (pa + e * p.1) e)) (fdec 0 p.2)) else fcvt rm ct 0 p.2
  s.wr pa (xs.flatMap fun x => leBytes e x)

/-- The 64 bytes of a tile stamp record (Table 11.8). -/
def stampBytes (seq c : Nat) (l : Loc) (dup : Bool) (e : Episode) (dend : Nat) : List Byte :=
  leBytes 4 seq ++ leBytes 4 (bitOf dup + 2 * l.die + 4 * l.cluster + 2 ^ 6 * l.core + 2 ^ 11 * c)
    ++ leBytes 8 e.copyIn ++ leBytes 8 e.opWait ++ leBytes 8 e.cstart ++ leBytes 8 e.cend ++ leBytes 8 dend
    ++ leBytes 4 e.steps ++ List.replicate 12 0

/-- Write a stamp record in the launch's stamp area (R247), laid out as the poison area with 64-byte records. Where the area cannot be
written the record is dropped, and the drain goes on (log entry 103). -/
def State.stamp (s : State) (w : Who) (base : Nat) (bs : List Byte) : State :=
  match s.reach w base 12 .rmw with
  | (s1, .ok pa) =>
    if s1.badRead pa 12 then s1.countUnc pa
    else
      let next := s1.readN pa 4
      let lost (s : State) : State := s.wrN (pa + 8) 4 (min (s.readN (pa + 8) 4 + 1) 0xFFFFFFFF)
      let s2 := s1.wrN pa 4 ((next + 1) % 2 ^ 32)
      if s1.readN (pa + 4) 4 ≤ next then lost s2
      else
        match s2.reach w (base + 64 + 64 * next) 64 .write with
        | (s3, .ok rpa) => s3.wr rpa bs
        | (s3, _) => lost s3
  | (s1, _) => s1

/-- ACDRAIN on a core (R233, R238, R239). -/
def State.acdrainOn (s : State) (o : Op) (seq : Nat) (l : Loc) (b : Block) (add : Bool) (rm ot space c : Nat) (base pitch cstr : W64) :
    State × MOut :=
  let e := oBytes ot
  let k := s.core l
  let mir := nth k.mirrored c true
  if !tileAligned (32 * e) base pitch cstr then (s, .fail (4, 4, 0))
  else if s.badRead (accPa l c) 4096 then (s.uncHit (accPa l c) o.pc 0, .fail (0x0B, 6, accPa l c))
  else if mir && s.accWords l c != k.shadowWords c then ((s.bumpReg l.die 0x1E0010).errIrq l.die, .fail (6, 0, 0))
  else
    let w := o.mWho b space
    match s.tileCheck w space (if add then .rmw else .write) add (tileParts (32 * e) base pitch cstr l.core) none with
    | (s1, .error x) => (s1, x)
    | (s1, .ok pas) =>
      match if add then pas.find? fun pa => s1.badRead pa 32 else none with
      | some pa => (s1.uncHit pa o.pc 0, .fail (0x0B, 6, pa))
      | none =>
        let ws := s1.accWords l c
        let per := 32 / e
        let s2 := ((List.range pas.length).zip pas).foldl (fun s p => s.drainPart add rm ot p.2 ((ws.drop (per * p.1)).take per)) s1
        match s2.launch? o.launch with
        | some la =>
          if la.record.ts then
            (s2.stamp o.who la.record.stamp (stampBytes seq c l mir (nth (s2.core l).episodes c Episode.reset) s2.ns), .done)
          else (s2, .done)
        | none => (s2, .done)

/-- ACLOAD on a core (R240). -/
def State.acloadOn (s : State) (o : Op) (l : Loc) (b : Block) (it space c : Nat) (base pitch cstr : W64) : State × MOut :=
  let e := oBytes it
  if !tileAligned (32 * e) base pitch cstr then (s, .fail (4, 4, 0))
  else
    match s.tileCheck (o.mWho b space) space .read false (tileParts (32 * e) base pitch cstr l.core) none with
    | (s1, .error x) => (s1, x)
    | (s1, .ok pas) =>
      match pas.find? fun pa => s1.badRead pa 32 with
      | some pa => (s1.uncHit pa o.pc 0, .fail (0x0B, 6, pa))
      | none =>
        let ws := pas.flatMap fun pa => (List.range (32 / e)).map fun i => fcvt 0 0 (oType it) (s1.readN (pa + e * i) e)
        let s2 := s1.putAcc l c ws ws true
        let k := s2.core l
        (s2.setCore l { k with episodes := setNth k.episodes c Episode.reset }, .done)

/-- The accumulator and first tile register of a command, for its record (Table 11.7). -/
def MCmd.names (c : MCmd) : Nat × Nat :=
  match c with
  | .mma _ _ _ _ _ c y _ _ => (c, y)
  | .aczero c => (c, 0)
  | .acdrain _ _ _ _ c _ _ _ => (c, 0)
  | .acload _ _ c _ _ _ => (c, 0)
  | .idle => (0, 0)

/-- A command that its killed block ends on a core leaves the accumulator as it was (R244), unless another block has the files. -/
def State.undoMatrix (s : State) (o : Op) (m : MCmd) (w : MWork) : State :=
  match m, s.gang? o.gang with
  | .mma _ _ _ _ _ c _ _ _, some g =>
    let l : Loc := ⟨g.die, g.cluster, w.core⟩
    if w.used.isNone || (s.core l).holder.any (fun b => (s.block? b).any fun b => !b.killed) then s
    else s.putAcc l c w.undo.1 w.undo.2.1 w.undo.2.2
  | _, _ => s

/-- The block of a gang that a matrix command acts on: none on a core where one was killed, also where the block that replaces it
came to that core (R244, log entry 111). -/
def State.matrixBlock (s : State) (gang core : Nat) : Option Block :=
  if (s.gang? gang).any fun g => g.lost.contains core then none else s.gangBlock gang core

/-- An act of a command on one core of its mask. Of several failures on a core the first in this order is reported: a killed
block, a reserved bit, alignment, region, uncorrectable error; of a tile, alignment goes first (log entry 99). -/
def State.matrixOn (s : State) (o : Op) (seq : Nat) (m : MCmd) (w : MWork) : State × MOut :=
  match s.matrixBlock o.gang w.core with
  | none => (s.undoMatrix o m w, .fail (5, 0x20, 0))
  | some b =>
    match m with
    | .mma keep dup at' bt steps c y bw sw =>
      let (s1, x) := s.mmaOn o b.loc b keep dup at' bt steps c y bw sw w
      (if x == .done then s1.countAt o.launch o.loc 8 steps else s1, x)
    | .aczero c => s.aczeroOn b.loc c
    | .acdrain add rm ot space c base pitch cstr => s.acdrainOn o seq b.loc b add rm ot space c base pitch cstr
    | .acload it space c base pitch cstr => s.acloadOn o b.loc b it space c base pitch cstr
    | .idle => (s, .done)

/-- The notice KIND of a command held on a page. -/
def MCmd.notice (m : MCmd) : Nat := match m with | .acload _ _ _ _ _ _ => 1 | _ => 2

/-- The lower of two failing cores (R244). -/
def lowerFail (bad : Option (Nat × Nat × Nat × W64)) (n : Nat) (f : MFail) : Option (Nat × Nat × Nat × W64) :=
  match bad with
  | some b => if n < b.1 then some (n, f.1, f.2.1, BitVec.ofNat 64 f.2.2) else some b
  | none => some (n, f.1, f.2.1, BitVec.ofNat 64 f.2.2)

/-- Work not begun on a core. -/
def MWork.fresh (n : Nat) : MWork := { core := n, step := 0, after := none, used := none, undo := ([], [], false), page := none, since := 0 }

/-- The work of a matrix command, and its lowest failing core so far. -/
def Op.matrixWork (o : Op) : List MWork × Option (Nat × Nat × Nat × W64) :=
  match o.cmd, o.stage with
  | .matrix mask _ _, .waiting => (((List.range 24).filter fun n => mask.testBit n).map MWork.fresh, none)
  | _, .cores ws bad => (ws, bad)
  | _, _ => ([], none)

/-- Go on with work, or complete where none is left (R224, R244). -/
def State.matrixGoesOn (s : State) (o : Op) (seq : Nat) (m : MCmd) (ws : List MWork) (bad : Option (Nat × Nat × Nat × W64)) : State :=
  match ws, bad with
  | _ :: _, _ => s.updOp o.id fun o => { o with stage := .cores ws bad }
  | [], none => s.finishOp o.id (.ok [])
  | [], some (n, c, d, addr) =>
    let (ac, y) := m.names
    s.finishOp o.id (.fail c d 0 addr (BitVec.ofNat 64 (seq + 2 ^ 32 * n + 2 ^ 37 * ac + 2 ^ 40 * y)))

/-- An act of a matrix command on core n (R226, R244, R245): what remains is its stage. Work whose page is not present waits for
it (R155). -/
def State.performMatrix (s : State) (o : Op) (seq : Nat) (m : MCmd) (n : Nat) : State :=
  let (ws, bad) := o.matrixWork
  match ws.find? fun w => w.core == n with
  | none => s
  | some w =>
    let rest := ws.filter fun w => w.core != n
    let put := fun (x : MWork) => ws.map fun w => if w.core == n then x else w
    match s.matrixOn o seq m w with
    | (s1, .done) => s1.matrixGoesOn o seq m rest bad
    | (s1, .fail f) => s1.matrixGoesOn o seq m rest (lowerFail bad n f)
    | (s1, .absent va) => (s1.postNotice (o.who.as 1) va m.notice).matrixGoesOn o seq m (put { w with page := some va }) bad
    | (s1, .more x) => s1.matrixGoesOn o seq m (put x) bad

/-- R226: whether a core has performed every earlier matrix command of an operation's context. -/
def State.matrixTurn (s : State) (o : Op) (n : Nat) : Bool := !(s.earlier o).any fun x => x.matrixWork.1.any fun w => w.core == n

/-- MATRIX_COMMAND_PERFORM: an act of a command of a sequencer context whose preconditions are done, on a core. -/
def State.startMatrix (s : State) (id n : Nat) : Option State :=
  match s.op? id with
  | none => none
  | some o =>
    match o.cmd with
    | .matrix _ seq m =>
      if o.resolved && o.prePoison.isNone && s.inTurn o && (o.matrixWork.1.any fun w => w.core == n && w.page.isNone) && s.matrixTurn o n then
        some (s.performMatrix o seq m n)
      else none
    | _ => none

/-- RESUME of a page (R155): the cores that wait for it try again. -/
def State.resumeMatrix (s : State) (o : Op) (vpn seq : Nat) (m : MCmd) : State :=
  let (ws, bad) := o.matrixWork
  let hit := fun (w : MWork) => w.page.any fun a => a / 2 ^ 16 == vpn
  let s1 := s.updOp o.id fun o => { o with stage := .cores (ws.map fun w => if hit w then { w with page := none } else w) bad }
  (ws.filter hit).foldl (fun s w => match s.op? o.id with | some o => s.performMatrix o seq m w.core | none => s) s1

/-- REJECT of a page (R155): the cores that wait for it fail. -/
def State.rejectMatrix (s : State) (o : Op) (vpn seq : Nat) (m : MCmd) : State :=
  let (ws, bad) := o.matrixWork
  let hit := fun (w : MWork) => w.page.any fun a => a / 2 ^ 16 == vpn
  s.matrixGoesOn o seq m (ws.filter fun w => !hit w)
    ((ws.filter hit).foldl (fun b w => lowerFail b w.core (5, 5, w.page.getD 0)) bad)

end Sys2Proof.Machine
end

