-- ==== Sys2Proof/Machine/TokenEvents.lean ====
section
/-! DEFINITION. Events of tokens and waits: completion of operations (09_tokens_barriers.md R184, R189), ends of waits
(R191, R192, R203), late arrivals (R200), the break of a grammar hold (12_grammar.md R257). -/

namespace Sys2Proof.Machine

/-- What follows every event: operations whose preconditions are now met go on, and commits that waited are
performed as far as they can be; contexts of a cancelled launch that have reached a run boundary are killed. -/
def State.quiesce (s : State) : State :=
  let s1 := s.settleOps
  ((s1.ctxs.filter fun c => !c.commitQ.isEmpty).foldl (fun s c => s.drainHeld c.id) s1).killRest

/-- An event of the compute dies: possible between runs, while the dies are not held in reset. -/
def event (s : State) (r : Option State) : Host.Outcome State Fault Refusal :=
  if s.run.isSome || s.tripped || s.recovery then .fault .notEnabled
  else match r with
    | some s1 => .next s1.quiesce
    | none => .fault .notEnabled

/-- TOKEN_COMPLETE: an operation that has ended completes into its token; the lanes of a context that wait at a run entry for
its registers remember a poisoned token, whose outcome the run takes when its whole wait has completed (R30, R189). -/
def State.tokenComplete (s : State) (id : Nat) : Option State :=
  match s.op? id with
  | none => none
  | some o =>
    match o.stage with
    | .finished r =>
      let mine := (s.ctx? o.ctx).any fun c => c.rdTok o.token == .pending o.id
      let s1 := s.completeOp o r
      some (match s.waitsAtEntry o, s1.ctx? o.ctx with
        | some (ls, pc), some c =>
          if mine && (c.rdTok o.token).poison?.isSome then
            s1.updCtx o.ctx fun c => c.updLanes ls fun _ y => { y with met := y.met ++ [(pc, o.token)] }
          else s1
        | _, _ => s1)
    | _ => none

/-- TOKEN_WAIT_END (R191, R192); the waits of a saved context are tested when it is restored (R204). -/
def State.tokenWaitEnd (s : State) (cid lane : Nat) : Option State :=
  if (s.ctx? cid).any fun c => c.saved then none else s.endTokenWait cid lane

/-- TWAITK_TIMEOUT (R192): pd is written 0 in the lanes of the wait. -/
def State.twaitkTimeout (s : State) (cid lane : Nat) : Option State :=
  match s.ctx? cid with
  | none => none
  | some c =>
    match (c.lane lane).st with
    | .waiting (.twaitk mask dst dl pc) =>
      if c.saved || s.ns < dl || (c.toksWhere mask TokSt.isPending).isEmpty then none
      else
        let ls := c.waitGroup (.twaitk mask dst dl pc)
        some (s.updCtx cid fun c => ls.foldl (fun c l => c.wrP dst.val l false) (c.updLanes ls fun _ x => { x with st := .runnable }))
    | _ => none

/-- The monitor wait of a lane that is not held on a page (R203). -/
def State.monitorOf (s : State) (cid lane : Nat) : Option (Ctx × Wait) :=
  match s.ctx? cid with
  | none => none
  | some c =>
    match (c.lane lane).st with
    | .waiting (.monwait is64 sp a d e dl false pc) => if c.saved then none else some (c, .monwait is64 sp a d e dl false pc)
    | _ => none

/-- MONWAIT_WAKE and MONITOR_RECHECK (R203): the element is read again at its home. -/
def State.monitorRead (s : State) (cid lane : Nat) : Option State :=
  (s.monitorOf cid lane).map fun p => s.monStep cid (p.1.waitGroup p.2) p.2

/-- MONWAIT_TIMEOUT (R203): the element as it now stands is returned. -/
def State.monwaitTimeout (s : State) (cid lane : Nat) : Option State :=
  match s.monitorOf cid lane with
  | some (c, .monwait is64 sp a d e dl h pc) =>
    if dl == 0 || s.ns < dl then none
    else
      let ls := c.waitGroup (.monwait is64 sp a d e dl h pc)
      match s.monRead c is64 sp a pc lane with
      | (s1, .value x) => some (s1.monReturn cid ls d x)
      | (s1, .absent) => some (s1.updCtx cid fun c => c.updLanes ls fun _ y => { y with st := .waiting (.monwait is64 sp a d e dl true pc) })
      | (s1, .fail k) => some (s1.monFail c ls k pc (BitVec.ofNat 64 a))
  | _ => none

/-- TKARR_DEFERRED_ARRIVAL (R200): the arrival of a TKARR whose operation has completed, held while its page is absent. -/
def State.lateArrival (s : State) (i : Nat) : Option State :=
  match s.lates[i]? with
  | none => none
  | some l =>
    match l.outcome, l.holdPage with
    | some psn, none =>
      match s.arriveAt l.who ⟨0x66, l.k, l.pc⟩ l.rel none l.space l.base 1 l.bytes psn with
      | (s1, true) =>
        some { s1.postNotice l.who l.base.toNat 2 with lates := setNth s1.lates i { l with holdPage := some (l.base.toNat / 2 ^ 16) } }
      | (s1, false) => some { s1 with lates := s1.lates.erase l }
    | _, _ => none

/-- GRAMMAR_HOLD_BREAK (12_grammar.md R257): the hold of a cluster ends by the time limit. -/
def State.breakHold (s : State) (k : Nat) : Option State :=
  if (s.cluster k).hold.isSome && (s.liveHold k).isNone then some (s.expireHold k) else none

end Sys2Proof.Machine
end

