-- ==== Sys2Proof/Machine/Blocks.lean ====
section
/-! DEFINITION. The lives of blocks and gangs (01_machine.md R7 to R10; 07_memory.md R128; 18_launch.md R381, R384,
R385): where one fits, its start, the end of a warp (04_control.md R73) and of a block (11_matrix.md R223), successors
(R75), counter banks (17_system.md R363). -/

namespace Sys2Proof.Machine

/-- Register bytes of a warp (R8). -/
def Rec.warpBytes (r : Rec) : Nat := r.lanes * r.vregs * 4
/-- Scratchpad bytes of a block. -/
def Rec.spBytes (r : Rec) : Nat := 1024 * r.spKib
/-- Gangs of the grid. -/
def Rec.gangs (r : Rec) : Nat := r.gx * r.gy * r.gz
/-- Whether the launch declares a sequencer entry. -/
def Rec.hasSeq (r : Rec) : Bool := r.seqOff != 0
/-- An entry at a signed offset from LANE. -/
def Rec.entry (r : Rec) (off : Nat) : W64 := BitVec.ofNat 64 r.lane + (BitVec.ofNat 32 off).signExtend 64

/-- The keys of the enabled clusters. -/
def State.clusterKeys (s : State) : List Nat := List.range (s.cap 0) ++ (List.range (s.cap 1)).map fun c => 8 + c
/-- The place of a core by its key in State.cores. -/
def locOf (key : Nat) : Loc := ⟨key / 200, key % 200 / 25, key % 25⟩
/-- The clusters in an order of preference given by core keys. -/
def State.clusterOrder (s : State) (pref : List Nat) : List Nat :=
  let ks := s.clusterKeys
  ((pref.map fun k => clusterKey (locOf k)).filter ks.contains ++ ks).eraseDups
/-- The cores of a cluster in an order of preference. -/
def coreOrder (ck : Nat) (pref : List Nat) : List Loc :=
  let all := (List.range 24).map fun i => 25 * ck + i
  ((pref.filter all.contains ++ all).eraseDups).map locOf

/-! Energy (R384). -/

/-- The weight of an energy class. -/
def State.weight (s : State) (e : Nat) : Nat := bits (s.reg 0 (0x140C00 + 8 * (e / 4))) (16 * (e % 4) + 15) (16 * (e % 4))
/-- USED of an island. -/
def State.used (s : State) (ck : Nat) : Nat := bits (s.reg 0 (0x140D00 + 8 * ck)) 63 32
/-- Change USED of an island. -/
def State.charge (s : State) (ck plus minus : Nat) : State :=
  let r := s.reg 0 (0x140D00 + 8 * ck)
  s.setReg 0 (0x140D00 + 8 * ck) (BitVec.ofNat 64 (bits r 31 0 + 2 ^ 32 * (bits r 63 32 + plus - minus)))
/-- Whether an island admits a cost, with `extra` already promised. -/
def State.energyOk (s : State) (ck cost extra : Nat) : Bool :=
  let u := s.used ck + extra
  u == 0 || decide (u + cost ≤ bits (s.reg 0 (0x140D00 + 8 * ck)) 31 0)

/-! Room on a core. -/

/-- Whether n bytes at a lie free of some areas of a scratchpad. -/
def areaFree (areas : List (Nat × Nat)) (n a : Nat) : Bool :=
  decide (a + n ≤ 524288) && areas.all fun p => p.2 == 0 || decide (a + n ≤ p.1) || decide (p.1 + p.2 ≤ a)

/-- The scratchpad areas of a core that are taken: regions of blocks and tagged regions, but for some tags. -/
def State.takenAreas (s : State) (l : Loc) (own : Region → Bool) : List (Nat × Nat) :=
  ((s.blocks.filter fun b => b.loc == l && b.saved.isNone).map fun b => (b.base, b.size))
    ++ ((s.core l).regions.filter fun r => !own r).map fun r => (r.base, r.size)

/-- Whether a tag is that of a block (R385). -/
def Region.mine (key lin idx : Nat) (r : Region) : Bool := key != 0 && r.key == key && r.gang == lin && r.block == idx

/-- Where the region of a block would lie on a core: in place for a tagged one, else the lowest free area; the spec names none
of the free ones (log entry 80). -/
def State.regionBase (s : State) (key lin idx n : Nat) (l : Loc) : Option Nat :=
  let areas := s.takenAreas l (Region.mine key lin idx)
  match (s.core l).regions.find? (Region.mine key lin idx) with
  | some r => if areaFree areas n (r.base - r.off) then some (r.base - r.off) else none
  | none =>
    ((0 :: areas.map fun p => p.1 + p.2).filter (areaFree areas n)).foldl (fun b a => match b with
      | some x => some (min x a)
      | none => some a) none

/-- The tags of a core when a block starts (R385): those beyond its region are discarded, those of its REGION fields
added; a tag of its coordinates that lies within a REGION is replaced by it, one that overlaps it otherwise stays beside it (log
entry 90). -/
def bindRegions (rs : List Region) (lid : Nat) (r : Rec) (lin idx base : Nat) : List Region :=
  let kept := rs.filterMap fun x =>
    if !Region.mine r.key lin idx x then some x
    else if r.spBytes ≤ x.off then none else some { x with size := min x.size (r.spBytes - x.off) }
  r.regions.foldl (fun rs q =>
    let o := 1024 * q.2
    let n := 1024 * q.1
    let within := fun (x : Region) => Region.mine r.key lin idx x && decide (o ≤ x.off) && decide (x.off + x.size ≤ o + n)
    if n == 0 || rs.any (fun x => within x && x.size == n) then rs
    else (rs.filter fun x => !within x) ++ [{ launch := lid, key := r.key, off := o, size := n, gang := lin, block := idx, base := base + o }]) kept

/-- Whether a core holds a block: a child warp that is evicted is on none. -/
def State.worksAt (s : State) (l : Loc) (b : Block) : Bool :=
  b.loc == l && b.saved.isNone && (!b.child || s.ctxs.any fun c => c.block == b.id && !c.saved)

/-- The greatest child reserve that binds on a core for work of a launch (R278). -/
def State.reserveAt (s : State) (l : Loc) (own : Nat) : Nat :=
  s.blocks.foldl (fun r b =>
    if s.worksAt l b then max r (((s.launch? b.launch).map fun x => x.record.reserve).getD 0) else r) own

/-- Whether a core has warp slots and registers to spare (R8). -/
def State.slotsOk (s : State) (l : Loc) (warps bytes reserve : Nat) : Bool :=
  let (n, r) := s.coreLoad l
  decide (n + warps + reserve ≤ 48) && decide (r + bytes ≤ 524288)

/-- Where a core would take a block of a launch (R8, R143, R278, R385); none if it does not admit it. -/
def State.admits (s : State) (l : Launch) (lin idx : Nat) (c : Loc) : Option Nat :=
  let r := l.record
  if !s.slotsOk c r.warps (r.warps * r.warpBytes) (s.reserveAt c r.reserve) || (r.hasSeq && (s.core c).holder.isSome) then none
  else
    match s.regionBase r.key lin idx r.spBytes c with
    | none => none
    | some b =>
      if r.key != 0 && 4 < ((bindRegions (s.core c).regions l.id r lin idx b).filter fun x => x.key == r.key).length then none else some b

/-- The cores of a cluster that hold a tag of a gang, with the block's index. -/
def State.tagged (s : State) (key lin ck : Nat) : List (Nat × Loc) :=
  if key == 0 then []
  else (coreOrder ck []).flatMap fun l => ((s.core l).regions.filter fun r => r.key == key && r.gang == lin).map fun r => (r.block, l)

/-- Whether a block of a gang is tagged to a core of another cluster. -/
def State.taggedElsewhere (s : State) (key lin idx ck : Nat) : Bool :=
  key != 0 && (s.clusterKeys.any fun k => k != ck && (s.tagged key lin k).any fun p => p.1 == idx)

/-- Cores for the blocks of a gang in a cluster (R7): distinct, each where its block fits; a block without a tag goes to any core
that no other block of the gang is tagged to (R385). -/
def State.pickBlocks (s : State) (l : Launch) (lin ck : Nat) (pref : List Nat) (idxs : List Nat) (taken : List (Loc × Nat)) :
    Option (List (Loc × Nat)) :=
  match idxs with
  | [] => some taken
  | i :: rest =>
    let tags := s.tagged l.record.key lin ck
    let cost := s.weight l.record.energy * l.record.warps
    if s.taggedElsewhere l.record.key lin i ck || !s.energyOk ck cost (cost * taken.length) then none
    else
      let cs := match tags.find? fun p => p.1 == i with
        | some p => [p.2]
        | none => (coreOrder ck pref).filter fun c => !tags.any fun p => p.2 == c && p.1 != i && decide (p.1 < l.record.blocks)
      match cs.findSome? fun c => if taken.any (fun t => t.1 == c) then none else (s.admits l lin i c).map fun b => (c, b) with
      | some p => s.pickBlocks l lin ck pref rest (taken ++ [p])
      | none => none

/-- The least sequencer context of a cluster that no gang holds (R9); the spec names none of the free ones (log entry 80). -/
def State.freeSeq (s : State) (ck : Nat) : Option Nat :=
  (List.range 4).find? fun i => !s.ctxs.any fun c => c.kind == .seq && clusterKey c.loc == ck && c.slotNo == i && !c.saved

/-- Where a gang of a launch can be started now: its cluster and its cores (R7, R9, R277, R384). -/
def State.findGang (s : State) (l : Launch) (lin : Nat) (pref : List Nat) (cks : List Nat) : Option (Nat × List (Loc × Nat)) :=
  cks.findSome? fun ck =>
    if (s.cluster ck).formed.any (fun f => f.launch == l.id) || (l.record.hasSeq && (s.freeSeq ck).isNone) then none
    else (s.pickBlocks l lin ck pref (List.range l.record.blocks) []).map fun ps => (ck, ps)

/-! The Hearth's own accesses (log entry 28). -/

/-- The physical address of a virtual address that the Hearth reads or writes, walked on die 0 without a table check; an
uncorrectable table entry is counted (19_device.md R404). -/
def State.hearthPa (s : State) (va : Nat) (t : AccessType) : State × Option Nat :=
  if va / 2 ^ 56 != 0 || !(s.reg 0 0x100000).getLsbD 0 then (s, none)
  else
    match s.walk 0 va with
    | .leaf _ e large => (s, if leafPermits e t then some (leafPa e large va) else none)
    | .error pa => (s.countUnc pa, none)
    | _ => (s, none)

/-- Write bytes of a launch's areas, part by part; a part whose page cannot be written is lost. -/
def State.hearthWrite (s : State) (va : Nat) (bs : List Byte) : State :=
  ((parts32 va bs.length (bs.length + 1)).foldl (fun (p : State × List Byte) a =>
    (match p.1.hearthPa a.1 .write with | (s1, some pa) => s1.wr pa (p.2.take a.2) | (s1, none) => s1, p.2.drop a.2)) (s, bs)).1

/-- Add to a 64-bit field of a launch's result record (R390); an uncorrectable one is left as it is (07_memory.md R159). -/
def State.resultAdd (s : State) (l : Launch) (off n : Nat) : State :=
  if l.record.result == 0 || n == 0 then s
  else
    match s.hearthPa (l.record.result + off) .rmw with
    | (s1, some pa) => if s1.badRead pa 8 then s1.countUnc pa else s1.wrN pa 8 ((s1.readN pa 8 + n) % 2 ^ 64)
    | (s1, none) => s1

/-! Counter banks (R363). -/

/-- Replace the banks where a context runs. -/
def State.setBanks (s : State) (l : Loc) (bs : List Bank) : State :=
  if l.core == 24 then s.setCluster (clusterKey l) { s.cluster (clusterKey l) with seqBanks := bs }
  else s.setCore l { s.core l with banks := bs }

/-- A launch takes a bank at its first block on a core, any free one (log entry 2); where none is free it counts nothing until
its last block there has ended. -/
def State.takeBank (s : State) (launch : Nat) (l : Loc) : State :=
  let bs := s.banksAt l
  let free := (List.range bs.length).filter fun i => (nth bs i Bank.reset).launch.isNone
  if (bankOf bs launch).isSome || free.isEmpty then s
  else
    let i := nth free (Config.choose free.length s.freeIdx % free.length) 0
    { s.setBanks l (setNth bs i { Bank.reset with launch := some launch }) with freeIdx := s.freeIdx + 1 }

/-- A launch's bank is latched into its result record and zeroed. -/
def State.latchBank (s : State) (launch : Nat) (l : Loc) : State :=
  let bs := s.banksAt l
  match bankOf bs launch, s.launch? launch with
  | some i, some la =>
    let cs := (nth bs i Bank.reset).counters
    let s1 := (List.range 8).foldl (fun s j => s.resultAdd la ((if l.core == 24 then 0x80 else 0x40) + 8 * j) (nth cs j 0).toNat) s
    s1.setBanks l (setNth bs i Bank.reset)
  | _, _ => s

/-! Starts. -/

/-- The bytes of an area that are not kept read as zero, and its words are sound again (R128, R160). -/
def State.zeroArea (s : State) (a n : Nat) (keep : List (Nat × Nat)) : State :=
  let hit := fun (x : Nat) => decide (a ≤ x) && decide (x < a + n) && !keep.any fun k => decide (k.1 ≤ x) && decide (x < k.1 + k.2)
  State.settleJoins { s with
    mem := s.mem.filter fun c => !hit c.1
    badWords := s.badWords.filter fun w => !hit (4 * w.1) }

/-- The accumulators of a core read as +0 with shadows and mirrored bits of a block start (R128, R232, R247). -/
def State.clearAccs (s : State) (l : Loc) : State :=
  let s1 := s.zeroArea (mapBase l.die l.cluster l.core + 0x480000) 0x8000 []
  s1.setCore l { s1.core l with shadow := [], mirrored := List.replicate 8 true, episodes := List.replicate 8 Episode.reset }

/-- The tile files of a core as a holder finds them at its start (R128); the latch is empty (log entry 4). -/
def State.clearTiles (s : State) (l : Loc) : State :=
  let b := mapBase l.die l.cluster l.core
  let s1 := ((s.zeroArea (b + 0x400000) 0x8000 []).wr (b + 0x408000) (List.replicate 1024 0x7F)).clearAccs l
  s1.setCore l { s1.core l with latch := none }

/-- Start the warps of a block at an address, with s16 where one is given and the cost of each (R10, R75, R384). -/
def State.startWarps (s : State) (l : Launch) (b : Block) (n : Nat) (pc : W64) (arg : Option W64) (cost : Nat) (gens : Nat → Nat) : State :=
  (List.range n).foldl (fun s i =>
    let c := Ctx.start s.nextId .lane l b.gang b.id i b.loc (s.freeSlot b.loc) l.record.lanes (s.pastPads b.loc pc)
    let c1 := { c with
      s := match arg with | some a => Table.set c.s 16 a 0 | none => c.s
      lanes := (List.range c.lanes.length).map fun j => { c.lane j with gen := gens j }
      behind := s.nextId, cost := cost }
    { s with ctxs := s.ctxs ++ [c1], nextId := s.nextId + 1 }) s

/-- Start a block of a launch on a core (R10, R128, R385): of its region only what earlier launches bound is kept. -/
def State.startBlock (s : State) (l : Launch) (gid lin idx : Nat) (c : Loc) (base : Nat) (relaunched : Bool) : State :=
  let r := l.record
  let cost := s.weight r.energy * r.warps
  let b : Block := { id := s.nextId, launch := l.id, gang := gid, index := idx, loc := c, base := base, size := r.spBytes
                     succSlot := none, child := false, holds := r.hasSeq, gen := 0, relaunched := relaunched, killed := false
                     saved := none, cost := cost, slotCtx := none, stat := SlotStat.reset }
  let k := s.core c
  let keep := (k.regions.filter fun x => Region.mine r.key lin idx x && x.launch != l.id).map fun x => (mapBase c.die c.cluster c.core + x.base, x.size)
  let s1 : State := { s with
    nextId := s.nextId + 1, blocks := s.blocks ++ [b]
    cores := s.cores.map fun (p : Nat × Core) => (p.1, { p.2 with regions := p.2.regions.filter fun x => !Region.mine r.key lin idx x }) }
  let s2 := s1.setCore c { s1.core c with regions := bindRegions k.regions l.id r lin idx base
                                          holder := if r.hasSeq then some b.id else k.holder }
  let s3 := s2.zeroArea (mapBase c.die c.cluster c.core + base) r.spBytes keep
  let s4 := if r.hasSeq then s3.clearTiles c else s3
  let s5 := if s.blocks.any fun b => b.launch == l.id && b.loc == c then s4 else s4.takeBank l.id c
  (s5.charge (clusterKey c) cost 0).startWarps l b r.warps (BitVec.ofNat 64 r.lane) none (s.weight r.energy) fun _ => 0

/-- What the first admission of a launch does (R269, R390): its result record and its spill headers are zeroed, and it is told
of the residency regions of its key that were lost (R385). -/
def State.firstAdmission (s : State) (l : Launch) : State :=
  if l.started then s
  else
    let s1 := if l.record.result == 0 then s else s.hearthWrite l.record.result (zeros 0xC0)
    let s2 := if l.record.quota == 0 then s1
      else (List.range 16).foldl (fun s ck => s.hearthWrite (l.spillPart ck) (zeros 64)) s1
    let lost := l.record.key != 0 && s.lostKeys.contains l.record.key
    ({ s2 with lostKeys := if lost then s2.lostKeys.filter (fun k => k != l.record.key) else s2.lostKeys } : State).updLaunch l.id fun x =>
      { x with started := true, start := s.ns, resLost := lost }

/-- Start a gang with its sequencer context and its blocks (R7, R9). -/
def State.startGang (s : State) (l : Launch) (lin ck : Nat) (picks : List (Loc × Nat)) : State :=
  let s0 := s.firstAdmission l
  let gid := s0.nextId
  let loc : Loc := ⟨ck / 8, ck % 8, 24⟩
  let seq := if l.record.hasSeq then some (gid + 1) else none
  let g : Gang := { id := gid, launch := l.id, linear := lin, die := ck / 8, cluster := ck % 8, seqCtx := seq, order := gid
                    saved := false, image := 0 }
  let s1 : State := { s0 with gangs := s0.gangs ++ [g], nextId := gid + 2 }
  let s2 := if l.record.hasSeq then
      let no := (s1.freeSeq ck).getD 0
      let c := Ctx.start (gid + 1) .seq l gid 0 0 loc no 1 (s.pastPads loc (l.record.entry l.record.seqOff))
      let s1a := s1.zeroArea c.filePa 16384 []
      { (if s.gangs.any fun g => g.launch == l.id && g.die == ck / 8 && g.cluster == ck % 8 then s1a else s1a.takeBank l.id loc) with ctxs := s1.ctxs ++ [{ c with behind := gid + 1 }] }
    else s1
  let s3 := ((List.range picks.length).zip picks).foldl (fun s p => s.startBlock l gid lin p.1 p.2.1 p.2.2 false) s2
  s3.updLaunch l.id fun x => { x with nextGang := lin + 1 }

/-! Ends. -/

/-- Whether a core is free of matrix work of a block's gang (R223): absent from the core mask of its sequencer context,
whose end clears it (R242), and no matrix command to it pending. -/
def State.matrixFree (s : State) (b : Block) : Bool :=
  !(s.ctxs.any fun c => c.kind == .seq && c.gang == b.gang && !c.ended && c.coreMask.testBit b.loc.core)
    && !s.ops.any fun o => o.gang == b.gang && (match o.cmd with | .matrix m _ _ => m.testBit b.loc.core | _ => false)

/-- Whether a block has ended: its warps have, its side log is drained, the arrivals whose operations have completed are
made (09_tokens_barriers.md R200), and no matrix work holds its core, as it holds none of a killed block (log entry 109). -/
def State.blockOver (s : State) (b : Block) : Bool :=
  b.saved.isNone && (s.ctxs.all fun c => c.block != b.id || c.kind == .seq || c.ended)
    && !(s.cores.any fun p => p.2.log.any fun e => e.block == b.id)
    && !(s.lates.any fun x => x.block == b.id && x.kind != .seq && x.outcome.isSome && x.holdPage.isNone) && (b.killed || !b.holds || s.matrixFree b)

/-- A block that has ended leaves its core: slots, region but for its tags, files, cost, and the launch's bank with the
last one. -/
def State.removeBlock (s : State) (b : Block) : State :=
  let k := s.core b.loc
  let s1 := (s.setCore b.loc { k with holder := if k.holder == some b.id then none else k.holder }).charge (clusterKey b.loc) 0 b.cost
  let s2 : State := { s1 with
    blocks := s1.blocks.filter fun x => x.id != b.id
    ctxs := s1.ctxs.filter fun c => c.block != b.id || c.kind == .seq }
  if s2.blocks.any fun x => x.launch == b.launch && x.loc == b.loc then s2 else s2.latchBank b.launch b.loc

/-- A gang ends with its last block and its sequencer context; one that awaits a relaunch, or the report of a reduction
which may ask for one, stays, and so does one with a due arrival of its sequencer context (09_tokens_barriers.md R200). -/
def State.gangOver (s : State) (g : Gang) : Bool :=
  !(s.blocks.any fun b => b.gang == g.id) && !(s.ctxs.any fun c => c.kind == .seq && c.gang == g.id && !c.ended)
    && !(s.launches.any fun l => l.relaunchQ.any fun r => r.1 == g.id) && !(s.redFails.any fun r => r.gang == g.id)
    && !(s.lates.any fun x => x.gang == g.id && x.kind == .seq && x.outcome.isSome && x.holdPage.isNone)

/-- A gang that has ended frees its sequencer context. -/
def State.removeGang (s : State) (g : Gang) : State :=
  let s1 : State := { s with
    gangs := s.gangs.filter fun x => x.id != g.id
    ctxs := s.ctxs.filter fun c => !(c.kind == .seq && c.gang == g.id) }
  if s1.gangs.any fun x => x.launch == g.launch && x.die == g.die && x.cluster == g.cluster then s1
  else s1.latchBank g.launch ⟨g.die, g.cluster, 24⟩

/-- Remove the blocks and gangs that have ended; a block with a successor stays for it (R75). -/
def State.sweep (s : State) : State :=
  let s1 := s.blocks.foldl (fun s b => if s.blockOver b && b.succSlot.isNone then s.removeBlock b else s) s
  s1.gangs.foldl (fun s g => if s.gangOver g then s.removeGang g else s) s1

/-- Whether a warp, sequencer context or producer slot can end (R73, R156). -/
def State.canEnd (s : State) (c : Ctx) : Bool :=
  !c.ended && !c.saved && c.commitQ.isEmpty && (c.allLanes.all fun l => (c.lane l).st == .exited)
    && !(List.range 32).any (fun k => (c.rdTok k).isPending) && !s.behindLog c

/-- WARP_END (R73, R281, R306): join counters decremented first, which may wait in the side log. -/
def State.warpEnd (s : State) (cid : Nat) : Option State :=
  match s.ctx? cid with
  | none => none
  | some c =>
    if !s.canEnd c then none
    else
      let s1 := (s.jcDecrements c).updCtx cid fun c => c.updLanes c.allLanes fun _ x => { x with jc := 0 }
      if s1.behindLog c then some s1
      else
        let n := ((List.range 32).filter fun k => ((c.rdTok k).poison?).isSome).length
        let s2 := (s1.dropHold (clusterKey c.loc) cid).updLaunch c.launch fun l =>
          { l with poisonedEnd := l.poisonedEnd + n, psn := l.psn || n != 0 }
        let s3 := s2.updCtx cid fun c => { c with ended := true }
        let s4 := if c.kind == .slot then s3.setStat c.block fun x => { x with ended := true } else s3
        some s4.sweep

/-- SUCCESSOR_START (R75, R280): the block starts again at its successor's entry, in place. An entry that is no longer
valid kills it (log entry 29). It waits where the slots of warps that had ended before the successor was named were taken
(log entry 80). -/
def State.startSuccessor (s : State) (bid : Nat) : Option State :=
  match s.block? bid with
  | none => none
  | some b =>
    match b.succSlot, s.launch? b.launch with
    | some (e, arg), some l =>
      let n := if b.child then 1 else l.record.warps
      let held := s.ctxs.filter fun c => c.block == bid && c.kind != .seq && s.resident b.loc c
      let (warps, bytes) := s.coreLoad b.loc
      if b.killed || !s.blockOver b || 48 < warps - held.length + n
          || 524288 < bytes - held.foldl (fun n c => n + c.width * c.vregs * 4) 0 + n * l.record.warpBytes then none
      else
        let old := s.ctxs.find? fun c => c.block == bid && c.kind == .lane
        let gens := fun (i : Nat) => (old.map fun c => (c.lane i).gen).getD 0
        let s0 := s.countSpawn (lensWho b.launch (clusterKey b.loc)) e
        let s1 : State := { s0 with ctxs := s.ctxs.filter fun c => c.block != bid || c.kind == .seq }
        let s2 := s1.updBlock bid fun b => { b with succSlot := none, slotCtx := none, stat := SlotStat.reset }
        let s3 := if b.holds then s2.clearAccs b.loc else s2
        let s4 := s3.startWarps l b n ((s.spawnTarget (lensWho b.launch (clusterKey b.loc)) e).getD 0)
          (some arg) (b.cost / max n 1) gens
        some (if (s.spawnTarget (lensWho b.launch (clusterKey b.loc)) e).isSome then s4 else (s4.killBlock bid 0x0A 0 0 0).sweep)
    | _, _ => none

/-- REDUCTION_HOME_FAILURE (10_atomics.md R218): the issuing block is killed; for one that has ended the fault summary and R161
alone. A block's other reports go with it, since it is killed once; a sequencer context takes its gang with it. -/
def State.homeFailure (s : State) (i : Nat) : Option State :=
  match s.redFails[i]? with
  | none => none
  | some r =>
    let s1 : State := { s with redFails := s.redFails.filter fun x => if r.block == 0 then x.ctx != r.ctx else x.block != r.block }
    let seq := (s1.ctx? r.ctx).filter fun c => c.kind == .seq && !c.ended
    some (match s1.block? r.block, seq with
      | some _, _ => (s1.killUnc r.block r.pc r.lane r.addr).sweep
      | none, some c => (s1.killGang c 0x0B r.pc r.lane r.addr).sweep
      | none, none => ((s1.noteKill r.launch 0x0B r.pc r.lane r.loc r.addr).afterUnc r.launch r.gang r.index r.relaunched r.child).sweep)

end Sys2Proof.Machine
end

