-- ==== Sys2Proof/Machine/Saving.lean ====
section
/-! DEFINITION. Saving and restoring contexts (17_system.md R365 to R368; 09_tokens_barriers.md R204; 11_matrix.md
R246): pre-emption and restoration of gangs (18_launch.md R382), eviction and restoration of warps (13_spawn.md R285
to R288). -/

namespace Sys2Proof.Machine

/-- Whether an operation is a copy into a ring. -/
def Op.ringCopy (o : Op) : Bool := match o.cmd with | .copy c => c.ring?.isSome | _ => false

/-- Copy an area with its error marks; waits armed on objects in it follow it, claimed slots of rings in it, and what passed accesses
keep of it. -/
def State.moveArea (s : State) (a b n : Nat) : State :=
  let s1 := s.wr b (s.readBytes a n)
  let moved := (s.badWords.filter fun w => decide (a ≤ 4 * w.1) && decide (4 * w.1 < a + n)).map fun w => w.1 - a / 4 + b / 4
  { s1 with
    badWords := moved.foldl (fun t w => Table.set t w true false) s1.badWords
    ops := (s1.updOvertaken fun _ p => { p with wrote := p.wrote.map fun x => if a ≤ x.1 && x.1 < a + n then (x.1 - a + b, x.2) else x }).ops.map
      fun o => match o.stage with
      | .armed pa ph => if a ≤ pa && pa < a + n then { o with stage := .armed (pa - a + b) ph } else o
      | .held [x] g bad p k =>
        let y := x.y.toNat
        if o.ringCopy && a ≤ y && y < a + n then { o with stage := .held [{ x with y := BitVec.ofNat 64 (y - a + b) }] g bad p k } else o
      | _ => o }

/-- Bytes of a context's image in the save area with its side-log entries (R366). -/
def State.savedSize (s : State) (c : Ctx) : Nat := pageUp (imageSize c.width c.vregs + 2048 * (s.logOf c).length)

/-- The contexts of a block that a pre-emption saves, the producer slot last (R368). -/
def State.savedCtxs (s : State) (b : Block) : List Ctx :=
  let cs := s.ctxs.filter fun c => c.block == b.id && c.kind != .seq && !c.ended && (!c.saved || c.preempted)
  (cs.filter fun c => c.kind != .slot) ++ cs.filter fun c => c.kind == .slot

/-- Bytes of the matrix state of a core in the save area: tiles, scale bytes, accumulators, shadows, the rest. -/
def matrixBytes : Nat := 3 * 0x8000 + 2 * 4096

/-- Bytes of a block's image (R368). -/
def State.blockImage (s : State) (b : Block) : Nat :=
  4096 + pageUp b.size + (if b.holds then matrixBytes else 0) + (s.savedCtxs b).foldl (fun n c => n + s.savedSize c) 0

/-- The blocks of a gang. -/
def State.gangBlocks (s : State) (g : Gang) : List Block := s.blocks.filter fun b => b.gang == g.id && !b.child
/-- A gang's sequencer context. -/
def State.gangSeq (s : State) (g : Gang) : Option Ctx := s.ctxs.find? fun c => c.kind == .seq && c.gang == g.id

/-- Bytes of a gang in the save area. -/
def State.gangImage (s : State) (g : Gang) : Nat :=
  (match s.gangSeq g with | some c => 16384 + s.savedSize c | none => 0) + (s.gangBlocks g).foldl (fun n b => n + s.blockImage b) 0

/-- Where a gang can be saved: the lowest free place of the save area. -/
def State.savePlace (s : State) (g : Gang) : Option Nat :=
  let base := bits (s.reg 0 0x140C10) 51 12 * 4096
  let size := bits (s.reg 0 0x140C18) 39 12 * 4096
  let taken := (s.gangs.filter fun x => x.saved).map fun x => (x.image, x.extent)
  let n := s.gangImage g
  let ok := fun (a : Nat) => decide (a + n ≤ base + size) && taken.all fun p => decide (a + n ≤ p.1) || decide (p.1 + p.2 ≤ a)
  ((base :: taken.map fun p => p.1 + p.2).filter fun a => decide (base ≤ a) && ok a).foldl (fun b a => match b with
    | some x => some (min x a)
    | none => some a) none

/-- Whether a gang can be saved now (R246, R365, R426): its contexts stand at run boundaries with no commit held and no
deferred trap, and no matrix command of it is pending. -/
def State.savable (s : State) (g : Gang) : Bool :=
  !g.saved && (s.ctxs.all fun c => c.gang != g.id || c.ended || (c.commitQ.isEmpty && c.lanes.all fun l => l.deferred.isNone))
    && !s.ops.any fun o => o.gang == g.id && (match o.cmd with | .matrix _ _ _ => true | _ => false)

/-- Save one context at an address. -/
def State.saveCtx (s : State) (c : Ctx) (at' : Bool × Nat) : State :=
  let s1 := (s.dropHold (clusterKey c.loc) c.id).updCtx c.id fun c => { c with saved := true, image := some at', waitSince := 0 }
  s1.refreshImage c.id

/-- The bytes of a core's mirrored bits, latch, core mask and stamp episodes in the save area (log entry 30). -/
def State.matrixRest (s : State) (b : Block) : List Byte :=
  let k := s.core b.loc
  let mask := ((s.ctxs.find? fun c => c.kind == .seq && c.gang == b.gang).map fun c => c.coreMask).getD 0
  let l := k.latch.getD { a := zeros 2048, scales := zeros 64 }
  leBytes 1 ((List.range 8).foldl (fun n i => n + 2 ^ i * bitOf (nth k.mirrored i true)) 0) ++ leBytes 7 (bitOf k.latch.isSome)
    ++ leBytes 8 mask ++ zeros 48 ++ l.a ++ l.scales ++ zeros 384
    ++ (k.episodes.flatMap fun e => leBytes 8 e.copyIn ++ leBytes 8 e.opWait ++ leBytes 8 e.cstart ++ leBytes 8 e.cend ++ leBytes 8 e.steps)

/-- Save the matrix state of a core (R246). -/
def State.saveMatrix (s : State) (b : Block) (at' : Nat) : State :=
  let m := mapBase b.loc.die b.loc.cluster b.loc.core
  let sh := (List.range 8192).flatMap fun w => leBytes 4 (Table.get (s.core b.loc).shadow w (0 : W32)).toNat
  let rest := s.matrixRest b
  ((((s.moveArea (m + 0x400000) at' 0x8000).moveArea (m + 0x408000) (at' + 0x8000) 1024).moveArea (m + 0x480000) (at' + 0x9000) 0x8000).wr
    (at' + 0x11000) sh).wr (at' + 0x19000) rest

/-- Reinstate the matrix state of a core. -/
def State.loadMatrix (s : State) (b : Block) (at' : Nat) : State :=
  let m := mapBase b.loc.die b.loc.cluster b.loc.core
  let s1 := ((s.moveArea at' (m + 0x400000) 0x8000).moveArea (at' + 0x8000) (m + 0x408000) 1024).moveArea (at' + 0x9000) (m + 0x480000) 0x8000
  let r := at' + 0x19000
  let k := s1.core b.loc
  s1.setCore b.loc { k with
    shadow := (List.range 8192).foldl (fun t w => Table.set t w (BitVec.ofNat 32 (s1.readN (at' + 0x11000 + 4 * w) 4)) 0) []
    mirrored := (List.range 8).map fun i => (s1.readN r 1).testBit i
    latch := if s1.readN (r + 1) 1 == 1 then some { a := s1.readBytes (r + 64) 2048, scales := s1.readBytes (r + 2112) 64 } else none
    episodes := (List.range 8).map fun i =>
      let e := r + 2560 + 40 * i
      { copyIn := s1.readN e 8, opWait := s1.readN (e + 8) 8, cstart := s1.readN (e + 16) 8, cend := s1.readN (e + 24) 8
        steps := s1.readN (e + 32) 8 } }

/-- The 256-byte header of a block's image (R368); its four bits hold a count of 16 warps as 0 (log entry 81). -/
def State.blockHeader (s : State) (b : Block) : List Byte :=
  let cs := s.savedCtxs b
  let slot := cs.any fun c => c.kind == .slot
  leBytes 8 ((cs.length - bitOf slot) % 16 + 16 * bitOf slot)
    ++ (match b.succSlot with
      | some (e, a) => leBytes 8 (2 ^ 63 + e) ++ leBytes 8 a.toNat
      | none => zeros 16)
    ++ leBytes 8 b.size ++ zeros 224

/-- Save the contexts of a block one after the other. -/
def State.saveCtxs (s : State) (cs : List Ctx) (at' : Nat) : State :=
  match cs with
  | [] => s
  | c :: r => (s.saveCtx c (false, at')).saveCtxs r (at' + s.savedSize c)

/-- Save a block (R368). -/
def State.saveBlock (s : State) (b : Block) (at' : Nat) : State :=
  let s1 := s.wr at' (s.blockHeader b)
  let s2 := s1.moveArea b.start (at' + 4096) b.size
  let m := at' + 4096 + pageUp b.size
  let s3 := if b.holds then s2.saveMatrix b m else s2
  let s4 := s3.saveCtxs (s3.savedCtxs b) (m + if b.holds then matrixBytes else 0)
  let k := s4.core b.loc
  ((s4.setCore b.loc { k with holder := if k.holder == some b.id then none else k.holder }).charge (clusterKey b.loc) 0 b.cost).updBlock b.id
    fun b => { b with saved := some at', cost := 0 }

/-- Save blocks one after the other. -/
def State.saveBlocks (s : State) (bs : List Block) (at' : Nat) : State :=
  match bs with
  | [] => s
  | b :: r => (s.saveBlock b at').saveBlocks r (at' + s.blockImage b)

/-- Pre-empt a gang into the save area at an address (R246, R368, R382): the sequencer context's image, its part of the
sequencer file, the blocks. -/
def State.saveGang (s : State) (g : Gang) (at' : Nat) : State :=
  let bs := s.gangBlocks g
  let s1 := match s.gangSeq g with
    | some c =>
      let f := at' + s.savedSize c
      let s1 := (s.moveArea c.filePa f 16384).updCtx c.id fun c => { c with fileAt := f }
      if c.ended then s1.updCtx c.id fun c => { c with saved := true, image := some (false, at') } else s1.saveCtx c (false, at')
    | none => s
  let s2 := s1.saveBlocks bs (at' + (match s.gangSeq g with | some c => s.savedSize c + 16384 | none => 0))
  (s2.updGang g.id fun g => { g with saved := true, image := at', extent := s.gangImage g }).updLaunch g.launch fun l => { l with pre := true, preempts := l.preempts + 1 }

/-- What a saved block costs when it returns (R384): a warp of it that is evicted costs nothing until it is restored. -/
def State.returnCost (s : State) (l : Launch) (b : Block) : Nat :=
  s.weight l.record.energy * (l.record.warps - (s.ctxs.filter fun c => c.block == b.id && c.evicted).length)

/-- Whether a saved block fits on its own core again. -/
def State.blockReturns (s : State) (l : Launch) (b : Block) (extra : Nat) : Bool :=
  let cs := s.savedCtxs b
  let key := l.record.key
  let lin := ((s.gang? b.gang).map fun g => g.linear).getD 0
  s.slotsOk b.loc cs.length (cs.foldl (fun n c => n + c.width * c.vregs * 4) 0) (s.reserveAt b.loc l.record.reserve)
    && (!b.holds || (s.core b.loc).holder.isNone) && !(cs.any (fun c => c.kind == .slot) && s.slotTaken b.loc)
    && areaFree (s.takenAreas b.loc (Region.mine key lin b.index)) b.size b.base
    && s.energyOk (clusterKey b.loc) (s.returnCost l b) extra

/-- Whether a saved gang can be restored onto its own cores now (R7, R382); its sequencer context takes the same
number again (log entry 30). -/
def State.gangReturns (s : State) (l : Launch) (g : Gang) : Bool :=
  g.saved
    && (match s.gangSeq g with
      | some c => !s.ctxs.any fun x => x.kind == .seq && clusterKey x.loc == clusterKey c.loc && x.slotNo == c.slotNo && !x.saved
      | none => true)
    && ((s.gangBlocks g).foldl (fun (p : Bool × Nat) b =>
      (p.1 && s.blockReturns l b p.2, p.2 + s.returnCost l b)) (true, 0)).1

/-- The monitor waits of a context: lanes and wait. -/
def Ctx.monitors (c : Ctx) : List (List Nat × Wait) :=
  ((c.allLanes.filterMap fun l => match (c.lane l).st with
    | .waiting (.monwait i sp a d e dl h pc) => some (Wait.monwait i sp a d e dl h pc)
    | _ => none).eraseDups).map fun w => (c.waitGroup w, w)

/-- A saved context runs again, and fetches afresh. -/
def State.loadCtx (s : State) (c : Ctx) : State :=
  s.updCtx c.id fun c => { c with
    lanes := if c.lanes.any (fun x => x.fetchHold.isSome) then c.lanes.map fun x => { x with fetchHold := none } else c.lanes
    saved := false, image := none, slotNo := if c.kind == .seq then c.slotNo else s.freeSlot c.loc }

/-- The MONWAITs of a restored context read afresh (R204). -/
def State.rearm (s : State) (cid : Nat) : State :=
  match s.ctx? cid with
  | some c => c.monitors.foldl (fun s m => s.monStep c.id m.1 m.2) s
  | none => s

/-- Restore a block (R368). -/
def State.loadBlock (s : State) (l : Launch) (b : Block) (at' : Nat) : State :=
  let cs := s.savedCtxs b
  let w := s.weight l.record.energy
  let cost := s.returnCost l b
  let b1 := { b with saved := none }
  let s1 := s.moveArea (at' + 4096) b1.start b.size
  let s2 := if b.holds then
      let s2 := s1.loadMatrix b (at' + 4096 + pageUp b.size)
      s2.setCore b.loc { s2.core b.loc with holder := some b.id }
    else s1
  cs.foldl (fun s c => (s.updCtx c.id fun c => { c with cost := w }).loadCtx c) ((s2.charge (clusterKey b.loc) cost 0).updBlock b.id fun b => { b with saved := none, cost := cost })

/-- Restore a gang onto its own cores (R246, R368, R382). -/
def State.loadGang (s : State) (l : Launch) (g : Gang) : State :=
  let s1 := match s.gangSeq g with
    | some c =>
      let c1 := { c with saved := false, image := none }
      (s.moveArea c.filePa c1.filePa 16384).loadCtx c
    | none => s
  let s2 := (s.gangBlocks g).foldl (fun s b => match b.saved with | some a => s.loadBlock l b a | none => s) s1
  let s3 := s2.updGang g.id fun g => { g with saved := false, image := 0, extent := 0 }
  (s3.ctxs.filter fun c => c.gang == g.id && !c.saved && !c.ended).foldl (fun s c => s.rearm c.id) s3

/-! Eviction (R285 to R288). -/

/-- The tokens of a context that are pending on a JCWAIT. -/
def State.joinTokens (s : State) (c : Ctx) : List Nat :=
  (s.ops.filter fun o => o.ctx == c.id && c.rdTok o.token == .pending o.id && (match o.cmd with | .jcwait _ _ => true | _ => false)).map
    fun o => o.token

/-- The pending tokens that hold the run at an address at its entry (R29, R30). -/
def State.entryTokens (s : State) (c : Ctx) (pc : W64) : List Nat :=
  let a := s.ahead c.loc pc 24
  (a.gates.filter fun k => (c.rdTok k).isPending)
    ++ (s.ops.filter fun o => o.ctx == c.id && c.rdTok o.token == .pending o.id
        && a.seen.any fun x => (namedKeys x.2.1 x.2.2).any o.dst.keys.contains).map fun o => o.token

/-- The tokens a lane waits for; none where it does not wait. -/
def State.laneWaits (s : State) (c : Ctx) (l : Nat) : Option (List Nat) :=
  if (c.lane l).halted then some []
  else
    match (c.lane l).st with
    | .waiting (.waitk m _ _) => some (c.toksWhere m TokSt.isPending)
    | .waiting (.twaitk m _ _ _) => some (c.toksWhere m TokSt.isPending)
    | .waiting _ => some []
    | .runnable =>
      match s.entryTokens c (c.lane l).pc with
      | [] => none
      | ks => some ks
    | _ => none

/-- R285: a join-waiting warp. -/
def State.joinWaiting (s : State) (c : Ctx) : Bool :=
  let jk := s.joinTokens c
  let ls := c.allLanes.filter fun l => (c.lane l).st != .exited
  !jk.isEmpty && c.kind == .lane && !c.ended && !c.saved && c.commitQ.isEmpty && c.lanes.all (fun l => l.deferred.isNone)
    && (ls.all fun l => (s.laneWaits c l).isSome)
    && ls.any fun l => ((s.laneWaits c l).getD []).any jk.contains

/-- Whether a core admits a child warp of a launch (R277, R278), with its bound producer slot if it has one: the slots reserved
there are open to launches that keep a reserve on it. -/
def State.childFits (s : State) (l : Launch) (c : Loc) (slot : Bool := false) : Bool :=
  let ours := l.record.reserve != 0 && s.blocks.any fun b => b.launch == l.id && s.worksAt c b
  s.slotsOk c (1 + bitOf slot) (l.record.warpBytes + bitOf slot * (128 * l.record.vregs)) (if ours then 0 else s.reserveAt c 0)
    && s.energyOk (clusterKey c) (s.weight l.record.energy) 0

/-- Whether work of a launch waits in a cluster that none of its cores can admit (R285). -/
def State.childrenStuck (s : State) (l : Launch) (ck : Nat) : Bool :=
  let c := s.cluster ck
  (c.formed.any (fun f => f.launch == l.id) || c.spawnQ.any fun e => e.launch == l.id && e.eligible.isSome)
    && !(coreOrder ck []).any (s.childFits l)

/-- Whether something that the context of an access has committed waits behind the access's preconditions (log entry 85). -/
def State.holdsBack (s : State) (o : Op) : Bool :=
  o.placed && o.stage == .waiting && o.overtaken.isNone && !o.resolved
    && ((s.ctx? o.ctx).any (fun c => !c.commitQ.isEmpty)
      || s.ops.any fun x => x.ctx == o.ctx && decide (o.id < x.id) && x.stage == .waiting && x.resolved)

/-- Keep account of how long accesses have held back what their contexts committed (08_ordering.md R168). -/
def State.trackGated (s : State) : State :=
  if s.ops.all fun o => !s.holdsBack o && o.stall == 0 then s
  else { s with ops := s.ops.map fun o =>
    { o with stall := if !s.holdsBack o then 0 else if o.stall != 0 then o.stall else Table.get s.cyc (clusterKey o.loc) 0 + 1 } }

/-- Keep account of how long warps have been join-waiting and children stuck (R285); times are cycles plus 1, 0 for
none. -/
def State.trackJoins (s : State) : State :=
  let active := s.ops.any fun o => match o.cmd with | .jcwait _ _ => true | _ => false
  if !active && s.ctxs.all (fun c => c.waitSince == 0) && s.clusters.all (fun p => p.2.evictSince.isEmpty) then s
  else
    let now := fun (k : Nat) => Table.get s.cyc k 0 + 1
    let s1 : State := { s with ctxs := s.ctxs.map fun c =>
      let j := active && s.joinWaiting c
      if j && c.waitSince != 0 then c else { c with waitSince := if j then now (clusterKey c.loc) else 0 } }
    s1.clusterKeys.foldl (fun s ck =>
      let c := s.cluster ck
      let t := s.launches.foldl (fun t l =>
        if active && s.childrenStuck l ck then (if Table.get t l.id 0 == 0 then Table.set t l.id (now ck) 0 else t)
        else Table.set t l.id 0 0) c.evictSince
      if t == c.evictSince then s else s.setCluster ck { c with evictSince := t }) s1

/-- Keep account of the waits that have bounds. -/
def State.track (s : State) : State := s.trackGated.trackJoins

/-- The first free slot of a launch's context part for a cluster (R285). -/
def State.contextSlot (s : State) (l : Launch) (ck : Nat) : Option Nat :=
  let size := imageSize l.record.lanes l.record.vregs
  (((List.range l.record.ctxSlots).map fun i => l.record.context + ck * l.record.ctxSlots * size + i * size).find? fun va =>
    !s.ctxs.any fun c => c.launch == l.id && c.evicted && c.image == some (true, va))

/-- The bound producer slot of a child warp, which is evicted and restored with it (14_copy_streams.md R306). -/
def State.childSlot (s : State) (c : Ctx) : Option Ctx :=
  match s.block? c.block with
  | some b => if b.child then (b.slotCtx.bind s.ctx?).filter fun x => !x.ended else none
  | none => none

/-- EVICTION (R285, R286, R288): the warp of a launch that has been join-waiting longest is saved, or the launch killed. -/
def State.evict (s : State) (ck lid : Nat) : Option State :=
  match s.launch? lid with
  | none => none
  | some l =>
    let now := Table.get s.cyc ck 0 + 1
    let since := Table.get (s.cluster ck).evictSince lid 0
    let ws := s.ctxs.filter fun c => c.launch == lid && clusterKey c.loc == ck && c.waitSince != 0 && s.joinWaiting c
    match ws.foldl (fun (b : Option Ctx) c => match b with
      | some x => if c.waitSince < x.waitSince then some c else some x
      | none => some c) none with
    | none => none
    | some c =>
      if since == 0 || now < since + 4096 || now < c.waitSince + 4096 || !s.childrenStuck l ck then none
      else
        match s.contextSlot l ck, s.childSlot c with
        | none, _ => some (s.killLaunch lid 3 false)
        | some va, slot =>
          if slot.any fun x => !x.commitQ.isEmpty || x.lanes.any fun y => y.deferred.isSome then none
          else
            let s1 := ((s.saveCtx c (true, va)).charge ck 0 c.cost).updBlock c.block fun b => { b with cost := b.cost - c.cost }
            some (match slot with | some x => s1.saveCtx x noImage | none => s1)

/-- Whether some lane of a saved context can go on, which restores an evicted warp (R287, log entry 110). -/
def State.canGoOn (s : State) (c : Ctx) : Bool :=
  c.allLanes.any fun l =>
    !(c.lane l).halted && !c.suspended l &&
      (match (c.lane l).st with
      | .waiting (.waitk m _ _) => (c.toksWhere m TokSt.isPending).isEmpty
      | .waiting (.twaitk m _ dl _) => (c.toksWhere m TokSt.isPending).isEmpty || decide (dl ≤ s.ns)
      | .runnable => (s.entryTokens c (c.lane l).pc).isEmpty
      | _ => false)

/-- Whether an evicted warp can be restored onto a core (R287): a block's own core, or any core of a child's cluster. -/
def State.canRestore (s : State) (c : Ctx) (l : Loc) : Bool :=
  c.evicted && s.canGoOn c && clusterKey l == clusterKey c.loc && decide (l.core < 24)
    && (l == c.loc || (s.block? c.block).any (fun b => b.child))
    && ((s.block? c.block).any fun b => b.saved.isNone)
    && ((s.childSlot c).isNone || !s.slotTaken l)
    && (s.launch? c.launch).any fun la => s.childFits la l (s.childSlot c).isSome

/-- EVICTED_WARP_RESTORE (R287). -/
def State.restoreWarp (s : State) (cid core : Nat) : Option State :=
  match s.ctx? cid with
  | none => none
  | some c =>
    let l := locOf core
    match s.launch? c.launch with
    | none => none
    | some la =>
      if !s.canRestore c l then none
      else
        let w := s.weight la.record.energy
        let s1 := (s.updCtx cid fun c => { c with loc := l, cost := w }).charge (clusterKey l) w 0
        let s2a := s1.updBlock c.block fun b => { b with loc := if b.child then l else b.loc, cost := b.cost + w }
        let s2 := if s.blocks.any fun b => b.launch == c.launch && b.loc == l then s2a else s2a.takeBank c.launch l
        let s3 := if l == c.loc || s2.blocks.any (fun b => b.launch == c.launch && b.loc == c.loc) then s2 else s2.latchBank c.launch c.loc
        let s4 := (c :: (s.childSlot c).toList).foldl (fun s x => (s.updCtx x.id fun x => { x with loc := l }).loadCtx { x with loc := l }) s3
        some ((c :: (s.childSlot c).toList).foldl (fun s x => s.rearm x.id) s4)

end Sys2Proof.Machine
end

