-- ==== Sys2Proof/Machine/Lens.lean ====
section
/-! DEFINITION. The Lens of a cluster (13_spawn.md R268 to R280): eligible entries, bins, forming warps, entries back from
the spill area, child warps; relaunch of a block (07_memory.md R161). -/

namespace Sys2Proof.Machine

/-- SPAWN_ENTRY_ELIGIBLE (R274): an entry whose SPAWN has performed its additions. -/
def State.entryEligible (s : State) (id : Nat) : Option State :=
  match (s.clusterKeys.find? fun ck => (s.cluster ck).spawnQ.any fun e => e.id == id && e.added && e.eligible.isNone) with
  | none => none
  | some ck =>
    let c := s.cluster ck
    some (s.setCluster ck { c with
      spawnQ := updWhere c.spawnQ (fun e => e.id == id) fun e => { e with eligible := some (Table.get s.cyc ck 0) } })

/-- The bin of a launch and entry index: its eligible entries in reservation order. -/
def State.bin (s : State) (ck lid entry : Nat) : List Spawned :=
  (s.cluster ck).spawnQ.filter fun e => e.launch == lid && e.entry == entry && e.eligible.isSome

/-- Form a warp of entries of a bin (R276). -/
def State.formWarp (s : State) (ck lid entry : Nat) (es : List Spawned) : State :=
  let c := s.cluster ck
  s.setCluster ck { c with
    spawnQ := c.spawnQ.filter fun e => !es.any fun x => x.id == e.id
    formed := c.formed ++ [{ launch := lid, entry := entry, members := es }] }

/-- Form warps of at most W entries of a whole bin. -/
def State.flushBin (s : State) (ck lid entry w fuel : Nat) : State :=
  match fuel with
  | 0 => s
  | k + 1 =>
    match (s.bin ck lid entry).take w with
    | [] => s
    | es => (s.formWarp ck lid entry es).flushBin ck lid entry w k

/-- FULL_WARP (R276). -/
def State.fullWarp (s : State) (ck lid entry : Nat) : Option State :=
  match s.launch? lid with
  | none => none
  | some l =>
    let es := s.bin ck lid entry
    if l.record.lanes ≤ es.length then some (s.formWarp ck lid entry (es.take l.record.lanes)) else none

/-- AGE_FLUSH (R276): the oldest entry has been eligible for 256 cycles. -/
def State.ageFlush (s : State) (ck lid entry : Nat) : Option State :=
  match s.launch? lid with
  | none => none
  | some l =>
    let es := s.bin ck lid entry
    let now := Table.get s.cyc ck 0
    if es.head?.any fun e => match e.eligible with | some t => decide (t + 256 ≤ now) | none => false then
      some (s.flushBin ck lid entry l.record.lanes (es.length + 1))
    else none

/-- Whether a launch's gangs may be admitted at all now: serial queues (R377), residency keys (R385). -/
def State.mayAdmit (s : State) (l : Launch) : Bool :=
  !l.dying && l.status < 2 && decide (l.nextGang < l.record.gangs)
    && (l.started
      || (!((s.reg 0 (qReg l.queue 1)).getLsbD 18 && s.launches.any fun x => x.queue == l.queue && decide (x.order < l.order))
        && (l.record.key == 0 || !s.launches.any fun x => x.id != l.id && x.record.key == l.record.key && x.started)))

/-- The entry that 32 bytes of a spill part hold (Table 13.1). -/
def spilledEntry (bs : List Byte) (id launch ck : Nat) (added : Bool) (num : Nat) : Spawned :=
  let w := fun (o n : Nat) => leNat ((bs.drop o).take n)
  let f := w 0x18 4
  { id := id, launch := launch, cluster := ck, entry := f % 64, p0 := BitVec.ofNat 32 (w 8 4), p1 := BitVec.ofNat 32 (w 12 4)
    p2 := BitVec.ofNat 32 (w 16 4), p3 := BitVec.ofNat 32 (w 20 4), jc := w 0 8, jcMap := f.testBit 16, gen := nbits f 15 8
    eligible := none, added := added, spill := some num }

/-- Whether a spilled entry of a launch belongs to a SPAWN that has its additions still to perform (R274). -/
def State.spawnPending (s : State) (lid ck num : Nat) : Bool :=
  (s.ctxs.filter fun c => c.launch == lid && clusterKey c.loc == ck).any fun c => (s.undone c).any fun a => match a with
    | .spawn _ rs _ _ => rs.any fun r => !r.onChip && r.id == num
    | _ => false

/-- SPILL_RETURN (R270): the oldest spilled entry comes back on chip; it is eligible once its SPAWN has performed its additions
(R274), and dropped where that was discarded. -/
def State.spillReturn (s : State) (ck lid : Nat) : Option State :=
  match s.launch? lid with
  | none => none
  | some l =>
    let head := Table.get l.spillHead ck 0
    if l.spilled ck == 0 || l.record.quota ≤ s.heldEntries lid ck || 4096 ≤ s.heldAll ck then none
    else
      let va := l.spillPart ck + 64 + 32 * (head % l.record.spillN)
      match s.rdVa (lensWho lid ck) va 32 with
      | (s1, some bs) =>
        let e := spilledEntry bs s1.nextId lid ck (!s.spawnPending lid ck head) head
        let c := s1.cluster ck
        let gone := l.voided.contains (ck, head)
        let l1 := { l with spillHead := Table.set l.spillHead ck ((head + 1) % 2 ^ 32) 0, voided := l.voided.filter fun p => p != (ck, head) }
        let s2 : State := { s1.setCluster ck { c with spawnQ := if gone then c.spawnQ else c.spawnQ ++ [e] } with nextId := s1.nextId + 1 }
        some ((s2.updLaunch lid fun _ => l1).writeSpillHeader l1 ck (l.spilled ck))
      | _ => none

/-- The context of a child warp (R279). -/
def childCtx (s : State) (l : Launch) (bid : Nat) (c : Loc) (pc : W64) (es : List Spawned) : Ctx :=
  let x := Ctx.start s.nextId .lane l bid bid 0 c (s.freeSlot c) l.record.lanes (s.pastPads c pc)
  let n := es.length
  { x with
    npay := n, behind := s.nextId, cost := s.weight l.record.energy
    lanes := (List.range x.width).map fun i => match es[i]? with
      | some e => { x.lane i with gen := e.gen, jc := e.jc, jcMap := e.jcMap }
      | none => { x.lane i with st := .exited }
    v := ((List.range n).zip es).foldl (fun t p =>
      Table.set (Table.set (Table.set (Table.set t p.1 p.2.p0 0) (64 + p.1) p.2.p1 0) (128 + p.1) p.2.p2 0) (192 + p.1) p.2.p3 0) [] }

/-- Start a formed warp on a core as a block of one warp (R279, R280); an entry that is no longer valid kills it
(log entry 29). -/
def State.startChild (s : State) (l : Launch) (ck : Nat) (f : Formed) (c : Loc) : State :=
  let k := s.cluster ck
  let cost := s.weight l.record.energy
  let bid := s.nextId
  let b : Block := { id := bid, launch := l.id, gang := bid, index := 0, loc := c, base := 0, size := 0, succSlot := none
                     child := true, holds := false, gen := 0, relaunched := false, killed := false, saved := none, cost := cost
                     slotCtx := none, stat := SlotStat.reset }
  let s1 : State := { s.setCluster ck { k with formed := k.formed.erase f } with nextId := bid + 1, blocks := s.blocks ++ [b] }
  let at' := s1.spawnTarget (lensWho l.id ck) f.entry
  let s1' := s1.countSpawn (lensWho l.id ck) f.entry
  let s2 := (if s.blocks.any fun b => b.launch == l.id && b.loc == c then s1' else s1'.takeBank l.id c).charge ck cost 0
  let s3 : State := { s2 with ctxs := s2.ctxs ++ [childCtx s2 l bid c (at'.getD 0) f.members], nextId := s2.nextId + 1 }
  if at'.isSome then s3 else s3.killBlock bid 0x0A 0 0 0

/-- Whether an evicted warp of a cluster can be restored now (R277). -/
def State.restorable (s : State) (ck : Nat) : Bool := s.ctxs.any fun x => clusterKey x.loc == ck && (coreOrder ck []).any (s.canRestore x)

/-- The first formed warp of a cluster that some core of it admits, with its launch (R277). -/
def State.firstFormed (s : State) (ck : Nat) : Option (Launch × Formed) :=
  (s.cluster ck).formed.findSome? fun f => match s.launch? f.launch with
    | some l => if (coreOrder ck []).any (s.childFits l) then some (l, f) else none
    | none => none

/-- CHILD_WARP_ADMIT (R277): the first formed warp of a cluster that has room there, on a core that admits it, once no evicted
warp can be restored. -/
def State.admitChild (s : State) (ck core : Nat) : Option State :=
  let c := locOf core
  if clusterKey c != ck || 24 ≤ c.core || s.restorable ck then none
  else
    match s.firstFormed ck with
    | some (l, f) => if s.childFits l c then some (s.startChild l ck f c) else none
    | none => none

/-- BLOCK_RELAUNCH (R161): the first block that awaits it, on a core of its gang's cluster that admits it,
after the evicted and formed warps that fit there (R277). -/
def State.relaunchBlock (s : State) (lid core : Nat) : Option State :=
  match s.launch? lid with
  | none => none
  | some l =>
    match l.relaunchQ with
    | [] => none
    | (gid, idx) :: rest =>
      match s.gang? gid with
      | none => none
      | some g =>
        let c := locOf core
        if g.saved || l.dying || c.die != g.die || c.cluster != g.cluster || 24 ≤ c.core
            || s.blocks.any (fun b => b.gang == gid && (b.loc == c || b.index == idx))
            || s.restorable (clusterKey c) || (s.firstFormed (clusterKey c)).isSome
            || (s.cluster (clusterKey c)).formed.any (fun f => f.launch == lid)
            || !s.energyOk (clusterKey c) (s.weight l.record.energy * l.record.warps) 0 then none
        else
          (s.admits l g.linear idx c).map fun base =>
            ((s.updLaunch lid fun l => { l with relaunchQ := rest }).startBlock l gid g.linear idx c base true)

end Sys2Proof.Machine
end

