-- ==== Sys2Proof/Machine/FabricEvents.lean ====
section
/-! DEFINITION. Events of the fabric (15_fabric.md R317 to R336; 19_device.md R403): packets from devices of the pod,
acknowledgements, retransmission, dead connections, die-link modules. Remote devices are the environment (log
entry 22). -/

namespace Sys2Proof.Machine

/-- The failures a target may answer with (Table 15.4). -/
def replyCauses : List (Nat × Nat) := [(0x0C, 0x70), (0x0C, 0x71), (5, 0x72), (5, 5), (4, 4), (0x0B, 6)]

/-- Whether an answer fits a request of a single-target command. -/
def replyFits (r : Reply) (q : Request) : Bool :=
  match r with
  | .ok vs => vs.length == (match q with | .load _ as => as.length | .atom _ _ cs _ => cs.length | _ => 0)
  | .fail c d _ _ => replyCauses.contains (c, d)
  | .members _ _ _ _ _ => false

/-- Words that tell the outside what a target answered (log entry 22). -/
def replyWords (r : Reply) : List W64 :=
  match r with
  | .ok vs => vs
  | .fail c d l a => [BitVec.ofNat 64 (c + 2 ^ 8 * d + 2 ^ 16 * l), BitVec.ofNat 64 a]
  | .members f u c d a => [f.setWidth 64 ||| (u.setWidth 64 <<< 32), BitVec.ofNat 64 (c + 2 ^ 8 * d), BitVec.ofNat 64 a]

/-- The port by which a command of a die to its own device arrives (R319, R321): the first enabled one of the die, or
else of the other die. -/
def State.ownPort (s : State) (die : Nat) : Nat :=
  (((List.range 8).map (fun i => 8 * die + i) ++ (List.range 8).map fun i => 8 * (1 - die) + i).find? fun p => (s.cap 3).testBit p).getD
    (8 * die)

/-- FABRIC_PACKET_ARRIVAL (R318, R322): a request performed at the gateway of the receiving die. A packet on a dead
connection is not performed (R403). -/
def State.packetArrival (s : State) (port : Nat) (p : Packet) : Option State :=
  if 16 ≤ port || !(s.cap 3).testBit port || 1024 ≤ p.peer then none
  else
    let (s1, r) := match s.connect (port / 8) p.peer with
      | (s1, some (c, d)) => (s1, Reply.fail c d 0 0)
      | (s1, none) => s1.performRequest (port / 8) port p.peer p.req
    some { s1 with answers := s1.answers ++ replyWords r }

/-- RSTM_COMMIT_MESSAGE (R328): the issuer of staged payload i commits it at a die. -/
def State.commitStaged (s : State) (i : Nat) : Option State :=
  [0, 1].findSome? fun d =>
    let n := (s.die 0).staged.length
    let j := if d == 0 then some i else if n ≤ i then some (i - n) else none
    match j with
    | none => none
    | some j =>
      match (s.die d).staged[j]? with
      | none => none
      | some x =>
        let (s1, r) := (s.setDie d { s.die d with staged := (s.die d).staged.erase x }).performStaged x
        some { s1 with answers := s1.answers ++ replyWords r }

/-- The lanes of an element command. -/
def FCmd.accs (c : FCmd) : List Acc :=
  match c with
  | .rld _ _ _ as | .rst _ _ _ as | .ratom _ _ _ _ as => as
  | _ => []

/-- Note progress of a connection. -/
def State.progress (s : State) (die peer : Nat) : State :=
  match s.conn? die peer with
  | some c => s.setDie die { s.die die with conns := Table.set (s.die die).conns peer { c with since := s.ns } Conn.absent }
  | none => s

/-- End a single-target command as its target answered: destinations written at completion (R324, R326). -/
def State.endFabric (s : State) (o : Op) (c : FCmd) (r : Reply) : State :=
  match r with
  | .ok vs => s.finishOp o.id (.ok ((c.accs.zip vs).flatMap fun p => o.dst.split p.1.lane p.2.toNat))
  | .fail ca d l a => s.finishOp o.id (.fail ca d ((c.accs.map fun a => a.lane).getD l 0) (BitVec.ofNat 64 a) 0)
  | .members _ _ _ _ _ => s

/-- A multicast's delivery to the issuer's own device: staged, checked and committed at its gateway. -/
def State.ownMember (s : State) (die : Nat) (q : Request) : State × Reply :=
  let p := s.ownPort die
  match s.performRequest (p / 8) p s.podNumber q with
  | (s1, .ok _) =>
    match (s1.die (p / 8)).staged.getLast? with
    | some x => (s1.setDie (p / 8) { s1.die (p / 8) with staged := (s1.die (p / 8)).staged.dropLast }).performStaged x
    | none => (s1, .ok [])
  | r => r

/-- Whether a command to the issuer's own device may be performed now: not before an earlier command of its context that writes
an element which it accesses there (08_ordering.md R176). -/
def State.ownTurn (s : State) (o : Op) : Bool :=
  !(s.earlier o).any fun x => s.sameElement x o && s.outbox.any fun e => e.1 == x.id && e.2.1 == s.podNumber

/-- The end of a multicast as its members answered (R328): those that failed at the issuer have failed, the members of a dead
connection have failed or are unknown, the others as the answer says. -/
def State.endMulticast (s : State) (o : Op) (ms : List (Nat × Nat)) (f u cause detail addr : Nat) : Option State :=
  let is := (List.range ms.length).zip ms
  let own := fun (p : Nat × Nat × Nat) => p.2 == (s.podNumber, 0)
  let fit := (is.all fun p =>
      if p.2.2 == 0x75 then f.testBit p.1 != u.testBit p.1 else !u.testBit p.1)
    && f / 2 ^ ms.length == 0 && u / 2 ^ ms.length == 0
  if !fit || (ms.contains (s.podNumber, 0) && !s.ownTurn o) then none
  else
    let (s1, ans) := match s.outbox.find? fun e => e.1 == o.id && e.2.1 == s.podNumber with
      | some e => s.ownMember o.loc.die e.2.2
      | none => (s, .ok [])
    let bad := fun (p : Nat × Nat × Nat) =>
      if p.2.2 != 0 then true
      else if own p then (match ans with | .ok _ => false | _ => true)
      else f.testBit p.1
    let us := is.foldl (fun n p => if bad p && u.testBit p.1 then n + 2 ^ p.1 else n) 0
    let fs := is.foldl (fun n p => if bad p && !u.testBit p.1 then n + 2 ^ p.1 else n) 0
    let s2 : State := ms.foldl (fun s m => s.progress o.loc.die m.1) { s1 with outbox := s1.outbox.filter fun e => e.1 != o.id }
    match is.find? bad with
    | none => some (s2.finishOp o.id (.ok []))
    | some p =>
      if p.2.2 != 0 then some (s2.finishOp o.id (.fail 0x0C p.2.2 0 0 (memberAux fs us)))
      else if own p then
        match ans with
        | .fail c d _ a => some (s2.finishOp o.id (.fail c d 0 (BitVec.ofNat 64 a) (memberAux fs us)))
        | _ => none
      else if replyCauses.contains (cause, detail) then
        some (s2.finishOp o.id (.fail cause detail 0 (BitVec.ofNat 64 addr) (memberAux fs us)))
      else none

/-- FABRIC_ACK of a command that is no collective (R324 to R328, R335). A command to the own pod number is performed
here, with the answer its gateway gives. -/
def State.commandAck (s : State) (o : Op) (c : FCmd) (r : Reply) : Option State :=
  match o.stage with
  | .sent =>
    match c with
    | .rstm _ _ _ _ _ _ ms =>
      match r with
      | .members f u ca d a => s.endMulticast o ms f.toNat u.toNat ca d a
      | _ => none
    | _ =>
      match s.outbox.find? fun e => e.1 == o.id with
      | none => none
      | some (_, peer, q) =>
        let own := peer == s.podNumber
        let (s1, r1) := if own then s.performRequest (s.ownPort o.loc.die / 8) (s.ownPort o.loc.die) peer q else (s, r)
        if (own && !s.ownTurn o) || (!own && !replyFits r q) then none
        else
          let s2 : State := { s1 with outbox := s1.outbox.filter fun e => e.1 != o.id }
          some ((s2.progress o.loc.die peer).endFabric o c r1)
  | _ => none

/-- FABRIC_RETRANSMIT (R320). -/
def State.retransmit (s : State) (die peer : Nat) : Option State :=
  match s.conn? die peer with
  | some c =>
    if c.dead || !s.outstanding die peer || peer == s.podNumber then none
    else some (s.setDie die { s.die die with
      conns := Table.set (s.die die).conns peer { c with retx := min (c.retx + 1) 0xFFFFFFFF } Conn.absent })
  | none => none

/-- CONNRESET (R403): a dead connection becomes none. -/
def State.connreset (s : State) (die peer : Nat) : State :=
  if (s.conn? die peer).any fun c => c.dead then
    s.setDie die { s.die die with conns := (s.die die).conns.filter fun c => c.1 != peer }
  else s

/-- DIE_LINK_MODULE_FAIL (R317, R404): a module of a die's end of the link goes out of service and is counted. -/
def State.linkModuleFail (s : State) (die modul : Nat) : Option State :=
  if 1 < die || 48 ≤ modul || (s.reg die 0x1E0018).getLsbD modul then none
  else some (s.setReg die 0x1E0018 (s.reg die 0x1E0018 ||| BitVec.ofNat 64 (2 ^ modul)))

end Sys2Proof.Machine
end

