-- ==== Sys2Proof/Machine/Collective.lean ====
section
/-! DEFINITION. The collective engine of a die (15_fabric.md R330 to R332): the descriptor, the start copy, sends and
receives step by step, time limits, ends. A command's stage `running n` stands before the send (n even) or the receive
(n odd) of step n / 2. -/

namespace Sys2Proof.Machine

/-- T. -/
def Coll.steps (c : Coll) : Nat := if c.op == 0 then 2 * c.p - 2 else c.p - 1
/-- The first element and the number of elements of chunk x mod P. -/
def Coll.chunk (c : Coll) (x : Int) : Nat × Nat :=
  let i := (x % c.p).toNat
  let lo := min (i * c.q) c.n
  (lo, min ((i + 1) * c.q) c.n - lo)
/-- Whether step k is of the reduce-scatter phase. -/
def Coll.reducing (c : Coll) (k : Nat) : Bool := c.op != 2 && k < c.p - 1
/-- The chunk that step k sends; it receives the chunk before. -/
def Coll.sent (c : Coll) (k : Nat) : Int :=
  if c.reducing k then (c.rank : Int) - k - 1 else (c.rank : Int) - (if c.op == 2 then (k : Int) else k - (c.p - 1 : Nat))
/-- Op of R331 with the incoming value on the left. -/
def Coll.apply (c : Coll) (x y : Nat) : Nat :=
  if c.et == 2 then (match c.opr with | 0 => (x + y) % 2 ^ 32 | 1 => max x y | _ => min x y)
  else
    let ct := if c.et == 1 then 2 else 0
    if c.opr == 0 then farith 0 0 ct x y 0 else fminmax (c.opr == 1) false ct x y

/-- The issuer of a collective's accesses. -/
def Op.collWho (o : Op) : Who := { o.who with master := 16, source := 5 }

/-- Read n elements. -/
def Eng.elems (w : Who) (a esz n aux : Nat) (pc : W64) : Eng (List Nat) :=
  Eng.collect (List.range n) fun i => Eng.word w 0 esz (a + esz * i) aux pc

/-- Write elements. -/
def Eng.putElems (w : Who) (a esz aux : Nat) (xs : List Nat) : Eng Unit :=
  Eng.each ((List.range xs.length).zip xs) fun p => do
    let pa ← Eng.chk w 0 esz (a + esz * p.1) .write aux
    Eng.act fun s => s.wr pa (leBytes esz p.2)

/-- The descriptor and its peer list (R330): their bytes. -/
def Eng.collRead (w : Who) (desc : Nat) (pc : W64) : Eng (List Byte) := do
  let pa ← Eng.chk w 0 64 desc .read 0
  let _ ← Eng.get pa 64 desc 0 pc
  let bs ← Eng.see fun s => s.readBytes pa 64
  Eng.need (collHeadOk bs) 2 0x79 desc 0
  let c := collOf 0 bs
  let ms ← Eng.elems w c.peers 2 c.p 0 pc
  let pod ← Eng.see fun s => s.podNumber
  Eng.need (ms.getD c.rank 0 == pod && ms.eraseDups.length == c.p) 2 0x79 desc 0
  pure (bs ++ ms.flatMap fun m => leBytes 2 m)

/-- The start of a collective (R331): its data, after the start copy. -/
def Eng.collStart (w : Who) (op desc : Nat) (pc : W64) : Eng (List Byte) := do
  let bs ← Eng.collRead w desc pc
  let c := collOf op bs
  if op == 2 then do
    let (lo, n) := c.chunk c.rank
    let xs ← Eng.elems w c.send c.esz n 0 pc
    Eng.putElems w (c.recv + c.esz * lo) c.esz 0 xs
  else if c.send == c.recv then pure ()
  else do
    let xs ← Eng.elems w c.send c.esz c.n 0 pc
    Eng.putElems w c.recv c.esz 0 xs
  pure bs

/-- Free values for n bytes from a virtual address, as far as they can be written (log entry 25). -/
def State.scramble (s : State) (w : Who) (va n : Nat) : State :=
  let i := s.freeIdx
  let s1 := (List.range n).foldl (fun s k =>
    match s.reach w (va + k) 1 .write with
    | (s1, .ok pa) => s1.wr pa [((Config.freeWord i k).setWidth 8 : Byte)]
    | (s1, _) => s1) s
  { s1 with freeIdx := i + 1 }

/-- Whether an operation is a collective. -/
def Op.isColl (o : Op) : Bool := match o.cmd with | .fabric (.coll _ _ _) => true | _ => false

/-- A collective fails at step k (R332): what is undefined then takes free values, once it has started. -/
def State.collFail (s : State) (o : Op) (cause detail addr k : Nat) : State :=
  match o.cmd with
  | .fabric (.coll op _ data) =>
    let s0 : State := { s with outbox := s.outbox.filter fun e => e.1 != o.id }
    let s1 := if data.isEmpty then s0
      else
        let c := collOf op data
        (s0.scramble o.collWho c.recv (c.n * c.esz)).scramble o.collWho c.stage (64 + 2 * c.qb)
    s1.finishOp o.id (.fail cause detail 0 (BitVec.ofNat 64 addr) (BitVec.ofNat 64 k))
  | _ => s

/-- What became of a step of a collective. -/
def State.collStop (s : State) (o : Op) (at' : Nat) (x : Stop) : State :=
  match x with
  | .fail c d a _ => s.collFail o c d a (at' / 2)
  | .hold va k _ => s.holdOp o o.collWho va k at'

/-- Perform the start of a collective. -/
def State.performColl (s : State) (o : Op) : State :=
  match o.cmd with
  | .fabric (.coll op desc _) =>
    match Eng.collStart o.collWho op desc.toNat o.pc s with
    | (.ok bs, s1) => s1.updOp o.id fun o => { o with cmd := .fabric (.coll op desc bs), stage := .running 0, time := s1.ns }
    | (.error x, s1) => s1.collStop o 0 x
  | _ => s

/-- COLLECTIVE_ENGINE_START (R331): the command at the head of a die's queue, once its preconditions are done and no
other is in execution. -/
def State.startColl (s : State) (die : Nat) : Option State :=
  match s.ops.find? fun o => o.isColl && o.loc.die == die && !o.over with
  | none => none
  | some o => if s.mayStart o && s.fenceFree o then some (s.performColl o) else none

/-- The running collective of a die with its descriptor and its place. -/
def State.collRunning (s : State) (die : Nat) : Option (Op × Coll × Nat) :=
  s.ops.findSome? fun o =>
    if o.loc.die == die then
      match o.cmd, o.stage with
      | .fabric (.coll op _ data), .running n => some (o, collOf op data, n)
      | _, _ => none
    else none

/-- Send a packet of a collective; the cause and DETAIL where it cannot be. -/
def Eng.toPeer (o : Op) (peer k : Nat) (r : Request) : Eng Unit := fun s =>
  if s.podSize ≤ peer then (.error (.fail 0x0C 0x70 0 k), s)
  else
    match s.connect o.loc.die peer with
    | (s1, some (c, d)) => (.error (.fail c d 0 k), s1)
    | (s1, none) => (.ok (), s1.post o.loc.die o.id peer r)

/-- Whether the connection to a peer has room for a packet of a collective (R320). -/
def Eng.room (o : Op) (peer : Nat) : Eng Bool := Eng.see fun s => !s.windowFull o.loc.die peer

/-- The send of step k (R331): none while CREDIT does not allow it, nor the window. -/
def Eng.collSend (o : Op) (c : Coll) (k : Nat) : Eng Bool := do
  let room ← Eng.room o (c.peer 1)
  let credit ← Eng.word o.collWho 0 8 (c.stage + 8) k o.pc
  if !room || credit < c.base + (k - 1) then pure false
  else do
    let (lo, n) := c.chunk (c.sent k)
    let xs ← Eng.elems o.collWho (c.recv + c.esz * lo) c.esz n k o.pc
    Eng.toPeer o (c.peer 1) k (.slot (c.stage + 64 + k % 2 * c.qb) (xs.flatMap fun x => leBytes c.esz x) c.stage)
    pure true

/-- The receive of step k (R331): none while ARRIVE does not allow it, nor the window. SIGNAL's check comes before the first write, so that
a page it waits for does not have the step repeated. -/
def Eng.collReceive (o : Op) (c : Coll) (k : Nat) : Eng Bool := do
  let room ← Eng.room o (c.peer (c.p - 1))
  let arrive ← Eng.word o.collWho 0 8 c.stage k o.pc
  if !room || arrive < c.base + k + 1 then pure false
  else do
    let (lo, n) := c.chunk (c.sent k - 1)
    let inc ← Eng.elems o.collWho (c.stage + 64 + k % 2 * c.qb) c.esz n k o.pc
    let sig ← if c.signal == 0 then pure [] else do
      let pa ← Eng.chk o.collWho 0 8 c.signal .write k
      pure [pa]
    let old ← if c.reducing k then Eng.elems o.collWho (c.recv + c.esz * lo) c.esz n k o.pc else pure inc
    Eng.putElems o.collWho (c.recv + c.esz * lo) c.esz k (if c.reducing k then (inc.zip old).map fun p => c.apply p.1 p.2 else inc)
    Eng.toPeer o (c.peer (c.p - 1)) k (.credit (c.stage + 8))
    Eng.each sig fun pa => Eng.act fun s => s.wr pa (leBytes 8 ((c.base + k + 1) % 2 ^ 64))
    pure true

/-- The end of a collective whose steps are done and acknowledged: after .RS the other chunks are undefined (log entry
25); STEPBASE advances. -/
def State.collEnd (s : State) (o : Op) (c : Coll) (desc : Nat) : State :=
  let w := o.collWho
  let s1 := if c.op == 1 then
      let (lo, n) := c.chunk c.rank
      (s.scramble w c.recv (lo * c.esz)).scramble w (c.recv + c.esz * (lo + n)) ((c.n - lo - n) * c.esz)
    else s
  match Eng.putElems w (desc + 0x38) 8 c.steps [(c.base + c.steps) % 2 ^ 64] s1 with
  | (.ok _, s2) => s2.finishOp o.id (.ok [])
  | (.error x, s2) => s2.collStop o (2 * c.steps) x

/-- End a collective if its steps are done and every packet is acknowledged. -/
def State.collSettle (s : State) (id : Nat) : State :=
  match s.op? id with
  | none => s
  | some o =>
    match o.cmd, o.stage with
    | .fabric (.coll op desc data), .running n =>
      let c := collOf op data
      if n == 2 * c.steps && !s.outbox.any (fun e => e.1 == id) then s.collEnd o c desc.toNat else s
    | _, _ => s

/-- A step of a collective that was performed, that waits, or that stopped. -/
def State.collStep (s : State) (o : Op) (n : Nat) (r : Except Stop Bool × State) : Option State :=
  match r with
  | (.ok true, s1) => some ((s1.updOp o.id fun o => { o with stage := .running (n + 1), time := if n % 2 == 1 then s.ns else o.time }).collSettle o.id)
  | (.ok false, _) => none
  | (.error x, s1) => some (s1.collStop o n x)

/-- COLL_SEND. -/
def State.collSend (s : State) (die : Nat) : Option State :=
  match s.collRunning die with
  | some (o, c, n) => if n % 2 == 0 && n < 2 * c.steps then s.collStep o n (Eng.collSend o c (n / 2) s) else none
  | none => none

/-- COLL_RECEIVE. -/
def State.collReceive (s : State) (die : Nat) : Option State :=
  match s.collRunning die with
  | some (o, c, n) => if n % 2 == 1 then s.collStep o n (Eng.collReceive o c (n / 2) s) else none
  | none => none

/-- COLL_TIMEOUT (R332): a member has waited longer than TIMEOUT in a step. -/
def State.collTimeout (s : State) (die : Nat) : Option State :=
  match s.collRunning die with
  | some (o, c, n) =>
    let limit := 1000 * (if c.timeout == 0 then 1000 else c.timeout)
    if o.time + limit < s.ns && n < 2 * c.steps then some (s.collFail o 0x0C 0x78 0 (n / 2)) else none
  | none => none

/-- FABRIC_ACK: of a command, or of the oldest packet of a collective, whose failure is the command's (R332). -/
def State.fabricAck (s : State) (id : Nat) (r : Reply) : Option State :=
  match s.op? id with
  | none => none
  | some o =>
    match o.cmd with
    | .fabric (.coll op _ data) =>
      match s.outbox.find? fun e => e.1 == id with
      | none => none
      | some e =>
        if !replyFits r e.2.2 then none
        else
          let s1 := { s with outbox := s.outbox.erase e }.progress o.loc.die e.2.1
          match r with
          | .fail c d _ a =>
            let k := match o.stage with
              | .running n => n / 2
              | .held (x :: _) _ _ _ _ => x.x.1.toNat / 2
              | _ => 0
            some (s1.collFail o c d a (min k ((collOf op data).steps - 1)))
          | _ => some (s1.collSettle id)
    | .fabric c => s.commandAck o c r
    | _ => none

/-- CONNECTION_DEAD (R320, R336): a connection that made no progress for 1,000,000 ns; its commands fail. A command to
the own device always makes progress. -/
def State.connectionDead (s : State) (die peer : Nat) : Option State :=
  match s.conn? die peer with
  | none => none
  | some c =>
    if c.dead || !s.outstanding die peer || peer == s.podNumber || s.ns < c.since + 1000000 then none
    else
      let s1 := (s.setDie die { s.die die with conns := Table.set (s.die die).conns peer { c with dead := true } Conn.absent }).bumpReg die 0x1C0028
      let ids := ((s.outbox.filter fun e => e.2.1 == peer).map fun e => e.1).eraseDups
      some ((ids.filterMap fun i => s.op? i).foldl (fun s o =>
        if o.loc.die != die then s
        else
          match o.cmd with
          | .fabric (.rstm _ _ _ _ _ _ _) => s.loseMember o.id peer
          | .fabric (.coll op _ data) =>
            let k := match o.stage with
              | .running n => n / 2
              | .held (x :: _) _ _ _ _ => x.x.1.toNat / 2
              | _ => 0
            s.collFail o 0x0C 0x75 0 (min k ((collOf op data).steps - 1))
          | _ => { s with outbox := s.outbox.filter fun e => e.1 != o.id }.finishOp o.id (.fail 0x0C 0x75 0 0 0)) s1)

end Sys2Proof.Machine
end

