-- ==== Sys2Proof/Machine/Replay.lean ====
section
/-! DEFINITION. What pages release (07_memory.md R153 to R157, R427): RESUME with and without REJECT, replay of the side
log, notices posted again, invalidation. -/

namespace Sys2Proof.Machine

/-- Whether a held operation waits for a page: the one its stage names, or that of one of its lanes. -/
def Op.waitsFor (o : Op) (vpn : Nat) : Bool :=
  match o.stage with
  | .held todo _ _ page _ =>
    page == vpn || (match o.cmd with
      | .access k _ _ _ => todo.any fun a => a.page k == vpn
      | _ => false)
  | .cores ws _ => ws.any fun w => w.page.any fun a => a / 2 ^ 16 == vpn
  | _ => false

/-- The one place an engine's held command waits at. -/
def heldAt (todo : List Acc) : Acc := todo.headD { lane := 0, addr := 0, x := (0, 0), y := 0 }

/-- The issuer of a session's accesses: its encoder's die. -/
def State.sessionWho (s : State) (o : Op) : Who :=
  encoderWho o (match s.opSession o.id with | some x => x.handle / 128 | none => o.loc.die)

/-- A command of an encoder leaves its session's queue once it is over. -/
def State.unqueueOver (s : State) (id : Nat) : State := if (s.op? id).any (fun (x : Op) => x.over) then s.unqueue id else s

/-- A held operation walks again (R155). -/
def State.resumeOp (s : State) (vpn : Nat) (o : Op) : State :=
  match o.stage with
  | .held todo got bad _ _ =>
    let a := heldAt todo
    match o.cmd with
    | .access k sp esz _ =>
      s.performLanes o o.who k sp esz (todo.filter fun a => a.page k == vpn) got bad (todo.filter fun a => a.page k != vpn)
    | .pbwait cur ph sp b => s.performPbwait o o.who cur ph sp b
    | .jcwait sp b => s.performJcwait o o.who sp b
    | .launchg r q => s.performLaunchg o o.who r q
    | .grammar (.grvrd _ sp dst n k) => s.copyGrvrd o (o.who.as 3) sp dst n k a.x.1.toNat
    | .grammar _ => s.performGrammar o
    | .copy c => s.resumeCopy o c a
    | .fabric (.coll _ _ data) =>
      if data.isEmpty then s.performColl o
      else (s.updOp o.id fun o => { o with stage := .running a.x.1.toNat }).collSettle o.id
    | .fabric c => s.startFabric o o.who c
    | .vcfg _ _ => (s.performEncoder o).unqueueOver o.id
    | .venc _ _ bsp _ _ _ _ bar =>
      (if a.lane == 1 || a.lane == 2 then s.resumeArrive o (s.sessionWho o) bsp bar a else s.performEncoder o).unqueueOver o.id
    | _ => s
  | .cores _ _ => match o.cmd with | .matrix _ seq m => s.resumeMatrix o vpn seq m | _ => s
  | _ => s

/-- A held operation whose page was rejected fails with access violation (R155). -/
def State.rejectOp (s : State) (vpn : Nat) (o : Op) : State :=
  match o.stage with
  | .held todo got bad _ _ =>
    let a := heldAt todo
    let fail := fun (s : State) (d : Nat) (addr aux : W64) => s.finishOp o.id (.fail 5 d 0 addr aux)
    match o.cmd with
    | .access k _ _ _ =>
      let hit := todo.filter fun a => a.page k == vpn
      let g : Gather := hit.foldl (fun g a => g.fail a.lane 5 (if k == .srd then 5 else 0) (if k == .srd then a.x.1 else BitVec.ofNat 64 a.addr))
        { s := s, got := got, bad := bad, todo := [] }
      s.performLanes o o.who k 0 1 [] got g.bad (todo.filter fun a => a.page k != vpn)
    | .pbwait _ _ _ b => fail s 0 b 0
    | .jcwait _ b => fail s 0 b 0
    | .launchg r _ => fail s 5 r 0
    | .grammar c =>
      let s1 := match c with
        | .mv _ _ _ _ _ _ _ _ _ => s.scrambleFile o.loc
        | .bind _ _ _ => s.unbind o
        | _ => s
      fail s1 5 (BitVec.ofNat 64 a.addr) (match c with | .grvrd _ _ _ _ _ => 0 | _ => a.x.1)
    | .copy c => s.rejectCopy o c a
    | .fabric (.coll _ _ _) => s.collFail o 5 5 a.addr (a.x.1.toNat / 2)
    | .fabric _ => fail s 5 (BitVec.ofNat 64 a.addr) 0
    | .vcfg _ _ => (fail s 5 (BitVec.ofNat 64 a.addr) 0).unqueue o.id
    | .venc _ arr bsp _ _ _ _ bar =>
      let w := s.sessionWho o
      let s1 := if a.lane == 1 then fail s 5 (BitVec.ofNat 64 a.addr) 0
        else if a.lane == 2 then s.finishOp o.id (.phasePoison a.x.1.toNat)
        else s.endVenc o w arr bsp bar (.error (.fail 5 5 a.addr 0))
      s1.unqueueOver o.id
    | _ => s
  | .cores _ _ => match o.cmd with | .matrix _ seq m => s.rejectMatrix o vpn seq m | _ => s
  | _ => s

/-- The monitor waits held on a page: context, lanes, wait. -/
def State.heldMonitors (s : State) (vpn : Nat) : List (Nat × List Nat × Wait) :=
  s.ctxs.flatMap fun c =>
    if c.saved then []
    else
      ((c.allLanes.filterMap fun l => match (c.lane l).st with
        | .waiting (.monwait i sp a d e dl true pc) => if a / 2 ^ 16 == vpn && sp == 0 then some (Wait.monwait i sp a d e dl true pc) else none
        | _ => none).eraseDups).map fun w => (c.id, c.waitGroup w, w)

/-- What both kinds of RESUME do first: the page is named in RESUME's register, its notices are answered on both dies. -/
def State.answerPage (s : State) (die vpn : Nat) (reject : Bool) : State :=
  let s1 := s.setReg die 0x100010 (BitVec.ofNat 64 (vpn * 2 ^ 16 + 2 * bitOf reject))
  [0, 1].foldl (fun s d =>
    let x := s.die d
    if x.posted.isEmpty && x.unposted.isEmpty then s
    else s.setDie d { x with
      posted := x.posted.filter fun p => p.1 != vpn
      unposted := x.unposted.filter fun p => p.1 != vpn }) s1

/-- The fetches that a page holds are held no longer (R59, R155). -/
def State.freeFetches (s : State) (vpn : Nat) : State :=
  let mine := fun (x : Lane) => x.fetchHold.any fun h => h.2 == vpn
  { s with ctxs := updWhere s.ctxs (fun c => c.lanes.any mine) fun c =>
      { c with lanes := c.lanes.map fun x => if mine x then { x with fetchHold := none } else x } }

/-- RESUME (R152, R155): held accesses of the page walk again. -/
def State.resumePage (s : State) (die vpn : Nat) : State :=
  let s1 := (s.answerPage die vpn false).freeFetches vpn
  let s2 := (s1.ops.filter fun o => o.waitsFor vpn).foldl (fun s o => s.resumeOp vpn o) s1
  let s3 := (s2.heldMonitors vpn).foldl (fun s m => s.monStep m.1 m.2.1 m.2.2) s2
  { s3 with lates := s3.lates.map fun l => if l.holdPage == some vpn then { l with holdPage := none } else l }

/-- The virtual addresses a side-log entry names (R157). -/
def Act.addresses (a : Act) : List Nat :=
  match a with
  | .store 0 _ accs | .reduce _ 0 _ accs | .jcDec 0 accs => accs.map fun x => x.addr
  | .arrive _ _ 0 b _ _ _ => [b.toNat]
  | .pbinit _ 0 b _ _ => [b.toNat]
  | .spawn false rs _ _ => (rs.filter fun r => r.jc != 0).map fun r => r.jc
  | _ => []

/-- The pages a side-log entry names. -/
def Act.pages (a : Act) : List Nat := (a.addresses.map fun x => x / 2 ^ 16).eraseDups

/-- The lane and address of an entry's access to a page. -/
def Act.laneOn (a : Act) (vpn : Nat) : Nat × Nat :=
  match a with
  | .store _ _ accs | .reduce _ _ _ accs | .jcDec _ accs =>
    ((accs.find? fun x => x.addr / 2 ^ 16 == vpn).map fun x => (x.lane, x.addr)).getD (0, 0)
  | .spawn _ rs _ _ => ((rs.find? fun r => r.jc / 2 ^ 16 == vpn).map fun r => (r.lane, r.jc)).getD (0, 0)
  | x => (0, (x.addresses).headD 0)

/-- The issuer of a side-log entry. -/
def State.logWho (s : State) (l : Loc) (e : LogEntry) : Who :=
  match s.ctx? e.ctx with
  | some c => whoOf c
  | none =>
    { launch := e.launch, gang := ((s.block? e.block).map fun b => b.gang).getD e.block, block := e.block, ctx := e.ctx, kind := .lane
      loc := l, die := l.die, master := 8 * l.die + l.cluster, source := 0, peer := 0 }

/-- Remove a side-log entry. -/
def State.dropLog (s : State) (l : Loc) (e : LogEntry) : State :=
  let k := s.core l
  s.setCore l { k with log := k.log.erase e }

/-- An entry whose page was rejected (R157): its block is killed; a join-counter decrement is R281's failure. -/
def State.rejectEntry (s : State) (l : Loc) (e : LogEntry) (vpn : Nat) : State :=
  let w := s.logWho l e
  let (lane, addr) := e.act.laneOn vpn
  match e.act with
  | .jcDec sp _ => (s.dropLog l e).jcFailure w e.pc lane 5 sp (BitVec.ofNat 64 addr)
  | _ => (s.lateFail w e.pc lane 5 (BitVec.ofNat 64 addr)).dropLog l e

/-- The places and entries of the side logs that name a page. -/
def State.logOn (s : State) (vpn : Nat) : List (Loc × LogEntry) :=
  s.cores.flatMap fun p => (p.2.log.filter fun e => e.act.pages.contains vpn).map fun e => (locOf p.1, e)

/-- The groups held at a fetch from a page: context, lanes, PC, first address of the run on the page (R59). A group with a deferred
trap is none of them: it takes that trap first (17_system.md R426). -/
def State.heldFetches (s : State) (vpn : Nat) : List (Nat × List Nat × W64 × Nat) :=
  s.ctxs.flatMap fun c =>
    if c.saved || c.ended then []
    else
      let ls := c.allLanes.filter c.canRun
      (c.leaders ls).filterMap fun l =>
        let g := c.groupAt ls (c.lane l).pc
        if (g.any fun i => (c.lane i).heldAt == some vpn) && !(g.any fun i => (c.lane i).deferred.isSome) then
          some (c.id, g, (c.lane l).pc, max (c.lane l).pc.toNat (vpn * 2 ^ 16))
        else none

/-- A held fetch whose page was rejected fails (R59): its run takes the access-violation trap. A group that is suspended by
then (R352), another group of its warp having trapped, takes it when it goes on. -/
def State.failFetch (s : State) (f : Nat × List Nat × W64 × Nat) : State :=
  let va := BitVec.ofNat 64 f.2.2.2
  match s.ctx? f.1 with
  | none => s
  | some c =>
    if c.ended then s
    else if f.2.1.any c.suspended then
      s.updCtx c.id fun c => c.updLanes f.2.1 fun _ x =>
        { x with deferred := some { cause := cAccess, detail := 0, psn := false, token := 0, taddr := va, tepc := f.2.2.1, tval := va, trec := 0xFFFF } }
    else s.trapTo c.id { cause := cAccess, detail := 0, psn := false, token := 0, lanes := f.2.1, fault := f.2.1
                         taddr := va, tepc := f.2.2.1, tval := va, trec := 0xFFFF }

/-- RESUME with REJECT (R155, R157, R59, R203). -/
def State.rejectPage (s : State) (die vpn : Nat) : State :=
  let fetches := s.heldFetches vpn
  let s1 := (s.answerPage die vpn true).freeFetches vpn
  let s2 := (s1.ops.filter fun o => o.waitsFor vpn).foldl (fun s o => s.rejectOp vpn o) s1
  let s3 := (s2.heldMonitors vpn).foldl (fun s m => match m.2.2 with
    | .monwait _ _ a _ _ _ _ pc => s.monTrap m.1 m.2.1 5 pc (BitVec.ofNat 64 a)
    | _ => s) s2
  let s4 := (s3.lates.filter fun l => l.holdPage == some vpn).foldl (fun (s : State) l =>
    { s with lates := s.lates.erase l }.lateFail l.who l.pc 0 5 l.base) s3
  let s5 := (s4.logOn vpn).foldl (fun s p => if (s.core p.1).log.contains p.2 then s.rejectEntry p.1 p.2 vpn else s) s4
  (fetches.foldl State.failFetch s5).sweep

/-- Perform a side-log entry whose pages are present (R157). -/
def State.replayEntry (s : State) (l : Loc) (e : LogEntry) : State :=
  let w := s.logWho l e
  match e.act with
  | .store sp esz accs => (s.writeLanes w none sp esz e.pc accs).1
  | .reduce op sp esz accs => (s.writeLanes w (some op) sp esz e.pc accs).1
  | .jcDec sp accs => accs.foldl (fun s a => s.jcDecrement w e.pc sp a) s
  | .arrive opc k sp b n x p => (s.arriveAt w ⟨opc, k, e.pc⟩ (relOf e.code) (some w.ctx) sp b n x p).1
  | .pbinit sc sp b arr n => (s.initAt w e.pc sc sp b arr n).1
  | .spawn jm rs _ _ => (s.spawnAdds w e.pc jm rs).1
  | _ => s

/-- SIDE_LOG_REPLAY (R156, R157): the first entry of a warp, while none of its pages has a notice that waits and no
earlier access of the warp is held or waits for its preconditions. Pages found absent have their notices posted, and the entry stays whole. -/
def State.replay (s : State) (cid : Nat) : Option State :=
  match s.ctx? cid with
  | none => none
  | some c =>
    match s.logOf c with
    | [] => none
    | (at', e) :: _ =>
      let die := c.loc.die
      let w := s.logWho at' e
      let gone := e.act.addresses.filter fun a => (s.tlbHit die w.units a).isNone && (match s.walk die a with | .absent => true | _ => false)
      if c.preempted || s.holdsAccess c || s.gatedBefore c.id e.seq || e.act.pages.any (fun v => (s.die die).posted.contains (v, 2)) then none
      else if !gone.isEmpty && (s.reg die 0x100000).getLsbD 0 then some (gone.foldl (fun s a => s.postNotice w a 2) s)
      else some (((s.dropLog at' e).replayEntry at' e).sweep)

/-- NOTICE_REPOST (R155): the first notice that waits for room in a die's ring. -/
def State.repost (s : State) (die : Nat) : Option State :=
  match (s.die die).unposted with
  | [] => none
  | (vpn, kind, w1) :: rest =>
    if s.noticeRoom die then
      some ((s.setDie die { s.die die with unposted := rest }).pushNotice die (BitVec.ofNat 64 (vpn * 2 ^ 16 + kind)) w1)
    else none

/-- INVAL of a page (R153): the leaves that map it leave the die's TLBs; a large page's leaf matches by its 64 MiB. -/
def State.invalPage (s : State) (die vpn : Nat) : State :=
  let x := s.die die
  (s.setReg die 0x100008 (BitVec.ofNat 64 (vpn * 2 ^ 16))).setDie die
    { x with tlb := x.tlb.filter fun t => !(t.page == (if t.large then vpn / 1024 else vpn)) }

/-- INVAL of every entry (R153); VPN keeps what was written (R152). -/
def State.invalAll (s : State) (die : Nat) : State :=
  (s.setReg die 0x100008 ((s.reg die 0x100008 &&& 0xFFFFFFFFFF0000) ||| 2)).setDie die { s.die die with tlb := [] }

end Sys2Proof.Machine
end

