-- ==== Sys2Proof/Machine/Hearth.lean ====
section
/-! DEFINITION. The Hearth (18_launch.md R377 to R393): launch queues and records, refusals, admission in rank order,
pre-emption, completion records and chimneys, cancels, residency keys. -/

namespace Sys2Proof.Machine

/-! Records. -/

/-- The fields of a launch record from its 256 bytes (Table 18.2). -/
def recordOf (bs : List Byte) : Rec :=
  let w := fun (o : Nat) => leNat ((bs.drop o).take 8)
  let a := fun (o : Nat) => w o % 2 ^ 56
  { tag := BitVec.ofNat 64 (w 0), vregs := w 8 / 2 ^ 56, lane := a 8, trapOff := w 0x10 / 2 ^ 32, seqOff := w 0x10 % 2 ^ 32
    priority := w 0x18 / 2 ^ 56, spawn := a 0x18, chimney := nbits (w 0x20) 63 60, width := nbits (w 0x20) 59 58
    warps := nbits (w 0x20) 57 53, blocks := nbits (w 0x20) 52 48, gx := w 0x20 % 2 ^ 16, gy := nbits (w 0x20) 31 16
    gz := nbits (w 0x20) 47 32, ctxSlots := w 0x28 / 2 ^ 48, spillN := nbits (w 0x28) 47 32, quota := nbits (w 0x28) 28 16
    idemp := (w 0x28).testBit 15, energy := nbits (w 0x28) 14 12, progress := nbits (w 0x28) 11 10, spKib := nbits (w 0x28) 9 0
    deadline := w 0x30, key := w 0x38 / 2 ^ 32, blockNs := w 0x38 % 2 ^ 32
    regions := (List.range 4).map fun i =>
      let r := leNat ((bs.drop (0x40 + 4 * i)).take 4)
      (nbits r 25 16, nbits r 9 0)
    reserve := nbits (w 0x50) 61 56, poison := a 0x50, cs := (w 0x58).testBit 57, ts := (w 0x58).testBit 56, stamp := a 0x58
    result := a 0x60, spill := a 0x68, context := a 0x70, events := (List.range 8).map fun i => nbits (w 0x78) (8 * i + 7) (8 * i)
    args := (List.range 16).map fun i => BitVec.ofNat 64 (w (0x80 + 8 * i)) }

/-- Whether every reserved field of a record is zero (Table 18.2). -/
def recordReserved (bs : List Byte) : Bool :=
  let w := fun (o : Nat) => leNat ((bs.drop o).take 8)
  nbits (w 0x28) 31 29 == 0
    && ((List.range 4).all fun i =>
      let r := leNat ((bs.drop (0x40 + 4 * i)).take 4)
      nbits r 31 26 == 0 && nbits r 15 10 == 0)
    && nbits (w 0x50) 63 62 == 0 && nbits (w 0x58) 63 58 == 0 && nbits (w 0x60) 63 56 == 0 && nbits (w 0x68) 63 56 == 0
    && nbits (w 0x70) 63 56 == 0

/-- Whether the fields of a record lie in their ranges; the alignments the table gives are taken as ranges (log entry
31). -/
def Rec.ranged (r : Rec) : Bool :=
  r.vregs % 8 == 0 && 8 ≤ r.vregs && r.vregs ≤ 160 && r.width ≤ 2 && 1 ≤ r.warps && r.warps ≤ 16 && 1 ≤ r.blocks && r.blocks ≤ 24
    && 1 ≤ r.gx && 1 ≤ r.gy && 1 ≤ r.gz && r.quota ≤ 4096 && r.progress ≤ 2 && r.spKib ≤ 512 && r.reserve ≤ 47
    && r.poison % 32 == 0 && r.stamp % 64 == 0 && r.result % 64 == 0

/-- Whether the regions of a record keep the rules of R48 and R380. -/
def Rec.regionsOk (r : Rec) : Bool :=
  let used := r.regions.filter fun q => q.1 != 0
  (used.isEmpty || r.key != 0) && (used.all fun q => q.2 + q.1 ≤ r.spKib)
    && ((List.range used.length).all fun i => (List.range i).all fun j =>
      let x := used.getD i (0, 0)
      let y := used.getD j (0, 0)
      x.2 + x.1 ≤ y.2 || y.2 + y.1 ≤ x.2)

/-- Blocks of a launch that an empty core holds (R8, R223). -/
def Rec.perCore (r : Rec) : Nat :=
  let n := min (48 / r.warps) (524288 / (r.warps * r.warpBytes))
  let m := if r.spKib == 0 then n else min n (512 / r.spKib)
  if r.hasSeq then min 1 m else m

/-- Gangs of a launch that an empty cluster holds (R7, R9). -/
def Rec.perCluster (r : Rec) : Nat :=
  let n := 24 * r.perCore / r.blocks
  if r.hasSeq then min 4 n else n

/-- R380: whether a record is refused. -/
def State.refuses (s : State) (bs : List Byte) : Bool :=
  let r := recordOf bs
  !(recordReserved bs && r.ranged && r.regionsOk)
    || 524288 < r.warps * r.warpBytes || 48 < r.warps + r.reserve
    || r.lane % 32 != 0 || r.spawn % 8 != 0 || r.poison == 0 || r.trapOff % 32 != 0 || r.seqOff % 32 != 0
    || (r.quota != 0 && (r.spill == 0 || r.context == 0)) || (r.cs && r.result == 0) || (r.ts && r.stamp == 0)
    || (r.progress == 0 && decide (s.clusterKeys.length * r.perCluster < r.gangs))

/-- A launch as it is copied. -/
def launchOf (id queue now : Nat) (r : Rec) (status : Nat) : Launch :=
  { id := id, record := r, queue := queue, order := id, started := false, start := now, nextGang := 0, relaunchQ := []
    firstKill := none, kills := 0, poisonedEnd := 0, preempts := 0, pre := false, rev := false, resLost := false, relaunch := false
    psn := false, killed := false, status := status, dying := status != 0, held := false, finish := 0, share := [8, 8], breaks := []
    spillHead := [], spillTail := [], voided := [] }

/-! Chimneys (R392). -/

/-- Offset of a chimney's register. -/
def cReg (c i : Nat) : Nat := 0x140800 + 0x40 * c + 8 * i
/-- SIZE of a chimney. -/
def State.cSize (s : State) (c : Nat) : Nat := bits (s.reg 0 (cReg c 1)) 15 0
/-- TAIL of a chimney. -/
def State.cTail (s : State) (c : Nat) : Nat := bits (s.reg 0 (cReg c 3)) 15 0
/-- The chimney that takes a launch's record: the named one if it is enabled, else chimney 0. -/
def State.chimneyOf (s : State) (l : Launch) : Nat := if 2 ≤ s.cSize l.record.chimney then l.record.chimney else 0
/-- Whether a chimney has room. -/
def State.cRoom (s : State) (c : Nat) : Bool :=
  decide (2 ≤ s.cSize c) && (s.cTail c + 1) % s.cSize c != bits (s.reg 0 (cReg c 2)) 15 0

/-- No record that waits for its interrupt. -/
def Chimney.idle : Chimney := { fresh := 0, oldest := 0 }
/-- The records of a chimney that wait for their interrupt. -/
def State.chimney (s : State) (c : Nat) : Chimney := Table.get s.chimneys c Chimney.idle

/-- Raise a chimney's interrupt. -/
def State.raiseChimney (s : State) (c : Nat) : State :=
  let r := s.reg 0 (cReg c 5)
  { s.setReg 0 (cReg c 5) (r ||| 0x200000000) with
    irqs := s.irqs ++ [(2 ^ 18 + c, r &&& 0xFFFFFFFF)], chimneys := Table.set s.chimneys c Chimney.idle Chimney.idle }

/-- Whether a chimney's count trigger holds. -/
def State.countDue (s : State) (c : Nat) : Bool :=
  let n := bits (s.reg 0 (cReg c 4)) 15 0
  (s.reg 0 (cReg c 5)).getLsbD 32 && n != 0 && decide (n ≤ (s.chimney c).fresh)

/-- Whether a chimney's time trigger holds. -/
def State.timeDue (s : State) (c : Nat) : Bool :=
  let t := bits (s.reg 0 (cReg c 4)) 47 16
  (s.reg 0 (cReg c 5)).getLsbD 32 && t != 0 && (s.chimney c).fresh != 0 && decide ((s.chimney c).oldest + t ≤ s.ns)

/-- The 32 bytes of a completion record (Table 18.3). -/
def Launch.completion (l : Launch) (now : Nat) : List Byte :=
  let refused := l.status == 2 || !l.started
  let fin := if l.status == 2 then l.start else now
  let start := if refused then (if l.status == 2 then l.start else now) else l.start
  leBytes 8 l.record.tag.toNat ++ leBytes 8 (l.status * 2 ^ 56 + start % 2 ^ 56)
    ++ leBytes 8 (((l.firstKill.map fun k => k.cause).getD 0) * 2 ^ 56 + fin % 2 ^ 56)
    ++ leBytes 8 (bitOf l.pre * 2 ^ 62 + bitOf l.rev * 2 ^ 61 + bitOf l.resLost * 2 ^ 60 + bitOf l.relaunch * 2 ^ 59
        + bitOf (l.record.deadline != 0 && decide (l.record.deadline < fin)) * 2 ^ 58 + bitOf l.psn * 2 ^ 57 + bitOf l.killed * 2 ^ 56
        + l.record.result)

/-- Write a launch's completion record into a chimney that has room; the launch is complete. -/
def State.writeCompletion (s : State) (l : Launch) (c : Nat) : State :=
  let base := bits (s.reg 0 (cReg c 0)) 51 5 * 32
  let tail := s.cTail c
  let s1 := (s.wr (base + 32 * tail) (l.completion s.ns)).setReg 0 (cReg c 3) (BitVec.ofNat 64 ((tail + 1) % s.cSize c))
  let x := s1.chimney c
  let y : Chimney := { fresh := x.fresh + 1, oldest := if x.fresh == 0 then s1.ns else x.oldest }
  let s2 : State := { s1 with
    chimneys := Table.set s1.chimneys c y Chimney.idle
    launches := s1.launches.filter fun x => x.id != l.id
    heldRecs := s1.heldRecs.filter fun i => i != l.id }
  if s2.countDue c then s2.raiseChimney c else s2

/-- Release the regions of keys that await it and that no active launch has (R385). -/
def State.releaseKeys (s : State) : State :=
  let go := s.freeKeys.filter fun k => !s.launches.any fun l => l.record.key == k && l.status != 2
  if go.isEmpty then s
  else { s with
    freeKeys := s.freeKeys.filter fun k => !go.contains k
    cores := s.cores.map fun (p : Nat × Core) => (p.1, { p.2 with regions := p.2.regions.filter fun x => !go.contains x.key }) }

/-- Deliver a completion (R392): written, or held and counted. -/
def State.deliver (s : State) (lid : Nat) : State :=
  match s.launch? lid with
  | none => s
  | some l =>
    let c := s.chimneyOf l
    if s.cRoom c && !(s.heldRecs.any fun i => (s.launch? i).any fun x => s.chimneyOf x == c) then (s.writeCompletion l c).releaseKeys
    else
      { (s.bumpReg 0 (cReg c 6)).updLaunch lid fun l => { l with held := true } with heldRecs := s.heldRecs ++ [lid] }

/-- CHIMNEY_HELD_RELEASE: the first held completion that goes to a chimney, once it has room. -/
def State.heldRelease (s : State) (c : Nat) : Option State :=
  match s.heldRecs.findSome? fun i => match s.launch? i with
    | some l => if s.chimneyOf l == c then some l else none
    | none => none with
  | some l => if s.cRoom c then some (s.writeCompletion l c).releaseKeys else none
  | none => none

/-- CHIMNEY_TIME_TRIGGER. -/
def State.chimneyTime (s : State) (c : Nat) : Option State := if c < 16 && s.timeDue c then some (s.raiseChimney c) else none

/-! Queues. -/

/-- TAIL of a queue moves past the record written there (R377); a full queue or a fault keeps it. -/
def State.queueAppend (s : State) (q : Nat) : State :=
  let t := (s.qTail q + 1) % s.qSize q
  if (s.reg 0 (qReg q 1)).getLsbD 17 || s.qSize q ≤ t then s else s.setReg 0 (qReg q 3) (BitVec.ofNat 64 t)

/-- Where the record at a queue's TAIL stands. -/
def State.queueSlot (s : State) (q : Nat) : Nat := bits (s.reg 0 (qReg q 0)) 51 8 * 256 + 256 * s.qTail q

/-- QCTL_WRITE (R377). -/
def State.qctlWrite (s : State) (q : Nat) (value : W64) : State :=
  let s1 := if (s.reg 0 (qReg q 1)).getLsbD 16 then
      { (s.setReg 0 (qReg q 2) 0).setReg 0 (qReg q 3) 0 with copied := s.copied.filter fun p => p.1 != q }
    else s
  s1.setReg 0 (qReg q 1) (value &&& 0x7FFFF)

/-- Take a record into the machine: active, refused, or cancelled at once. -/
def State.takeRecord (s : State) (q : Nat) (bs : List Byte) (cancelled : Bool) : State :=
  let r := recordOf bs
  let id := s.nextId
  let refused := s.refuses bs
  let l := launchOf id q s.ns r (if refused then 2 else if cancelled then 5 else 0)
  let s1 : State := { s with nextId := id + 1, launches := s.launches ++ [l] }
  if refused || cancelled then s1.deliver id else s1

/-- LAUNCH_COPY (R378). -/
def State.launchCopy (s : State) (q : Nat) : Option State :=
  if 63 < q || !s.qEnabled q || s.qHead q == s.qTail q || 256 ≤ s.launches.length then none
  else
    let h := s.qHead q
    let s1 := s.setReg 0 (qReg q 2) (BitVec.ofNat 64 ((h + 1) % s.qSize q))
    if s.copied.contains (q, h) then some { s1 with copied := s.copied.filter fun p => p != (q, h) }
    else
      let r := s1.readFree (bits (s.reg 0 (qReg q 0)) 51 8 * 256 + 256 * h) 256
      some (r.1.takeRecord q r.2 false)

/-! Admission (R381 to R384). -/

/-- Whether a launch ranks before another among the gangs of R381. -/
def Launch.before (a b : Launch) : Bool :=
  let x := a.record
  let y := b.record
  let tie := decide (a.queue < b.queue) || (a.queue == b.queue && decide (a.order < b.order))
  let prio := decide (y.priority < x.priority) || (x.priority == y.priority && tie)
  if x.deadline != 0 && y.deadline != 0 then decide (x.deadline < y.deadline) || (x.deadline == y.deadline && prio)
  else if x.deadline != 0 then true
  else if y.deadline != 0 then false
  else prio

/-- Insert a launch by rank. -/
def insertRank (l : Launch) (ls : List Launch) : List Launch :=
  match ls with
  | [] => [l]
  | x :: r => if l.before x then l :: x :: r else x :: insertRank l r

/-- The launches in rank order. -/
def State.ranked (s : State) : List Launch := s.launches.foldl (fun ls l => insertRank l ls) []

/-- The blocks of a launch that a core has room for beside what it holds, as far as their number goes (R8, R223, R278). -/
def State.roomFor (s : State) (l : Launch) (c : Loc) : Nat :=
  let r := l.record
  let (n, bytes) := s.coreLoad c
  let m := min ((48 - s.reserveAt c r.reserve - n) / max r.warps 1) ((524288 - bytes) / max (r.warps * r.warpBytes) 1)
  let sp := 524288 - (s.takenAreas c fun _ => false).foldl (fun n p => n + p.2) 0
  let m1 := if r.spBytes == 0 then m else min m (sp / r.spBytes)
  if r.hasSeq then (if (s.core c).holder.isSome then 0 else min 1 m1) else m1

/-- Insert a core among others by falling room. -/
def insertRoom (c : Nat × Nat) (cs : List (Nat × Nat)) : List (Nat × Nat) :=
  match cs with
  | [] => [c]
  | x :: r => if x.2 < c.2 then c :: x :: r else x :: insertRoom c r

/-- The cores of some clusters, those with room for most blocks of a launch first: gangs of equal blocks on distinct cores fit
together whenever they can if each takes the cores with most room (R383). -/
def State.byRoom (s : State) (l : Launch) (cks : List Nat) : List Nat :=
  ((cks.flatMap fun ck => (List.range 24).map fun i => (25 * ck + i, s.roomFor l (locOf (25 * ck + i)))).foldl
    (fun cs c => insertRoom c cs) []).map Prod.fst

/-- Admit gangs of a launch one after the other, as far as they fit. -/
def State.admitGangs (s : State) (lid : Nat) (pref cks : List Nat) (fuel : Nat) : State :=
  match fuel with
  | 0 => s
  | n + 1 =>
    match s.launch? lid with
    | none => s
    | some l =>
      if !s.mayAdmit l then s
      else
        match s.findGang l l.nextGang pref cks with
        | some (ck, ps) => (s.startGang l l.nextGang ck ps).admitGangs lid pref cks n
        | none => s

/-- The clusters a concurrent launch waits for: as many as its grid needs, in the order of preference (log entry 32). -/
def Launch.needed (l : Launch) (cks : List Nat) : List Nat :=
  let n := max 1 l.record.perCluster
  cks.take ((l.record.gangs + n - 1) / n)

/-- Admit gangs of a concurrent launch one after the other, each onto the cores of its cluster with most room. -/
def State.admitPacked (s : State) (lid : Nat) (cks : List Nat) (fuel : Nat) : State :=
  match fuel with
  | 0 => s
  | n + 1 =>
    match s.launch? lid with
    | none => s
    | some l =>
      if !s.mayAdmit l then s
      else
        match s.findGang l l.nextGang (s.byRoom l cks) cks with
        | some (ck, ps) => (s.startGang l l.nextGang ck ps).admitPacked lid cks n
        | none => s

/-- The whole grid of a concurrent launch admitted (R383), where the preference puts it or, where that does not take it all,
packed; none if it does not fit. -/
def State.admitWhole (s : State) (l : Launch) (pref cks : List Nat) : Option State :=
  let whole := fun (s : State) => (s.launch? l.id).any fun x => x.nextGang == x.record.gangs
  let s1 := s.admitGangs l.id pref cks l.record.gangs
  if whole s1 then some s1
  else
    let s2 := s.admitPacked l.id cks l.record.gangs
    if whole s2 then some s2 else none

/-- Admit what fits of a launch, a concurrent one whole or not at all (R383): the state, and the clusters it holds back
from launches of lower rank (R381). -/
def State.admitLaunch (s : State) (l : Launch) (pref cks : List Nat) : State × List Nat :=
  if !s.mayAdmit l then (s, [])
  else if l.record.progress == 0 then
    match s.admitWhole l pref cks with
    | some s1 => (s1, [])
    | none => (s, l.needed cks)
  else (s.admitGangs l.id pref cks l.record.gangs, [])

/-- Steps 2 and 3 of R381. -/
def State.admitAll (s : State) (ls : List Launch) (pref cks : List Nat) : State :=
  match ls with
  | [] => s
  | l :: r =>
    let (s1, back) := s.admitLaunch l pref cks
    s1.admitAll r pref (cks.filter fun k => !back.contains k)

/-- Child warps and evicted warps of a cluster, as far as they fit (step 1 of R381). -/
def State.admitWarps (s : State) (ck : Nat) (pref : List Nat) : State :=
  let cs := (coreOrder ck pref).map coreKey
  let s1 := (s.ctxs.filter fun c => c.saved && !c.preempted && clusterKey c.loc == ck).foldl (fun s c =>
    (cs.findSome? fun k => s.restoreWarp c.id k).getD s) s
  (s1.cluster ck).formed.foldl (fun s _ => (cs.findSome? fun k => s.admitChild ck k).getD s) s1

/-! Pre-emption (R382). -/

/-- Bcap of R382. -/
def State.blocksHeld (s : State) (r : Rec) : Nat :=
  s.clusterKeys.foldl (fun n ck =>
    let cost := s.weight r.energy * r.warps
    let g := if cost == 0 then r.perCluster
      else min r.perCluster (max 1 (bits (s.reg 0 (0x140D00 + 8 * ck)) 31 0 / cost) / r.blocks)
    n + g * r.blocks) 0

/-- Whether a deadline launch is at risk (R382), apart from what fits now. -/
def State.atRisk (s : State) (l : Launch) : Bool :=
  let r := l.record
  let wait := (r.gangs - l.nextGang) * r.blocks
  let cap := s.blocksHeld r
  s.mayAdmit l && r.deadline != 0 && r.blockNs != 0 && wait != 0 && cap != 0
    && decide (r.deadline < s.ns + (wait + cap - 1) / cap * r.blockNs + 50000)

/-- Admit one gang of a launch to some clusters, or the whole grid of a concurrent one; none if it does not fit. -/
def State.admitOne (s : State) (l : Launch) (pref cks : List Nat) : Option State :=
  if l.record.progress == 0 then s.admitWhole l pref cks
  else (s.findGang l l.nextGang pref cks).map fun p => s.startGang l l.nextGang p.1 p.2

/-- Whether gang a is a victim before gang b: lower PRIORITY, then the more recently admitted. -/
def State.victimBefore (s : State) (a b : Gang) : Bool :=
  let p := fun (g : Gang) => ((s.launch? g.launch).map fun l => l.record.priority).getD 0
  decide (p a < p b) || (p a == p b && decide (b.order < a.order))

/-- Insert a victim. -/
def State.insertVictim (s : State) (g : Gang) (gs : List Gang) : List Gang :=
  match gs with
  | [] => [g]
  | x :: r => if s.victimBefore g x then g :: x :: r else x :: s.insertVictim g r

/-- Whether a gang belongs to a launch that has no deadline or a later one than another (R382). -/
def State.yields (s : State) (l : Launch) (g : Gang) : Bool :=
  g.launch != l.id
    && (s.launch? g.launch).any fun x => !x.dying && (x.record.deadline == 0 || decide (l.record.deadline < x.record.deadline))

/-- The gangs that may be pre-empted for a launch, in order. -/
def State.victims (s : State) (l : Launch) : List Gang :=
  (s.gangs.filter fun g => !g.saved && s.yields l g).foldl (fun gs g => s.insertVictim g gs) []

/-- The device without the gangs that may be pre-empted for a launch and without child warps, which belong to no gang (13_spawn.md
R280) and end by themselves. -/
def State.cleared (s : State) (l : Launch) : State :=
  let gone := (s.victims l).map fun g => g.id
  let out := (s.blocks.filter fun b => b.child || gone.contains b.gang).map fun b => b.id
  { s with
    blocks := s.blocks.filter fun b => !out.contains b.id
    ctxs := s.ctxs.filter fun c => !out.contains c.block && !(c.kind == .seq && gone.contains c.gang)
    cores := s.cores.map fun (p : Nat × Core) => (p.1, { p.2 with holder := p.2.holder.filter fun b => !out.contains b }) }

/-- Whether the room of a pre-empted gang is kept: a launch at risk for which it was pre-empted cannot be admitted yet, child warps
standing in its way (21_programs_grammar_spawn.md R419; log entry 47). -/
def State.roomKept (s : State) (g : Gang) : Bool :=
  let cks := s.clusterOrder []
  s.launches.any fun l => s.atRisk l && s.yields l g && (s.admitOne l [] cks).isNone && ((s.cleared l).admitOne l [] cks).isSome

/-- Restore pre-empted gangs as far as their cores are free, those of a concurrent launch together (R382, R383); one whose room is
kept for a launch at risk waits. -/
def State.restoreGangs (s : State) (ls : List Launch) : State :=
  ls.foldl (fun s l =>
    let gs := s.gangs.filter fun g => g.saved && g.launch == l.id && !s.roomKept g
    if l.record.progress == 0 then
      let s1 := gs.foldl (fun (o : Option State) g => match o with
        | some s => if s.gangReturns l g then some (s.loadGang l g) else none
        | none => none) (some s)
      s1.getD s
    else gs.foldl (fun s g => if s.gangReturns l g then s.loadGang l g else s) s) s

/-- Pre-empt one gang, or every gang of its concurrent launch; none if one cannot be saved or the save area lacks room. -/
def State.preempt (s : State) (g : Gang) : Option State :=
  let whole := (s.launch? g.launch).any fun l => l.record.progress == 0
  let gs := if whole then s.gangs.filter fun x => x.launch == g.launch && !x.saved else [g]
  gs.foldl (fun (o : Option State) x => match o with
    | some s => if s.savable x then (s.savePlace x).map fun a => s.saveGang x a else none
    | none => none) (some s)

/-- Pre-empt victims in order until a gang of a launch can be admitted, and admit it, after the warps of step 1 of R381 have had
the room that each frees. Where all are saved and child warps alone stand in its way, it waits for them to end
(21_programs_grammar_spawn.md R419); else none, and nothing is pre-empted. -/
def State.preemptFor (s : State) (l : Launch) (pref cks : List Nat) (gs : List Gang) : Option State :=
  match gs with
  | [] => if ((s.cleared l).admitOne l pref cks).isSome then some s else none
  | g :: r =>
    if (s.gang? g.id).any fun x => x.saved then s.preemptFor l pref cks r
    else
      match s.preempt g with
      | none => none
      | some s0 =>
        let s1 := s0.clusterKeys.foldl (fun s ck => s.admitWarps ck pref) s0
        match s1.admitOne l pref cks with
        | some s2 => some s2
        | none => s1.preemptFor l pref cks r

/-- DEADLINE_PREEMPTION for each launch at risk (R382), in rank order, on the clusters that no concurrent launch of higher rank
holds back (R381). -/
def State.preemptAll (s : State) (ls : List Launch) (pref cks : List Nat) : State :=
  match ls with
  | [] => s
  | x :: r =>
    let s1 := match s.launch? x.id with
      | some l => if s.atRisk l && (s.admitOne l pref cks).isNone then (s.preemptFor l pref cks (s.victims l)).getD s else s
      | none => s
    let back := match s1.launch? x.id with
      | some l => if s1.mayAdmit l && l.record.progress == 0 then l.needed cks else []
      | none => []
    s1.preemptAll r pref (cks.filter fun k => !back.contains k)

/-- What the Hearth admits and restores now (R277, R381, R383, R384), with a preference among cores for what it places. -/
def State.admitNow (s : State) (pref : List Nat) : State :=
  let s2 := s.clusterKeys.foldl (fun s ck => s.admitWarps ck pref) s
  let s3 := s2.restoreGangs s2.ranked
  s3.admitAll s3.ranked pref (s3.clusterOrder pref)

/-- HEARTH_EVALUATION (R381, R382): with a preference among cores for what it places. -/
def State.evaluate (s : State) (pref : List Nat) : State :=
  let s1 := s.sweep.admitNow pref
  s1.preemptAll s1.ranked pref (s1.clusterOrder pref)

/-- Whether the Hearth could now admit to a cluster a gang, a formed warp or a restoration (R276): whether it does when it looks
there first. -/
def State.admissible (s : State) (ck : Nat) : Bool :=
  (s.admitNow ((List.range 24).map fun i => 25 * ck + i)).ctxs.any fun c =>
    clusterKey c.loc == ck && !c.saved && !(s.ctx? c.id).any fun x => !x.saved

/-- IDLE_FLUSH (R276): an otherwise idle cluster forms warps of every bin. A lane in a debug halt is not runnable (R370). -/
def State.idleFlush (s : State) (ck : Nat) : Option State :=
  let runnable := s.ctxs.any fun c => c.kind != .seq && clusterKey c.loc == ck && !c.saved && !c.ended
    && c.allLanes.any fun l => (c.lane l).st == .runnable && !(c.lane l).halted
  let es := (s.cluster ck).spawnQ.filter fun e => e.eligible.isSome
  if runnable || es.isEmpty || s.admissible ck then none
  else
    some (((es.map fun e => (e.launch, e.entry)).eraseDups).foldl (fun s p =>
      s.flushBin ck p.1 p.2 (((s.launch? p.1).map fun l => l.record.lanes).getD 64) (es.length + 1)) s)

/-! Completion (R390, R391). -/

/-- Whether an operation keeps its launch from completing (R178, R390): a command does; a wait for a barrier or a join counter
does not once its context has ended. -/
def State.opHolds (s : State) (o : Op) : Bool :=
  match o.cmd, o.stage with
  | .pbwait _ _ _ _, .armed _ _ | .jcwait _ _, .armed _ _ => (s.ctx? o.ctx).any fun c => !c.ended
  | _, _ => true

/-- Whether everything of a launch has ended (R390). -/
def State.launchOver (s : State) (l : Launch) : Bool :=
  (l.dying || decide (l.record.gangs ≤ l.nextGang)) && l.relaunchQ.isEmpty && !l.held
    && !(s.blocks.any fun b => b.launch == l.id) && !(s.gangs.any fun g => g.launch == l.id)
    && !(s.ctxs.any fun c => c.launch == l.id && !c.ended)
    && !(s.clusters.any fun p => (p.2.spawnQ.any fun e => e.launch == l.id) || p.2.formed.any fun f => f.launch == l.id)
    && (s.clusterKeys.all fun ck => l.spilled ck == 0)
    && !(s.cores.any fun p => p.2.log.any fun e => e.launch == l.id)
    && !(s.ops.any fun o => o.launch == l.id && s.opHolds o)
    && !(s.lates.any fun x => x.launch == l.id && (x.outcome.isSome || s.ops.any fun o => o.id == x.op && s.opHolds o))
    && !(s.redFails.any fun r => r.launch == l.id)

/-- The fields of a result record that completion writes (R390). -/
def Launch.resultBytes (l : Launch) : List Byte :=
  let k := l.firstKill.getD { taddr := 0, cause := 0, lane := 0, loc := ⟨0, 0, 0⟩, faddr := 0 }
  leBytes 8 k.taddr.toNat
    ++ leBytes 4 (k.cause + 2 ^ 8 * k.lane + 2 ^ 14 * k.loc.core + 2 ^ 19 * k.loc.cluster + 2 ^ 23 * k.loc.die) ++ leBytes 4 l.kills
    ++ leBytes 4 l.poisonedEnd ++ leBytes 4 l.preempts ++ leBytes 8 k.faddr.toNat

/-- What is left of a launch goes: contexts that have ended, waits of ended contexts, unkeyed encoder sessions (16_encoder.md
R342), counter banks. -/
def State.forget (s : State) (l : Launch) : State :=
  let s1 := (s.clusterKeys.flatMap fun ck => (List.range 25).map fun i => locOf (25 * ck + i)).foldl (fun s c => s.latchBank l.id c) s
  let gone := (s1.ops.filter fun o => o.launch == l.id).map fun o => o.id
  { s1 with
    ctxs := s1.ctxs.filter fun c => c.launch != l.id
    ops := s1.ops.filter fun o => o.launch != l.id
    lates := s1.lates.filter fun x => x.launch != l.id
    sessions := s1.sessions.filter fun x => x.launch != l.id || x.key != 0
    clusters := s1.clusters.map fun (p : Nat × Cluster) => (p.1, { p.2 with
      claims := p.2.claims.filter fun i => !gone.contains i
      evictSince := Table.set p.2.evictSince l.id 0 0 }) }

/-- LAUNCH_COMPLETE. -/
def State.launchComplete (s : State) (lid : Nat) : Option State :=
  match s.launch? lid with
  | none => none
  | some l =>
    if !s.launchOver l then none
    else
      let s1 := s.forget l
      let s2 := if l.started && l.record.result != 0 then s1.hearthWrite l.record.result l.resultBytes else s1
      some (s2.deliver lid)

/-! Cancels and keys. -/

/-- The slots of a queue that hold records not copied, with their addresses. -/
def State.queued (s : State) (q : Nat) : List (Nat × Nat) :=
  if !s.qEnabled q then []
  else
    let size := s.qSize q
    let h := s.qHead q
    ((List.range ((s.qTail q + size - h) % size)).map fun i => (h + i) % size).filterMap fun k =>
      if s.copied.contains (q, k) then none else some (k, bits (s.reg 0 (qReg q 0)) 51 8 * 256 + 256 * k)

/-- HCANCEL (R393). -/
def State.cancel (s : State) (tag : W64) : State :=
  let s1 := (s.launches.filter fun l => l.record.tag == tag && l.status != 2).foldl (fun s l => s.killLaunch l.id 5 true) s
  let s2 := (List.range 64).foldl (fun s q =>
    (s.queued q).foldl (fun s p =>
      let (s0, bs) := s.readFree p.2 256
      if leNat (bs.take 8) == tag.toNat then
        { s0 with copied := s0.copied ++ [(q, p.1)] }.takeRecord q bs true
      else s0) s) s1
  s2.sweep

/-- HKEYFREE (R385). -/
def State.keyFree (s : State) (key : W32) : State :=
  if key == 0 then s else ({ s with freeKeys := s.freeKeys ++ [key.toNat] } : State).releaseKeys

end Sys2Proof.Machine
end

