-- ==== Sys2Proof/Machine/Bench.lean ====
section
/-! DEFINITION. Placing one instruction where the machine fetches next (log entry 12): a launch of one block with a warp, a
sequencer context or a producer slot as the instruction asks, its code on a page of its own, and a run open at its address. -/

namespace Sys2Proof.Machine

/-- A record of one block of one warp of 32 lanes with the largest register file. -/
def benchRec (seq : Bool) : Rec :=
  { tag := 1, vregs := 160, lane := 0x10000, trapOff := 0, seqOff := if seq then 0x20 else 0, priority := 0, spawn := 0
    chimney := 0, width := 1, warps := 1, blocks := 1, gx := 1, gy := 1, gz := 1, ctxSlots := 0, spillN := 0, quota := 0
    idemp := false, energy := 0, progress := 0, spKib := 512, deadline := 0, key := 0, blockNs := 0
    regions := [(0, 0), (0, 0), (0, 0), (0, 0)], reserve := 0, poison := 0x20000, cs := false, ts := false, stamp := 0
    result := 0, spill := 0, context := 0, events := List.replicate 8 0, args := List.replicate 16 0 }

/-- The kind of context that may execute an instruction. -/
def benchKind (k : Kind) (f : Fields) : CtxKind :=
  if contextOk .lane k f then .lane else if contextOk .seq k f then .seq else .slot

/-- Put the code of one instruction at a physical address and map it at a virtual one of die 0. -/
def State.placeCode (s : State) (bs : List Byte) : State :=
  let s1 := (s.setReg 0 0x100000 (s.reg 0 0x100000 ||| 1)).setReg 0 0x19FFF8 0
  let s2 := s1.setDie 0 { s1.die 0 with tlb := { unit := 24, page := 1, entryAddr := 0, entry := 0x10011, large := false } :: (s1.die 0).tlb }
  (s2.putBytes 0x10000 bs).heal 0x10000 bs.length

/-- A launch with its gang, block and a context of a kind, and a run of that context open at the code's address. -/
def State.openBench (s : State) (kind : CtxKind) : State :=
  let n := s.nextId
  let l : Launch := { launchOf n 0 s.ns (benchRec (kind == .seq)) 0 with started := true, nextGang := 1 }
  let loc : Loc := ⟨0, 0, if kind == .seq then 24 else 0⟩
  let b : Block := { id := n + 2, launch := n, gang := n + 1, index := 0, loc := ⟨0, 0, 0⟩, base := 0, size := 524288
                     succSlot := none, child := false, holds := kind == .seq, gen := 0, relaunched := false, killed := false
                     saved := none, cost := 0, slotCtx := if kind == .slot then some (n + 3) else none, stat := SlotStat.reset }
  let g : Gang := { id := n + 1, launch := n, linear := 0, die := 0, cluster := 0
                    seqCtx := if kind == .seq then some (n + 3) else none, order := n + 1, saved := false, image := 0 }
  let w := if kind == .seq then 1 else 32
  let c := Ctx.start (n + 3) kind l (n + 1) (if kind == .seq then 0 else n + 2) (if kind == .slot then 16 else 0) loc 0 w 0x10000
  let s1 : State := { s with
    launches := s.launches ++ [l], gangs := s.gangs ++ [g], blocks := s.blocks ++ [b], ctxs := s.ctxs ++ [c]
    nextId := n + 4
    run := some { ctx := n + 3, lanes := List.range w, first := 0x10000, pc := 0x10000, count := 0, e := [], held := [], effs := []
                  jumps := [], clash := [] } }
  s1.setCore ⟨0, 0, 0⟩ { s1.core ⟨0, 0, 0⟩ with holder := if kind == .seq then some (n + 2) else none }

/-- The state with one instruction's bytes placed for the next fetch. -/
def State.withCode (s : State) (bs : List Byte) : State :=
  let kind := match decode bs with
    | .ok i _ => (match i.view with | some (k, f) => benchKind k f | none => .lane)
    | _ => .lane
  (s.placeCode bs).openBench kind

end Sys2Proof.Machine
end

