-- ==== Sys2Proof/Machine/MemoryOps.lean ====
section
/-! DEFINITION. Class 0x5 (07_memory.md R131 to R145, R154, R162): loads, stores, prefetch, tile and accumulator
transfers, residency binding, translation query. -/

namespace Sys2Proof.Machine

/-- The space of a class 0x5 instruction (Table 7.3). -/
def Env.space5 (v : Env) : Nat := if v.isImm then nbits v.imm.toNat 25 24 else 0

/-- The byte offset of a class 0x5 instruction (R132, R22). -/
def Env.offset5 (v : Env) : W64 :=
  if v.isImm then (BitVec.ofNat 24 v.imm.toNat).signExtend 64 else (BitVec.ofNat 8 v.f.c.byte).signExtend 64

/-- The address of a lane (R132) for elements of a size. -/
def Env.addr5 (v : Env) (size l : Nat) : W64 :=
  v.rd64 v.f.a l + (v.rd32 v.f.b (v.at' l)).setWidth 64 * BitVec.ofNat 64 size + v.offset5

/-- An access of a lane without operands. -/
def Env.acc5 (v : Env) (size l : Nat) : Acc := { lane := l, addr := (v.addr5 size l).toNat, x := (0, 0), y := 0 }

/-- The lane in which the data of a store is read: its own for a v source, the lowest for an e source, which gives every lane
the same value (R139). -/
def Env.dataLane (v : Env) (l : Nat) : Nat := match v.f.d with | .e _ => v.low | _ => l

/-- The data of a store for a lane (R139). -/
def Env.data (v : Env) (size lane : Nat) : W64 × W64 :=
  let l := v.dataLane lane
  let hi := match v.f.d with
    | .v n => ((v.c.rdV (n.val + 2) l).setWidth 64 ||| ((v.c.rdV (n.val + 3) l).setWidth 64 <<< 32))
    | .s n => v.c.rdS (n.val + 1)
    | _ => 0
  (if size ≤ 4 then (v.rd32 v.f.d l).setWidth 64 else v.rd64 v.f.d l, if size == 16 then hi else 0)

/-- Element bytes of the instruction. -/
def Env.size5 (v : Env) : Nat := sizeBytes v.f.sub.val

/-- Whether a load's element is sign-extended (.i8, .i16). -/
def Env.signed5 (v : Env) : Bool := v.f.sub.val == 4 || v.f.sub.val == 5

/-- LD (R137). -/
def Env.load (v : Env) : Res :=
  v.produce (v.dst (sizeRegs v.f.sub.val) 1) (!v.takers.isEmpty)
    (.access (.load v.signed5) v.space5 v.size5 (v.takers.map (v.acc5 v.size5)))

/-- LDU (R138). -/
def Env.loadU (v : Env) : Res :=
  v.produce (v.dst 1 (if v.f.sub.val == 6 then 2 else 1)) v.lowG (.access (.load v.signed5) v.space5 v.size5 [v.acc5 v.size5 v.low])

/-- A store or reduction that checks its accesses before commit (R34, Table 7.5, Table 10.4). With no lane it accesses
nothing, but behind its warp's side log it enters the log as any other (R156, 20_programs_tile_atomics.md R411). -/
def Env.write (v : Env) (t : AccessType) (atomic : Bool) (space size : Nat) (accs : List Acc) (act : Act) : Res :=
  match v.s.preCheck v.who t atomic space size accs with
  | some (cause, bad) =>
    .trap (v.addrTrap cause (bad.map fun a => a.lane) (BitVec.ofNat 64 ((bad.head?.map fun a => a.addr).getD 0)))
  | none => .ok (Out.effect [act])

/-- ST and STU (R139) in the given lanes. -/
def Env.store (v : Env) (ls : List Nat) : Res :=
  let accs := ls.map fun l => { v.acc5 v.size5 l with x := v.data v.size5 l }
  v.write .write false v.space5 v.size5 accs (.store v.space5 v.size5 accs)

/-- PRF (R140). -/
def Env.prefetch (v : Env) : Res :=
  .ok (if v.takers.isEmpty then Out.nil else Out.effect [.prefetch (v.f.m.getLsbD 0) (v.takers.map (v.acc5 1))])

/-- XLAT (R154): lane by lane, or once for an s destination. -/
def Env.xlat (v : Env) : Res :=
  let ls := match v.f.d with
    | .s _ => if v.lowG then [v.low] else []
    | _ => v.takers
  v.produce (v.dst 2 1) (!ls.isEmpty) (.access .xlat 0 1 (ls.map (v.acc5 1)))

/-- Whether the context's block holds its core's matrix files (R143). -/
def Env.holdsFiles (v : Env) : Bool := (v.s.core v.c.loc).holder == some v.c.block

/-- An instruction on the matrix files, which only the holder may execute (R143). -/
def Env.withFiles (v : Env) (ls : List Nat) (o : Out) : Res :=
  if ls.isEmpty then .ok Out.nil
  else if !v.holdsFiles then .trap (v.plainTrap cAccess)
  else .ok o

/-- The words of a TWR or ACWR: index and value of each lane within the file (R144). A file is no s or e destination, so an e
source is read lane by lane (R27). -/
def Env.fileWords (v : Env) (words : Nat) : List (Nat × W32) :=
  let j0 := (v.uni v.f.b).toNat
  (v.parts.filter fun l => j0 + l < words).map fun l => (j0 + l, v.rd32 v.f.a l)

/-- A word of a window of the context's core. -/
def Env.fileWord (v : Env) (base words j : Nat) : W64 :=
  if j < words then BitVec.ofNat 64 (v.s.readN (mapBase v.c.loc.die v.c.loc.cluster v.c.loc.core + base + 4 * j) 4) else 0

/-- TRD and ACRD (R144): words of the file at `base`, as they stand at issue. -/
def Env.fileRead (v : Env) (base words : Nat) : Res :=
  let j0 := (v.uni v.f.b).toNat
  v.withFiles v.parts (v.put false v.parts fun l => v.fileWord base words (j0 + l))

/-- TSCL (R145); e sources are read lane by lane (R27). -/
def Env.scales (v : Env) : Res :=
  let row := fun l => (v.rd64 v.f.b l).toNat + l
  let kb := bitOf (v.f.m.getLsbD 2)
  let bsel := nbits v.m 1 0
  v.withFiles v.parts (Out.effect [.scaleWrite v.f.d.byte ((v.parts.filter fun l => row l < 32).map fun l =>
    (2 * row l + kb, BitVec.ofNat 8 ((v.rd32 v.f.a l).toNat / 2 ^ (8 * bsel))))])

/-- The residency regions of the core as the run's earlier RESBs leave them. -/
def Env.regionsSoFar (v : Env) : List Region :=
  v.r.effs.foldl (fun rs e => match e.act with | .resb un o n => (v.s.resb v.c un o n rs).2 | _ => rs) (v.s.core v.c.loc).regions

/-- RESB (R162). -/
def Env.bindRegion (v : Env) : Res :=
  let un := v.f.m.getLsbD 0
  let off := v.uni v.f.a
  let n := v.uni v.f.b
  .ok (if v.lowG then (v.status (BitVec.ofNat 64 (v.s.resb v.c un off n v.regionsSoFar).1)).also [.resb un off n] else Out.nil)

/-- LD (R137). -/
def execLd (f : Fields) (s : State) := execIsa .ld f Env.load s
/-- ST (R139). -/
def execSt (f : Fields) (s : State) := execIsa .st f (fun v => v.store v.takers) s
/-- LDU (R138). -/
def execLdu (f : Fields) (s : State) := execIsa .ldu f Env.loadU s
/-- STU (R139). -/
def execStu (f : Fields) (s : State) := execIsa .stu f (fun v => v.store (if v.lowG then [v.low] else [])) s
/-- PRF (R140). -/
def execPrf (f : Fields) (s : State) := execIsa .prf f Env.prefetch s
/-- TWR (R144). -/
def execTwr (f : Fields) (s : State) :=
  execIsa .twr f (fun v => v.withFiles v.parts (Out.effect [.tileWrite f.d.byte (v.fileWords 512)])) s
/-- TRD (R144). -/
def execTrd (f : Fields) (s : State) := execIsa .trd f (fun v => v.fileRead (0x400000 + 2048 * f.a.byte) 512) s
/-- TSCL (R145). -/
def execTscl (f : Fields) (s : State) := execIsa .tscl f Env.scales s
/-- ACRD (R144). -/
def execAcrd (f : Fields) (s : State) := execIsa .acrd f (fun v => v.fileRead (0x480000 + 4096 * f.a.byte) 1024) s
/-- ACWR (R144). -/
def execAcwr (f : Fields) (s : State) :=
  execIsa .acwr f (fun v => v.withFiles v.parts (Out.effect [.accWrite f.d.byte (v.fileWords 1024)])) s
/-- RESB (R162). -/
def execResb (f : Fields) (s : State) := execIsa .resb f Env.bindRegion s
/-- XLAT (R154). -/
def execXlat (f : Fields) (s : State) := execIsa .xlat f Env.xlat s

end Sys2Proof.Machine
end

