-- ==== Sys2Proof/Machine/Atomics.lean ====
section
/-! DEFINITION. Class 0x7 (10_atomics.md R206 to R219): atomics with return, compare and swap, reductions. -/

namespace Sys2Proof.Machine

/-- The element type code of X0 (Table 10.1). -/
def Env.ty7 (v : Env) : Nat := nbits v.x 7 5
/-- The space of X0. -/
def Env.space7 (v : Env) : Nat := nbits v.x 4 3

/-- A lane's access with its operand and, for CAS, its new value (R132, R210). -/
def Env.acc7 (v : Env) (size l : Nat) : Acc :=
  let i := v.at' l
  let addr := v.rd64 v.f.a l + (v.rd32 v.f.b i).setWidth 64 * BitVec.ofNat 64 size
    + (BitVec.ofNat 16 (nbits v.x 31 16)).signExtend 64
  { lane := l, addr := addr.toNat, x := (v.rd (size == 8) v.f.c i, 0), y := v.rd (size == 8) (Reg.ofByte (nbits v.x 15 8)) i }

/-- An atomic with return (R211, R212, R214) in the given lanes. -/
def Env.atomic (v : Env) (op : Rmw) (ls : List Nat) : Res :=
  let n := op.bytes
  v.produceRA 2 (v.dst (n / 4) 1) (!ls.isEmpty) (.access (.rmw op) v.space7 n (ls.map (v.acc7 n)))

/-- A reduction (R213); as for every atomic but ATOMU, the guard is tested lane by lane. -/
def Env.reduce (v : Env) (op : Rmw) : Res :=
  let accs := v.parts.map (v.acc7 op.bytes)
  v.write .rmw true v.space7 op.bytes accs (.reduce op v.space7 op.bytes accs)

/-- ATOM (R211). -/
def execAtom (f : Fields) (s : State) := execIsa .atom f (fun v => v.atomic (.int f.sub.val v.ty7) v.parts) s
/-- CAS (R212). -/
def execCas (f : Fields) (s : State) := execIsa .cas f (fun v => v.atomic (.cas v.ty7) v.parts) s
/-- RED (R213). -/
def execRed (f : Fields) (s : State) := execIsa .red f (fun v => v.reduce (.int f.sub.val v.ty7)) s
/-- FATOM (R214). -/
def execFatom (f : Fields) (s : State) := execIsa .fatom f (fun v => v.atomic (.flt f.sub.val v.ty7) v.parts) s
/-- FRED (R213). -/
def execFred (f : Fields) (s : State) := execIsa .fred f (fun v => v.reduce (.flt f.sub.val v.ty7)) s
/-- ATOMU (R211). -/
def execAtomu (f : Fields) (s : State) :=
  execIsa .atomu f (fun v => v.atomic (.int f.sub.val v.ty7) (if v.lowG then [v.low] else [])) s

end Sys2Proof.Machine
end

