-- ==== Sys2Proof/Machine/Control.lean ====
section
/-! DEFINITION. Class 0x0 (04_control.md R60 to R75): branches, calls, loops, rejoin masks, exit. -/

namespace Sys2Proof.Machine

/-- The targets that may not be taken, each with its cause: misaligned (R62, R17), or beyond 56 bits for an indirect
target. -/
def badTargets (indirect : Bool) (ts : List (Nat × W64)) : List (Nat × Nat × W64) :=
  ts.filterMap fun t =>
    if t.2.toNat % 4 != 0 then some (cMisaligned, t)
    else if indirect && t.2.toNat / 2 ^ 56 != 0 then some (cAccess, t)
    else none

/-- The distinct targets of a transfer with the lanes that take each (Table 17.10). -/
def targetMasks (ts : List (Nat × W64)) : List (W64 × W64) :=
  ((ts.map Prod.snd).eraseDups).map fun x => (maskOf ((ts.filter fun t => t.2 == x).map Prod.fst), x)

/-- Transfer lanes to targets with what else the instruction writes, or trap (R62). RET's trace record is that of every taken transfer
(log entry 105). -/
def Env.transfer (v : Env) (indirect : Bool) (ts : List (Nat × W64)) (o : Out) : Res :=
  match badTargets indirect ts with
  | b :: bs => .trap (v.addrTrap b.1 ((b :: bs).map fun x => x.2.1) b.2.2)
  | [] =>
    if ts.isEmpty then .ok o
    else .ok { o with jumps := o.jumps ++ ts, acts := o.acts ++ [.taken (targetMasks ts)] }

/-- The relative target (R62). The rule gives no trap for one outside 56 bits: the sum is the PC, and the next fetch is the
access violation (log entry 82). -/
def Env.relTarget (v : Env) : W64 := v.pc + v.imm.signExtend 64

/-- The link of a call (R65): the lanes that transfer write the address after it. -/
def Env.link (v : Env) (ls : List Nat) : Out := v.put true ls fun _ => v.next

/-- BRA, BRU and CALL (R63, R65). -/
def Env.branch (v : Env) (lanes : List Nat) (call : Bool) : Res :=
  v.transfer false (lanes.map fun l => (l, v.relTarget)) (if call then v.link lanes else Out.nil)

/-- BRX and CALLX (R64, R65). -/
def Env.branchX (v : Env) (call : Bool) : Res :=
  let ls := v.parts
  v.transfer true (ls.map fun l => (l, v.rd64 v.f.a l + (v.rd32 v.f.b l).setWidth 64)) (if call then v.link ls else Out.nil)

/-- LOOP (R66): a v counter is counted lane by lane, an s counter or zero once. -/
def Env.loop (v : Env) : Res :=
  match v.f.d with
  | .v n =>
    let ls := v.parts.filter fun l => v.c.rdV n.val l != 0
    v.transfer false ((ls.filter fun l => v.c.rdV n.val l != 1).map fun l => (l, v.relTarget))
      (Out.regs (ls.map fun l => Held.v n.val l (v.c.rdV n.val l - 1)))
  | .s n =>
    let x := v.c.rdS n.val
    if !v.lowG || x == 0 then .ok Out.nil
    else
      v.transfer false (if x == 1 then [] else v.r.lanes.map fun l => (l, v.relTarget))
        (Out.regs [Held.s n.val (x - 1)])
  | _ => .ok Out.nil

/-- The mask register D names. -/
def Env.maskNo (v : Env) : Fin 8 := Fin.ofNat 8 v.f.d.byte

/-- ENROL and STRIKE (R69), on the mask as it stood at run entry. -/
def Env.enrol (v : Env) (strike : Bool) : Res :=
  let n := v.maskNo.val
  let ls := v.parts
  if ls.isEmpty then .ok Out.nil
  else .ok (Out.regs [Held.m n (if strike then v.c.rdM n &&& ~~~(maskOf ls) else (v.c.rdM n ||| maskOf ls))])

/-- PARK (R70): the enrolled lanes whose guard is true. -/
def Env.park (v : Env) : Res :=
  let ls := v.parts.filter fun l => (v.c.rdM v.maskNo.val).getLsbD l
  .ok (if ls.isEmpty then Out.nil else Out.effect [.park v.maskNo ls])

/-- EXIT (R72). -/
def Env.exit (v : Env) : Res := .ok (if v.parts.isEmpty then Out.nil else Out.effect [.exit v.parts])

/-- EXIT.SUCC (R74): the entry must be at most 63 and valid. -/
def Env.exitSucc (v : Env) : Res :=
  if v.parts.isEmpty then .ok Out.nil
  else
    let e := (v.uni v.f.a).toNat
    if 63 < e || (v.s.spawnTarget v.who e).isNone then .trap (v.plainTrap cSpawnEntry)
    else .ok (Out.effect [.succ e (v.uni v.f.b), .exit v.parts])

/-- NOP (R67). -/
def execNop (f : Fields) (s : State) := execIsa .nop f (fun _ => .ok Out.nil) s
/-- BRA (R63). -/
def execBra (f : Fields) (s : State) := execIsa .bra f (fun v => v.branch v.parts false) s
/-- BRU (R63, R61). -/
def execBru (f : Fields) (s : State) := execIsa .bru f (fun v => v.branch (if v.lowG then v.r.lanes else []) false) s
/-- BRX (R64). -/
def execBrx (f : Fields) (s : State) := execIsa .brx f (fun v => v.branchX false) s
/-- CALL (R65). -/
def execCall (f : Fields) (s : State) := execIsa .call f (fun v => v.branch v.parts true) s
/-- CALLX (R65). -/
def execCallx (f : Fields) (s : State) := execIsa .callx f (fun v => v.branchX true) s
/-- RET (R64). -/
def execRet (f : Fields) (s : State) :=
  execIsa .ret f (fun v => v.transfer true (v.parts.map fun l => (l, v.rd64 v.f.a l)) Out.nil) s
/-- LOOP (R66). -/
def execLoopL (f : Fields) (s : State) := execIsa .loopL f Env.loop s
/-- ENROL (R69). -/
def execEnrol (f : Fields) (s : State) := execIsa .enrol f (fun v => v.enrol false) s
/-- PARK (R70). -/
def execPark (f : Fields) (s : State) := execIsa .park f Env.park s
/-- STRIKE (R69). -/
def execStrike (f : Fields) (s : State) := execIsa .strike f (fun v => v.enrol true) s
/-- EXIT (R72). -/
def execExitL (f : Fields) (s : State) := execIsa .exitL f Env.exit s
/-- EXIT.SUCC (R74). -/
def execExitSucc (f : Fields) (s : State) := execTable .exitSucc f Env.exitSucc s
/-- YIELD (R67). -/
def execYield (f : Fields) (s : State) :=
  execIsa .yield f (fun v => .ok (if v.parts.isEmpty then Out.nil else Out.effect [.yieldWarp])) s

end Sys2Proof.Machine
end

