-- ==== Sys2Proof/Machine/CopyOps.lean ====
section
/-! DEFINITION. Class 0xB as a warp issues it (14_copy_streams.md R293 to R311): copies, rings, the producer slot, the
bit reader, the compacting emitter, prefix decoding. -/

namespace Sys2Proof.Machine

/-- The s register n places after C's. -/
def Env.shapeReg (v : Env) (i : Nat) : W64 := match v.f.c with | .s n => v.c.rdS (n.val + i) | _ => 0

/-- The default of a space field where X0 is absent. -/
def Env.spaceX (v : Env) (hi lo dflt : Nat) : Nat := if v.f.ext.x0?.isSome then nbits v.x hi lo else dflt

/-- The command of a CPY (R294), its fields read by shape. -/
def Env.copyCmd (v : Env) (ring : Bool) : CCmd :=
  let dst := (v.uni v.f.a).toNat
  let src := (v.uni v.f.b).toNat
  let dsp := v.spaceX 4 3 0
  let ssp := v.spaceX 6 5 0
  match v.f.sub.val with
  | 0 =>
    let n := (v.uni v.f.c).toNat
    .cpy ring dsp ssp dst src n 1 1 0 0 0 0 (decide (2 ^ 40 < n))
  | k =>
    let r0 := v.shapeReg 0
    let r1 := v.shapeReg 1
    if k == 1 then .cpy ring dsp ssp dst src (bits r0 31 0) (bits r0 63 32) 1 (bits r1 31 0) (bits r1 63 32) 0 0 false
    else
      let r2 := v.shapeReg 2
      let r3 := v.shapeReg 3
      .cpy ring dsp ssp dst src (bits r0 31 0) (bits r0 63 32) (bits r2 31 0) (bits r1 31 0) (bits r1 63 32) (bits r3 31 0)
        (bits r3 63 32) (bits r2 63 32 != 0)

/-- The command of a CPYG (R296). -/
def Env.gatherCmd (v : Env) (scatter : Bool) : CCmd :=
  let ix := v.shapeReg 1
  let e := bits ix 47 32
  .cpyg scatter (v.spaceX 4 3 0) (v.spaceX 6 5 0) (v.spaceX 8 7 0) (v.uni v.f.a).toNat (v.uni v.f.b).toNat
    (v.shapeReg 0).toNat (bits ix 31 0) e (ix.getLsbD 48) (bits ix 63 49 != 0 || e == 0 || 4096 < e)

/-- Dispatch a copy-engine command. -/
def Env.copy (v : Env) (c : CCmd) : Res := v.produceRA 2 .none v.lowG (.copy c)

/-- RINIT (R300): the descriptor's place and its own fields are checked before commit. -/
def Env.rinit (v : Env) : Res :=
  let sp := nbits v.m 1 0
  let base := v.uni v.f.a
  let off := v.uni v.f.b
  let cfg := v.uni v.f.c
  if !v.lowG then .ok Out.nil
  else
    match v.s.preCheck v.who .rmw false sp 64 [{ lane := v.low, addr := base.toNat, x := (0, 0), y := 0 }] with
    | some (cause, _) => .trap (v.addrTrap cause [v.low] base)
    | none =>
      match (v.s.ringAt v.who sp base).2 with
      | .error (c, _) => .trap (v.addrTrap c [v.low] base)
      | .ok pa =>
        let r := ringOf pa off cfg
        if bits cfg 31 24 != 0 || bits cfg 63 41 != 0 || v.s.ringMalformed v.who r then .trap (v.plainTrap cIllegalOperand)
        else .ok (Out.effect [.rinit sp base off cfg])

/-- The space of a ring operation: X0[4:3], .LOC without X0 (R293). -/
def Env.ringSpace (v : Env) : Nat := v.spaceX 4 3 1

/-- RACQ (R301). -/
def Env.racq (v : Env) (cons : Bool) : Res :=
  v.produceRA 2 (v.dst 1 1) v.lowG (.racq cons v.ringSpace (v.uni v.f.a))

/-- RREL (R302, R310). -/
def Env.rrel (v : Env) (free last : Bool) : Res :=
  v.produceRA 2 .none v.lowG (.rrel free last v.ringSpace (v.uni v.f.a) (v.uni v.f.b) (if free then 0 else v.uni v.f.c))

/-- Whether an earlier SBIND of the run binds the slot. -/
def Run.binds (r : Run) : Bool := r.effs.any fun e => match e.act with | .sbind _ _ => true | _ => false

/-- SBIND (R305): its status, and the binding when it is 0. -/
def Env.sbind (v : Env) : Res :=
  let entry := v.uni v.f.a
  let st := v.s.sbindStatus v.c entry v.r.binds
  .ok (if !v.lowG then Out.nil
       else (v.status (BitVec.ofNat 64 st)).also (if st == 0 then [.sbind entry (v.uni v.f.b)] else []))

/-- The slot's status as the run's earlier instructions leave it (R306, R307, R309). -/
def Env.slotStat (v : Env) : SlotStat :=
  v.r.effs.foldl (fun x e => match e.act with
    | .sbind _ _ => SlotStat.reset
    | .sctl sel a => x.sctl sel a
    | .semit _ _ accs k => x.emit k accs.length
    | _ => x) (v.s.stat v.c)

/-- SCTL (R307). -/
def Env.sctl (v : Env) (sel : Nat) : Res :=
  let x := v.slotStat
  let a := v.uniI v.f.a
  let live := v.r.binds || (match v.s.block? v.c.block with | some b => v.s.slotBound b | none => false)
  if !v.lowG then .ok Out.nil
  else if !(v.r.binds || v.s.sctlBound v.c) then .ok (v.status 0)
  else .ok ((v.status (match sel with
    | 1 => x.dlen
    | 2 => x.ylen
    | 3 => x.elen
    | _ => x.word live)).also (if live && (sel == 1 || sel == 4) then [.sctl sel a] else []))

/-- SRD (R308): the first byte of a lane's bits and the bit offset within it. The bit offset is the whole of its register, since
the rule names no B32. -/
def Env.srd (v : Env) : Res :=
  v.produce (v.dst 1 1) (!v.takers.isEmpty) (.access .srd (bitOf (v.f.m.getLsbD 7)) 1 (v.takers.map fun l =>
    let p := (v.rdWhole v.f.b (v.at' l)).toNat
    { lane := l, addr := (v.rd64 v.f.a l).toNat + p / 8, x := (0, 0), y := BitVec.ofNat 64 (p % 8) }))

/-- SEMIT (R309). -/
def Env.semit (v : Env) : Res :=
  let esz := 2 ^ nbits v.m 1 0
  let sp := nbits v.m 3 2
  let ps := v.parts
  let x := v.slotStat
  let k := ps.length
  let w := if x.dset then min k (x.dlen.toNat - x.elen.toNat) else k
  let base := v.uni v.f.a
  let accs : List Acc := ((List.range w).zip ps).map fun q =>
    { lane := q.2, addr := (base + BitVec.ofNat 64 (q.1 * esz)).toNat
      x := (if esz == 8 then v.rd64 v.f.b (v.at' q.2) else (v.rd32 v.f.b (v.at' q.2)).setWidth 64, 0), y := 0 }
  if ps.isEmpty then .ok Out.nil
  else
    match v.s.preCheck v.who .write false sp esz accs with
    | some (cause, bad) =>
      .trap (v.addrTrap cause (bad.map fun a => a.lane) (BitVec.ofNat 64 ((bad.head?.map fun a => a.addr).getD 0)))
    | none => .ok ((v.status (BitVec.ofNat 64 (w * esz))).also [.semit sp esz accs k])

/-- HDEC (R311, R313). -/
def Env.hdec (v : Env) : Res :=
  v.produceRA 2 (v.dst 1 1) (!v.parts.isEmpty) (.copy (.hdec (v.f.m.getLsbD 7) (v.uni v.f.a) (v.uni v.f.b) v.parts))

/-- CPY (R294). -/
def execCpy (f : Fields) (s : State) := execIsa .cpy f (fun v => v.copy (v.copyCmd false)) s
/-- CPY.1D.RING (R304). -/
def execCpyRing (f : Fields) (s : State) := execIsa .cpyRing f (fun v => v.copy (v.copyCmd true)) s
/-- CPYG.GATHER (R296). -/
def execCpygGather (f : Fields) (s : State) := execIsa .cpygGather f (fun v => v.copy (v.gatherCmd false)) s
/-- CPYG.SCATTER (R296). -/
def execCpygScatter (f : Fields) (s : State) := execIsa .cpygScatter f (fun v => v.copy (v.gatherCmd true)) s
/-- RINIT (R300). -/
def execRinit (f : Fields) (s : State) := execIsa .rinit f Env.rinit s
/-- RACQ.PROD (R301). -/
def execRacqProd (f : Fields) (s : State) := execIsa .racqProd f (fun v => v.racq false) s
/-- RACQ.CONS (R301). -/
def execRacqCons (f : Fields) (s : State) := execIsa .racqCons f (fun v => v.racq true) s
/-- RREL.PUB (R302). -/
def execRrelPub (f : Fields) (s : State) := execIsa .rrelPub f (fun v => v.rrel false false) s
/-- RREL.PUB.LAST (R310). -/
def execRrelPubLast (f : Fields) (s : State) := execIsa .rrelPubLast f (fun v => v.rrel false true) s
/-- RREL.FREE (R302). -/
def execRrelFree (f : Fields) (s : State) := execIsa .rrelFree f (fun v => v.rrel true false) s
/-- SBIND (R305, R306). -/
def execSbind (f : Fields) (s : State) := execTable .sbind f Env.sbind s
/-- SCTL.STAT (R307). -/
def execSctlStat (f : Fields) (s : State) := execIsa .sctlStat f (fun v => v.sctl 0) s
/-- SCTL.DLEN (R307). -/
def execSctlDlen (f : Fields) (s : State) := execIsa .sctlDlen f (fun v => v.sctl 1) s
/-- SCTL.YLEN (R307). -/
def execSctlYlen (f : Fields) (s : State) := execIsa .sctlYlen f (fun v => v.sctl 2) s
/-- SCTL.ELEN (R307). -/
def execSctlElen (f : Fields) (s : State) := execIsa .sctlElen f (fun v => v.sctl 3) s
/-- SCTL.STOP (R307). -/
def execSctlStop (f : Fields) (s : State) := execIsa .sctlStop f (fun v => v.sctl 4) s
/-- SRD (R308): the bit offset is the whole of its register, since the rule names no B32. -/
def execSrd (f : Fields) (s : State) := execIsa .srd f Env.srd s
/-- SEMIT (R309). -/
def execSemit (f : Fields) (s : State) := execIsa .semit f Env.semit s
/-- HDEC (R311). -/
def execHdec (f : Fields) (s : State) := execIsa .hdec f Env.hdec s

end Sys2Proof.Machine
end

