-- ==== Sys2Proof/Machine/EncoderOps.lean ====
section
/-! DEFINITION. Class 0xD as a warp issues it (16_encoder.md R343 to R347). -/

namespace Sys2Proof.Machine

/-- VENC (R346): operands of the out registers. -/
def Env.venc (v : Env) : Res :=
  let out := fun (i : Nat) => match v.f.c with | .s n => v.c.rdS (n.val + i) | _ => 0
  v.produceRA 2 (v.dst 1 1) v.lowG (.venc (v.f.m.getLsbD 7) (v.x.testBit 3) (nbits v.x 5 4) (v.uni v.f.a) (v.uni v.f.b)
    (out 0) (out 1 &&& 0xFFFFFFFF) (out 2))

/-- VQRY (R347). -/
def State.vqry (s : State) (c : Ctx) (sel : Nat) (h : W64) : W64 :=
  if sel == 0 then BitVec.ofNat 64 (s.freeUnits c.loc.die)
  else
    match s.session? c.launch h.toNat with
    | none => 0
    | some x => match sel with
      | 1 => BitVec.ofNat 64 x.queue.length
      | 2 => BitVec.ofNat 64 x.frames
      | _ => x.bytes

/-- VCFG (R344). -/
def execVcfg (f : Fields) (s : State) :=
  execIsa .vcfg f (fun v => v.produceRA 2 (v.dst 1 1) v.lowG (.vcfg false (v.uni f.a))) s
/-- VCFG.CLOSE (R344). -/
def execVcfgClose (f : Fields) (s : State) :=
  execIsa .vcfgClose f (fun v => v.produceRA 2 (v.dst 1 1) v.lowG (.vcfg true (v.uni f.a))) s
/-- VENC (R346). -/
def execVenc (f : Fields) (s : State) := execIsa .venc f Env.venc s
/-- VQRY (R347). -/
def execVqry (f : Fields) (s : State) :=
  execIsa .vqry f (fun v => .ok (if v.lowG then v.status (v.s.vqry v.c v.f.ty (v.uni f.a)) else Out.nil)) s

end Sys2Proof.Machine
end

