-- ==== Sys2Proof/Machine/Crypto.lean ====
section
/-! DEFINITION. The functions that 19_device.md R397 and R398 name and take from other standards: SHAKE256 (FIPS 202) and the
verification of an Ed448 signature (RFC 8032, with an empty context). Log entry 21. Numbers are forced to numerals before they
are used twice, so that the kernel can evaluate them. -/

namespace Sys2Proof.Machine

/-- Apply a function to a number in evaluated form. -/
def force {α : Type} (n : Nat) (f : Nat → α) : α :=
  match n with
  | 0 => f 0
  | k + 1 => f (k + 1)

/-- Apply a function to a list of numbers in evaluated form. -/
def forceAll {α : Type} (l : List Nat) (f : List Nat → α) : α :=
  match l with
  | [] => f []
  | x :: r => force x fun y => forceAll r fun t => f (y :: t)

/-! SHAKE256. The state of Keccak is 25 lanes of 64 bits, lane x + 5y at place x + 5y. -/

/-- Rotate a 64-bit lane left. -/
def rotLane (x n : Nat) : Nat := (x * 2 ^ n) % 2 ^ 64 ||| x / 2 ^ (64 - n)

/-- The constants of iota. -/
def keccakRc : List Nat :=
  [0x1, 0x8082, 0x800000000000808a, 0x8000000080008000, 0x808b, 0x80000001, 0x8000000080008081, 0x8000000000008009, 0x8a, 0x88,
   0x80008009, 0x8000000a, 0x8000808b, 0x800000000000008b, 0x8000000000008089, 0x8000000000008003, 0x8000000000008002,
   0x8000000000000080, 0x800a, 0x800000008000000a, 0x8000000080008081, 0x8000000000008080, 0x80000001, 0x8000000080008008]

/-- The rotations of rho. -/
def keccakRot : List Nat := [0, 1, 62, 28, 27, 36, 44, 6, 55, 20, 3, 10, 43, 25, 39, 41, 45, 15, 21, 8, 18, 2, 61, 56, 14]

/-- A round of Keccak-f: theta, rho and pi, chi, iota. -/
def keccakRound {α : Type} (rc : Nat) (a : List Nat) (f : List Nat → α) : α :=
  let at' := fun (l : List Nat) (i : Nat) => l.getD i 0
  forceAll ((List.range 5).map fun x => at' a x ^^^ at' a (x + 5) ^^^ at' a (x + 10) ^^^ at' a (x + 15) ^^^ at' a (x + 20)) fun c =>
  forceAll ((List.range 5).map fun x => at' c ((x + 4) % 5) ^^^ rotLane (at' c ((x + 1) % 5)) 1) fun d =>
  forceAll ((List.range 25).map fun j =>
    let i := (j % 5 + 3 * (j / 5)) % 5 + 5 * (j % 5)
    rotLane (at' a i ^^^ at' d (i % 5)) (keccakRot.getD i 0)) fun b =>
  forceAll ((List.range 25).map fun j =>
    let y := 5 * (j / 5)
    let v := at' b j ^^^ ((2 ^ 64 - 1 - at' b (y + (j + 1) % 5)) &&& at' b (y + (j + 2) % 5))
    if j == 0 then v ^^^ rc else v) f

/-- Keccak-f[1600] with the rounds of a list of constants. -/
def keccakF (a : List Nat) (rcs : List Nat) : List Nat :=
  match rcs with
  | [] => a
  | rc :: r => keccakRound rc a fun b => keccakF b r

/-- A little-endian number of bytes. -/
def bytesNat (bs : List Byte) : Nat := bs.foldr (fun b n => b.toNat + 256 * n) 0

/-- The message padded to whole blocks of 136 bytes, as SHAKE256 pads. -/
def shakePad (m : List Byte) : List Byte :=
  let r := m.length % 136
  m ++ (if r == 135 then [0x9F] else [0x1F] ++ List.replicate (134 - r) 0 ++ [0x80])

/-- Absorb n blocks. -/
def absorb (n : Nat) (a : List Nat) (m : List Byte) : List Nat :=
  match n with
  | 0 => a
  | n + 1 =>
    forceAll ((List.range 25).map fun i => a.getD i 0 ^^^ (if i < 17 then bytesNat ((m.drop (8 * i)).take 8) else 0)) fun b =>
      absorb n (keccakF b keccakRc) (m.drop 136)

/-- The first n bytes (at most 136) of SHAKE256 of a message. -/
def shake256 (m : List Byte) (n : Nat) : List Byte :=
  let p := shakePad m
  ((absorb (p.length / 136) (List.replicate 25 0) p).flatMap (leBytes 8)).take n

/-! Ed448 (RFC 8032, 5.2): x² + y² = 1 + d x² y² modulo p, points in projective coordinates. -/

/-- The prime of the field. -/
def edP : Nat := 2 ^ 448 - 2 ^ 224 - 1
/-- The curve's d, −39081. -/
def edD : Nat := edP - 39081
/-- The order of the base point. -/
def edL : Nat := 2 ^ 446 - 13818066809895115352007386748515426880336692474882178609894547503885
/-- The base point. -/
def edB : Nat × Nat × Nat :=
  (224580040295924300187604334099896036246789641632564134246125461686950415467406032909029192869357953282578032075146446173674602635247710,
   298819210078481492676017930443930673437544040154080242095928241372331506189835876003536878655418784733982303233503462500531545062832660, 1)

/-- A power modulo p, the exponent's bits from the highest. -/
def powP (bits : List Bool) (acc x : Nat) : Nat :=
  match bits with
  | [] => acc
  | b :: r => force (acc * acc % edP) fun a => if b then force (a * x % edP) fun c => powP r c x else powP r a x

/-- The n low bits of a number, the highest first. -/
def bitsHigh (n x : Nat) : List Bool := (List.range n).map fun i => x.testBit (n - 1 - i)

/-- Sum of two points. -/
def edAdd {α : Type} (s t : Nat × Nat × Nat) (f : Nat × Nat × Nat → α) : α :=
  force (s.2.2 * t.2.2 % edP) fun a => force (s.1 * t.1 % edP) fun c => force (s.2.1 * t.2.1 % edP) fun d =>
  force (a * a % edP) fun b => force (edD * (c * d % edP) % edP) fun e =>
  force ((s.1 + s.2.1) * (t.1 + t.2.1) % edP) fun h =>
  force (a * ((b + edP - e) * ((h + 2 * edP - c - d) % edP) % edP) % edP) fun x =>
  force (a * ((b + e) * ((d + edP - c) % edP) % edP) % edP) fun y =>
  force ((b + edP - e) * (b + e) % edP) fun z => f (x, y, z)

/-- A multiple of a point, the factor's bits from the highest. -/
def edMul (bits : List Bool) (acc t : Nat × Nat × Nat) : Nat × Nat × Nat :=
  match bits with
  | [] => acc
  | b :: r => edAdd acc acc fun a => if b then edAdd a t fun c => edMul r c t else edMul r a t

/-- The point that 57 bytes encode (RFC 8032, 5.2.3). -/
def edPoint (bs : List Byte) : Option (Nat × Nat × Nat) :=
  force (bytesNat bs) fun n =>
  force (n % 2 ^ 455) fun y =>
  force ((y * y + edP - 1) % edP) fun u =>
  force ((edD * (y * y % edP) + edP - 1) % edP) fun v =>
  force (u * u % edP * u % edP * v % edP) fun w =>
  force (powP (bitsHigh 448 ((edP - 3) / 4)) 1 (w * (u * u % edP * (v * v % edP) % edP) % edP)) fun q =>
  force (w * q % edP) fun x =>
    if bs.length != 57 || edP ≤ y || v * (x * x % edP) % edP != u || (x == 0 && n.testBit 455) then none
    else some (if x % 2 == n / 2 ^ 455 then x else edP - x, y, 1)

/-- Two points are the same. -/
def edSame (s t : Nat × Nat × Nat) : Bool :=
  s.1 * t.2.2 % edP == t.1 * s.2.2 % edP && s.2.1 * t.2.2 % edP == t.2.1 * s.2.2 % edP

/-- Whether a signature of a message verifies under a public key (RFC 8032, 5.2.7). -/
def ed448Verifies (key message signature : List Byte) : Bool :=
  let r := signature.take 57
  let dom : List Byte := [0x53, 0x69, 0x67, 0x45, 0x64, 0x34, 0x34, 0x38, 0, 0]
  if signature.length != 114 || edL ≤ bytesNat (signature.drop 57) then false
  else match edPoint key, edPoint r with
    | some a, some c =>
      force (bytesNat (shake256 (dom ++ r ++ key ++ message) 114) % edL) fun k =>
      force (bytesNat (signature.drop 57)) fun z =>
        edAdd c (edMul (bitsHigh 446 k) (0, 1, 1) a) fun t => edSame (edMul (bitsHigh 446 z) (0, 1, 1) edB) t
    | _, _ => false

end Sys2Proof.Machine
end

