-- ==== Sys2Proof/Machine/Debug.lean ====
section
/-! DEFINITION. Debugging (17_system.md R369 to R372; 19_device.md R405): grants, halting, stepping, breakpoints, images
read and written, revocation. An operation is performed between runs and completes at once. -/

namespace Sys2Proof.Machine

/-- Whether an image buffer of n bytes is memory of the device or of the system that the access tables let the context's cluster
read or write (19_device.md R400); an operation with another buffer is refused (log entry 101). -/
def State.bufferOk (s : State) (l : Loc) (pa n : Nat) (wr : Bool) : Bool :=
  (match s.place pa with | .hbm _ | .cxl _ => true | _ => false) && s.tablesPermit (clusterWho l.die l.cluster) pa n (!wr) wr

/-- Write bytes of an image to a buffer: the state and the status. -/
def State.putBuffer (s : State) (l : Loc) (pa : Nat) (bs : List Byte) : State × Nat :=
  if s.bufferOk l pa bs.length true then (s.wr pa bs, 0) else (s, 2)

/-- What a change of halted lanes may complete: masks (04_control.md R68, R70), of a saved context in its image too, and block
barriers (R202). After HALT, RESUME, STEP and a revocation too (log entry 78). -/
def State.afterDebug (s : State) (cid : Nat) : State :=
  match s.ctx? cid with
  | some c =>
    let s1 := s.updCtx cid Ctx.release
    if c.saved then s1.refreshImage cid else s1.barrierRelease c.block
  | none => s

/-- The launches that a grant covers. -/
def State.grantLaunches (s : State) (g : Nat) : List Launch :=
  if (s.reg 0 0x200040).getLsbD g then s.launches.filter fun l => l.record.tag == s.reg 0 (0x200000 + 8 * g) else []

/-- The launches with the debug right. -/
def State.rightLaunches (s : State) : List Nat := (s.launches.filter fun l => s.debugRight l.id).map fun l => l.id

/-- Revocation of the right over a launch (R372). -/
def State.revoke (s : State) (lid : Nat) : State :=
  let s1 := s.updLaunch lid fun l => { l with breaks := [], rev := true }
  (s1.ctxs.filter fun c => c.launch == lid && !c.ended).foldl (fun s c =>
    ((s.updCtx c.id fun c =>
      { c with sr := { c.sr with dbgRev := true }, lanes := c.lanes.map fun x => { x with halted := false, stepping := false, left := x.left || x.halted } }).refreshImage c.id).afterDebug c.id) s1

/-- Change the grants; launches that lose the right have it revoked. -/
def State.regrant (s : State) (off : Nat) (v : W64) : State :=
  let before := s.rightLaunches
  let s1 := s.setReg 0 off v
  (before.filter fun i => !s1.debugRight i).foldl (fun s i => s.revoke i) s1

/-- The live context that an operation names. -/
def State.debugCtx (s : State) (op : W64) : Option Ctx :=
  let l : Loc := ⟨bits op 23 23, bits op 22 19, bits op 18 14⟩
  s.ctxs.find? fun c => c.loc == l && !c.saved && !c.ended && c.slotNo == bits op 13 8

/-- The saved context whose image stands at a physical address. -/
def State.savedCtx (s : State) (pa : Nat) : Option Ctx :=
  s.ctxs.find? fun c => c.saved && !c.ended && (match c.image with
    | some (false, a) => a == pa
    | some (true, a) => s.quietRead (whoOf c) a 8 == some pa
    | none => false)

/-- The context an operation acts on, where its grant covers it; SAVED is for READ and WRITE alone. -/
def State.debugTarget (s : State) (op arg : W64) : Option Ctx :=
  let k := bits op 31 28
  let c := if op.getLsbD 7 && (k == 5 || k == 6) then s.savedCtx (arg.toNat / 2 * 2) else s.debugCtx op
  match c with
  | some c => if (s.grantLaunches (bits op 26 24)).any fun l => l.id == c.launch then some c else none
  | none => none

/-- Lanes of a mask in a context that have not exited. -/
def Ctx.debugLanes (c : Ctx) (mask : W64) : List Nat := (lanesOf c.width mask).filter fun l => (c.lane l).st != .exited

/-- HALT, RESUME and STEP (R369, R370). -/
def State.debugLanesOp (s : State) (c : Ctx) (k : Nat) (mask : W64) : State :=
  let ls := c.debugLanes mask
  match k with
  | 0 => (s.updCtx c.id fun c => c.updLanes ls fun _ x => { x with halted := true, stepping := false }).afterDebug c.id
  | 1 => (s.updCtx c.id fun c => c.updLanes ls fun _ x => if x.halted then { x with halted := false, stepping := false, left := true } else x).afterDebug c.id
  | _ => (s.updCtx c.id fun c => c.updLanes ls fun _ x => if x.halted then { x with halted := false, stepping := true, left := true } else x).afterDebug c.id

/-- Why a WRITE is not made: busy (1) for a lane that has left the halted state or a commit under way, refused (2) where it
breaks a rule (R371). The reserved bits of LSTATE and its SUSP are not written (00_scope.md R3, Table 17.7). -/
def State.writeStatus (s : State) (c : Ctx) (mask : W64) (buf : Nat) (all : Bool) : Nat :=
  let ls := lanesOf 64 mask
  let lst := fun (l : Nat) => s.readN (buf + 0x220 + l) 1
  if ls.any fun l => !(c.lane l).halted && (c.lane l).left then 1
  else if ls.any fun l => c.width ≤ l || !(c.lane l).halted then 2
  else if !c.commitQ.isEmpty then 1
  else if ls.any fun l => s.readN (buf + 0x20 + 8 * l) 8 % 4 != 0 then 2
  else if ls.any fun l => lst l % 32 != c.lstate l % 32 && lst l % 32 != 0 then 2
  else if all && !c.saved && (c.allLanes.any fun l => (c.lane l).st != .exited && !(c.lane l).halted) then 2
  else 0

/-- WRITE of an image's RW fields from the buffer (R371, R405). -/
def State.debugWriteCtx (s : State) (c : Ctx) (mask : W64) (buf : Nat) (all : Bool) : Ctx :=
  let ls := lanesOf c.width mask
  let w := fun (o n : Nat) => s.readN (buf + o) n
  let c1 := c.updLanes ls fun l x =>
    { x with pc := BitVec.ofNat 64 (w (0x20 + 8 * l) 8), fell := true, met := [], st := if w (0x220 + l) 1 % 32 == 0 then .runnable else x.st }
  let c2 := (List.range c.vregs).foldl (fun c n =>
    ls.foldl (fun c l => c.wrV n l (BitVec.ofNat 32 (w (0x1000 + 4 * (n * c.width + l)) 4))) c) c1
  if all then
    let c3 := (List.range 64).foldl (fun c n => c.wrS n (BitVec.ofNat 64 (w (0x260 + 8 * n) 8))) c2
    let c4 := { c3 with p := (List.range 7).foldl (fun t n => Table.set t n (BitVec.ofNat 64 (w (0x460 + 8 * n) 8) &&& c.widthMask) 0) c3.p }
    (List.range 8).foldl (fun c n => c.wrM n (BitVec.ofNat 64 (w (0x498 + 8 * n) 8))) c4
  else c2

/-- The bytes READ gives: the image taken at a run boundary, or a saved context's image. -/
def State.debugImage (s : State) (c : Ctx) : List Byte := s.imageBytes c (c.preempted)

/-- Perform an operation of Table 17.8: the state and the status of DBGSTAT (R369, R405). -/
def State.debugPerform (s : State) (op mask buf arg : W64) : State × Nat :=
  let k := bits op 31 28
  let g := bits op 26 24
  let at' := bits buf 51 6 * 64
  if 8 ≤ k || !(s.reg 0 0x200040).getLsbD g then (s, 2)
  else if k == 3 || k == 4 then
    let n := bits op 1 0
    ((s.grantLaunches g).foldl (fun s l => s.updLaunch l.id fun l =>
      let rest := l.breaks.filter fun b => b.1 != n
      { l with breaks := if k == 3 then rest ++ [(n, arg)] else rest }) s, 0)
  else
    match s.debugTarget op arg with
    | none => (s, 2)
    | some c =>
      if k ≤ 2 then (s.debugLanesOp c k mask, 0)
      else if k == 6 then
        let all := arg.getLsbD 0
        let st := s.writeStatus c mask at' all
        if !s.bufferOk c.loc at' (imageSize c.width c.vregs) false then (s, 2)
        else if st != 0 then (s, st)
        else (((s.updCtx c.id fun c => s.debugWriteCtx c mask at' all).refreshImage c.id).afterDebug c.id, 0)
      else if !c.saved && !c.commitQ.isEmpty then (s, 1)
      else if k == 5 then s.putBuffer c.loc at' (s.debugImage c)
      else s.putBuffer c.loc (at' + 0x20) (((s.debugImage c).drop 0x20).take 0x240)

/-- The debugger's write of 1 to DBGGO (R405). -/
def State.debugGo (s : State) : State :=
  let (s1, st) := s.debugPerform (s.reg 0 0x200080) (s.reg 0 0x200088) (s.reg 0 0x200090) (s.reg 0 0x200098)
  s1.setReg 0 0x2000A8 (BitVec.ofNat 64 st)

end Sys2Proof.Machine
end

