-- ==== Sys2Proof/Machine/Mgmt.lean ====
section
/-! DEFINITION. The management space and what acts on it from outside (19_device.md R394 to R405): registers, access tables,
clocks, current and temperature, boot, the management port, application cores (10_atomics.md R207), soft errors
(07_memory.md R158 to R160). -/

namespace Sys2Proof.Machine

/-! Reading registers. -/

/-- CONNSTAT for the peer CONNSEL names (R403). -/
def State.connStat (s : State) (die : Nat) : W64 :=
  match s.conn? die (bits (s.reg die 0x1C0010) 9 0) with
  | none => 0
  | some c => BitVec.ofNat 64 ((if c.dead then 2 else 1) + 4 * bitOf c.spilled + 2 ^ 32 * c.retx)

/-- The blocks of Table 19.1 that die 0 alone has. -/
def die0Only (off : Nat) : Bool := (0x140000 ≤ off && off < 0x180000) || 0x200000 ≤ off

/-- The offsets of registers that software can read (Tables 7.7, 17.9, 18.1, 18.4, 19.2 to 19.7). -/
def readable (off : Nat) : Bool :=
  off % 8 == 0
    && ((0x100000 ≤ off && off ≤ 0x100030)
      || (0x120000 ≤ off && off < 0x120100)
      || (0x140000 ≤ off && off < 0x140800)
      || (0x140800 ≤ off && off < 0x140C00 && (off - 0x140800) % 0x40 ≤ 0x30)
      || (0x140C00 ≤ off && off ≤ 0x140C18)
      || (0x140D00 ≤ off && off < 0x140D80)
      || (0x160000 ≤ off && off < 0x160080) || off == 0x160100 || off == 0x160108
      || (0x180000 ≤ off && off < 0x193000) || off == 0x19FFF8
      || (0x1A0000 ≤ off && off < 0x1A0040)
      || (0x1C0000 ≤ off && off ≤ 0x1C0028 && off != 0x1C0020)
      || (0x1E0000 ≤ off && off ≤ 0x1E0030)
      || (0x200000 ≤ off && off ≤ 0x200040) || (0x200080 ≤ off && off ≤ 0x2000A8))

/-- What a read of a management register gives; others read zero (R394). -/
def State.mgmtRead (s : State) (die off : Nat) : W64 :=
  if (die0Only off && die != 0) || !readable off then 0
  else if off == 0x1C0018 then s.connStat die
  else if 0x1A0000 ≤ off && off < 0x1A0040 then s.capReg ((off - 0x1A0000) / 8)
  else s.reg die off

/-! Clocks and power (R395, R396). -/

/-- The hardware cap of an island; 1,500 stands for none. -/
def State.islCap (s : State) (i : Nat) : Nat := Table.get s.islCaps i 1500
/-- FREQ of an island. -/
def State.freq (s : State) (i : Nat) : Nat := bits (s.reg 0 (0x160000 + 8 * i)) 10 0
/-- EFF of an island. -/
def State.eff (s : State) (i : Nat) : Nat := bits (s.reg 0 (0x160000 + 8 * i)) 26 16
/-- Store FREQ and EFF, and THR by the cap. -/
def State.setClock (s : State) (i freq eff : Nat) : State :=
  s.setReg 0 (0x160000 + 8 * i) (BitVec.ofNat 64 (freq + eff * 2 ^ 16 + 2 ^ 32 * bitOf (decide (s.islCap i < freq))))

/-- ISLCLK_WRITE: FREQ of Table 19.2, any other write is ignored. -/
def State.writeClock (s : State) (i : Nat) (v : W64) : State :=
  let f := bits v 10 0
  if i < 16 && 600 ≤ f && f ≤ 1500 && f % 25 == 0 then s.setClock i f (s.eff i) else s

/-- CLOCK_CHANGE_EFFECT: an island runs at the lower of FREQ and its cap. -/
def State.clockEffect (s : State) (i : Nat) : Option State :=
  let e := min (s.freq i) (s.islCap i)
  if 16 ≤ i || s.eff i == e then none else some (s.setClock i (s.freq i) e)

/-- PWRLIM_WRITE: clamped to 1,000 to 4,000 A. -/
def State.writeLimit (s : State) (v : W64) : State := s.setReg 0 0x160100 (BitVec.ofNat 64 (max 1000 (min 4000 (bits v 15 0))))

/-- Change the cap of every island. -/
def State.mapCaps (s : State) (g : Nat → Nat) : State :=
  (List.range 16).foldl (fun s i =>
    let c := g i
    let s1 : State := { s with islCaps := Table.set s.islCaps i c 1500 }
    s1.setClock i (s1.freq i) (min (s1.eff i) c)) s

/-- What a reset of the dies leaves (log entry 21): memory and its error marks keep what they hold, the bin its fixed values
(R402), the root of trust its own, and what the outside is about to do stands; everything else is as after reset. -/
def State.restart (s : State) : State :=
  { State.reset with
    mem := s.mem, badGranules := s.badGranules, badWords := s.badWords, freeIdx := s.freeIdx
    caps := s.caps.filter fun c => decide (c.1 < 4), nextId := s.nextId, answers := s.answers, irqs := s.irqs
    agenda := s.agenda, version := s.version, fusedKey := s.fusedKey, installed := s.installed, verified := s.verified, newImage := s.newImage }

/-- The trip (R396): both dies are held in reset, every active launch is lost, and the port reports the temperature; a device in
recovery mode stays in it. -/
def State.trip (s : State) (tj : Nat) : State :=
  { s.restart.setReg 0 0x160108 ((s.reg 0 0x160108 &&& 0xFFFFFFFFFF) ||| BitVec.ofNat 64 (2 ^ 40 * (tj % 2 ^ 8))) with tripped := true, recovery := s.recovery }

/-- What a sample of current and temperature makes of the islands' caps (R396). -/
def State.throttle (s : State) (amps tj : Nat) : State :=
  let limit := bits (s.reg 0 0x160100) 15 0
  let hot := if 100 ≤ tj then true else if tj ≤ 95 then false else s.hot
  let low := (List.range 16).all fun i => s.islCap i ≤ 600
  if limit < amps || hot then
    { s.mapCaps (fun i => max 600 (min (s.islCap i) (s.freq i) - 100)) with hot := hot, rise := 0, halfRate := low }
  else if amps < limit then
    if s.rise + 1 < 10 then { s with hot := hot, rise := s.rise + 1, halfRate := false }
    else { s.mapCaps (fun i => if s.freq i ≤ s.islCap i + 25 then 1500 else s.islCap i + 25) with
           hot := hot, rise := 0, halfRate := false }
  else { s with hot := hot, rise := 0, halfRate := false }

/-- CURRENT_SAMPLE (R396): once per microsecond, the measured current, temperature and power; at 110 °C the trip. -/
def State.currentSample (s : State) (amps tj watts : Nat) : State :=
  let s1 := s.setReg 0 0x160108 (BitVec.ofNat 64 (amps % 2 ^ 16 + 2 ^ 24 * (watts % 2 ^ 16) + 2 ^ 40 * (tj % 2 ^ 8)))
  if 110 ≤ tj then s1.trip tj else s1.throttle amps tj

/-- THERMAL_TRIP (R396): at 110 °C, whatever the dies do. -/
def State.thermalTrip (s : State) (tj : Nat) : Option State :=
  if tj < 110 || s.run.isSome then none else some (s.trip tj)

/-! Boot and the management port (R397 to R399; log entry 21). -/

/-- The message that a stage's signature signs and its digest measures: its security version, then its code. -/
def stageBytes (x : FwStage) : List Byte := leBytes 8 x.version ++ x.code

/-- Whether a stage verifies (R397): its key is the fused one, its version is not rolled back, its signature is the key's. -/
def State.stageOk (s : State) (x : FwStage) : Bool :=
  shake256 x.key 64 == s.fusedKey && decide (s.version ≤ x.version) && ed448Verifies x.key (stageBytes x) x.signature

/-- Boot an image: the ROM verifies its first stage and each stage the next; if one does not verify, or there is none, the
device is in recovery mode, with the stages before it verified. -/
def State.boot (s : State) (i : Image) : State :=
  let ok := i.stages.takeWhile s.stageOk
  if ok.length == i.stages.length && !i.stages.isEmpty then { s with installed := some i, verified := ok, newImage := none }
  else { s with recovery := true, verified := ok }

/-- DEVICE_RESET (R397): an update takes effect, else the image last accepted boots again. -/
def State.deviceReset (s : State) : State :=
  let s1 := s.restart
  match s.newImage, s.installed with
  | some i, _ => s1.boot i
  | none, some i => s1.boot i
  | none, none => s1

/-- The bytes of a die's access tables in address order. -/
def State.tableBytes (s : State) (die : Nat) : List Byte :=
  (List.range 9728).flatMap fun i => leBytes 8 (s.reg die (0x180000 + 8 * i)).toNat

/-- The measurements (R398): the digests of the verified stages, and of the access tables of each die as they were locked;
locked tables do not change. -/
def State.measurements (s : State) : List Byte :=
  (if s.installed.isNone && s.verified.isEmpty && !s.recovery then Config.factoryDigests.flatten
   else s.verified.flatMap fun x => shake256 (stageBytes x) 64)
    ++ ([0, 1].filter fun d => (s.reg d 0x19FFF8).getLsbD 1).flatMap fun d => shake256 (s.tableBytes d) 64

/-- Bytes as 64-bit words. -/
def wordsOf (n : Nat) (bs : List Byte) : List W64 :=
  match n with
  | 0 => []
  | n + 1 => BitVec.ofNat 64 (bytesNat (bs.take 8)) :: wordsOf n (bs.drop 8)

/-- SPDM (R398): the measurements, the certificate chain, and the identity key's signature of the measurements. -/
def State.spdmAnswer (s : State) : List W64 :=
  let m := s.measurements
  let bs := m ++ Config.certChain ++ Config.identitySign m
  wordsOf ((bs.length + 7) / 8) bs

/-- PLDM_MONITORING (R399): sensors 0 to 15 an island's EFF, 16 TJ, 17 WATTS, 18 CUR. -/
def State.sensor (s : State) (n : Nat) : Option W64 :=
  let p := s.reg 0 0x160108
  if n < 16 then some (BitVec.ofNat 64 (s.eff n))
  else match n with
    | 16 => some (BitVec.ofNat 64 (bits p 47 40))
    | 17 => some (BitVec.ofNat 64 (bits p 39 24))
    | 18 => some (BitVec.ofNat 64 (bits p 15 0))
    | _ => none

/-- Answer the outside. -/
def State.answer (s : State) (ws : List W64) : State := { s with answers := s.answers ++ ws }

/-! Access tables (R400, R401). -/

/-- Set EN or LOCK of ACCTL. -/
def State.acctl (s : State) (die : Nat) (v : W64) : State :=
  s.setReg die 0x19FFF8 (s.reg die 0x19FFF8 ||| (v &&& 3))

/-- The writable bits of an access table entry's word. -/
def entryMask (off : Nat) : W64 :=
  match off % 32 / 8 with
  | 0 => 0xFFFFFFFFFF001
  | 1 => 0xFFFFFFFFFF003
  | 2 => 0x3FFFFF
  | _ => 0x7FF

/-- CAP0_WRITE (R402). -/
def State.writeCap0 (s : State) (v : W64) : State :=
  let pod := bits v 63 54
  let size := bits v 53 43
  if (List.range 64).any (fun q => (s.reg 0 (qReg q 1)).getLsbD 16) || size == 0 || 1024 < size || size ≤ pod then s
  else { s with caps := Table.set (Table.set s.caps 4 pod (capReset 4)) 5 size (capReset 5) }

/-! Writing registers. -/

/-- Write the bits of a mask, the others keeping what they hold. -/
def State.maskWrite (s : State) (die off : Nat) (mask v : W64) : State :=
  s.setReg die off ((s.reg die off &&& ~~~mask) ||| (v &&& mask))

/-- Write a register with an interrupt's PEND (RW1C), IE and MSID. -/
def State.irqWrite (s : State) (die off : Nat) (v : W64) : State :=
  let pend := s.reg die off &&& 0x200000000 &&& ~~~v
  s.setReg die off ((v &&& 0x1FFFFFFFF) ||| pend)

/-- A write to a launch queue's register (Table 18.1). -/
def State.queueWrite (s : State) (q i : Nat) (v : W64) : State :=
  match i with
  | 0 => s.setReg 0 (qReg q 0) (v &&& 0xFFFFFFFFFFF00)
  | 1 => s.qctlWrite q v
  | 3 =>
    let t := bits v 15 0
    if (s.reg 0 (qReg q 1)).getLsbD 17 || s.qSize q ≤ t then s else s.setReg 0 (qReg q 3) (BitVec.ofNat 64 t)
  | _ => s

/-- A write to a chimney's register (Table 18.4); an interrupt that is now due is raised. -/
def State.chimneyWrite (s : State) (c i : Nat) (v : W64) : State :=
  let s1 := match i with
    | 0 => s.setReg 0 (cReg c 0) (v &&& 0xFFFFFFFFFFFE0)
    | 1 => s.setReg 0 (cReg c 1) (v &&& 0xFFFF)
    | 2 => s.setReg 0 (cReg c 2) (v &&& 0xFFFF)
    | 4 => s.setReg 0 (cReg c 4) (v &&& 0xFFFFFFFFFFFF)
    | 5 => s.irqWrite 0 (cReg c 5) v
    | 6 => s.setReg 0 (cReg c 6) 0
    | _ => s
  if s1.countDue c then s1.raiseChimney c else s1

/-- A write to a Hearth register above the chimneys (Table 18.4). -/
def State.hearthReg (s : State) (off : Nat) (v : W64) : State :=
  if off == 0x140C00 || off == 0x140C08 then s.setReg 0 off v
  else if off == 0x140C10 then s.setReg 0 off (v &&& 0xFFFFFFFFFF000)
  else if off == 0x140C18 then s.setReg 0 off (v &&& 0xFFFFFFF000)
  else if off == 0x140C20 then s.cancel v
  else if off == 0x140C28 then s.keyFree (v.setWidth 32)
  else if 0x140D00 ≤ off && off < 0x140D80 then s.maskWrite 0 off 0xFFFFFFFF v
  else s

/-- A write to a translation register (Table 7.7). -/
def State.translationWrite (s : State) (die off : Nat) (v : W64) : State :=
  let vpn := bits v 55 16
  match off - 0x100000 with
  | 0x00 => s.setReg die off (v &&& 0xFFFFFFFFFE001)
  | 0x08 =>
    if !v.getLsbD 0 then s.setReg die off (v &&& 0xFFFFFFFFFF0002)
    else if v.getLsbD 1 then (s.setReg die off (v &&& 0xFFFFFFFFFF0002)).invalAll die else s.invalPage die vpn
  | 0x10 =>
    if !v.getLsbD 0 then s.setReg die off (v &&& 0xFFFFFFFFFF0002)
    else if v.getLsbD 1 then s.rejectPage die vpn else s.resumePage die vpn
  | 0x18 => s.setReg die off (v &&& 0xFFFFFFFFFC000)
  | 0x20 => s.maskWrite die off 0x3FF v
  | 0x28 => s.setReg die off (v &&& 0xFFFF)
  | 0x30 => s.setReg die off 0
  | _ => s

/-- A write to a trace register (Table 17.9). -/
def State.traceWrite (s : State) (die off : Nat) (v : W64) : State :=
  match (off - 0x120000) % 0x20 with
  | 0x00 => s.setReg die off (v &&& 0xFFFFFFFFFF000)
  | 0x08 => s.setReg die off (v &&& 0xFFFFFFF000)
  | 0x18 => s.setReg die off 0
  | _ => s

/-- A write to a connection register (Table 19.5). -/
def State.connWrite (s : State) (die off : Nat) (v : W64) : State :=
  match off - 0x1C0000 with
  | 0x00 => s.setReg die off (v &&& 0xFFFFFFFFFF000)
  | 0x08 => s.setReg die off (v &&& 0xFFFF)
  | 0x10 => s.setReg die off (v &&& 0x3FF)
  | 0x20 => s.connreset die (bits v 9 0)
  | 0x28 => s.setReg die off 0
  | _ => s

/-- A write to an error register (Table 19.6). -/
def State.errorWrite (s : State) (die off : Nat) (v : W64) : State :=
  match off - 0x1E0000 with
  | 0x00 | 0x08 | 0x10 => s.setReg die off 0
  | 0x30 => s.irqWrite die off v
  | _ => s

/-- A write to a debug register (Table 19.7). -/
def State.debugReg (s : State) (off : Nat) (v : W64) : State :=
  if off < 0x200040 then s.regrant off v
  else match off - 0x200000 with
    | 0x40 => s.regrant off (v &&& 0xFF)
    | 0x80 => s.setReg 0 off (v &&& 0xF7FFFF83)
    | 0x88 => s.setReg 0 off v
    | 0x90 => s.setReg 0 off (v &&& 0xFFFFFFFFFFFC0)
    | 0x98 => s.setReg 0 off v
    | 0xA0 => if v.getLsbD 0 then s.debugGo else s
    | _ => s

/-- A write to a management register: what its table gives; other offsets ignore writes (R394). -/
def State.mgmtWrite (s : State) (die off : Nat) (v : W64) : State :=
  if off % 8 != 0 || 1 < die || (die0Only off && die != 0) then s
  else if 0x100000 ≤ off && off ≤ 0x100030 then s.translationWrite die off v
  else if 0x120000 ≤ off && off < 0x120100 then s.traceWrite die off v
  else if 0x140000 ≤ off && off < 0x140800 then s.queueWrite ((off - 0x140000) / 0x20) ((off - 0x140000) % 0x20 / 8) v
  else if 0x140800 ≤ off && off < 0x140C00 then s.chimneyWrite ((off - 0x140800) / 0x40) ((off - 0x140800) % 0x40 / 8) v
  else if 0x140C00 ≤ off && off < 0x140D80 then s.hearthReg off v
  else if 0x160000 ≤ off && off < 0x160080 then s.writeClock ((off - 0x160000) / 8) v
  else if off == 0x160100 then s.writeLimit v
  else if 0x180000 ≤ off && off < 0x193000 then
    (if (s.reg die 0x19FFF8).getLsbD 1 then s else s.setReg die off (v &&& entryMask off))
  else if off == 0x19FFF8 then s.acctl die v
  else if off == 0x1A0000 then (if die == 0 then s.writeCap0 v else s)
  else if 0x1C0000 ≤ off && off ≤ 0x1C0028 then s.connWrite die off v
  else if 0x1E0000 ≤ off && off ≤ 0x1E0030 then s.errorWrite die off v
  else if 0x200000 ≤ off && off ≤ 0x2000A8 then s.debugReg off v
  else s

/-- The issuer of an access that no program makes: a master of R400. -/
def masterWho (master die : Nat) : Who :=
  { launch := 0, gang := 0, block := 0, ctx := 0, kind := .lane, loc := ⟨die, 0, 0⟩, die := die, master := master, source := 0, peer := 0 }

/-- Whether the access table of the management space admits a master (R400, R405). -/
def State.mgmtAdmits (s : State) (master die off : Nat) (rd wr : Bool) : Bool :=
  s.tablePermits die 37 (masterWho master die) (0xFFE000000000 + die * 2 ^ 32 + off) 1 rd wr

/-- A write by a master of the management space: application cores (18) or the management controller (21). A write that
the table denies has no effect. -/
def State.masterWrite (s : State) (master die off : Nat) (v : W64) : Option State :=
  if 1 < die || (master != 18 && master != 21) || 2 ^ 24 ≤ off then none
  else some (if s.mgmtAdmits master die off false true then s.mgmtWrite die off v else s)

/-! Events by which firmware writes one register: the application complex or the management controller, if the table of
target 37 admits either (R400, R405; log entry 17). -/

/-- Whether firmware may write, or read, a register of the management space. -/
def State.firmwareMay (s : State) (die off : Nat) (wr : Bool) : Bool :=
  s.mgmtAdmits 18 die off (!wr) wr || s.mgmtAdmits 21 die off (!wr) wr

/-- What firmware's write of a register does, if it may write it. -/
def State.byFirmware (s : State) (die off : Nat) (t : State) : State := if s.firmwareMay die off true then t else s

/-- A register written by firmware. -/
def State.firmwareWrite (s : State) (die off : Nat) (v : W64) : State := s.byFirmware die off (s.mgmtWrite die off v)

/-- ACSYNC (R401): between events no checked access is still to be performed, so the read returns at once. -/
def State.acsync (s : State) (die : Nat) : State :=
  if s.firmwareMay die 0x19FFF0 false then s.answer [s.mgmtRead die 0x19FFF0] else s

/-- LAUNCH_QUEUE_APPEND by the application complex (R377): the record is stored, then TAIL is written. -/
def State.appendRecord (s : State) (q : Nat) (record : List Byte) : Option State :=
  if 63 < q || record.length != 256 then none
  else
    let pa := s.queueSlot q
    let s1 := match s.place pa with
      | .hbm _ | .cxl _ => if s.tablesPermit (masterWho 18 0) pa 256 false true then s.wr pa record else s
      | _ => s
    some (s1.byFirmware 0 (qReg q 3) (s1.queueAppend q))

/-- DEBUG_GRANT (R405): a TAG, then its bit of DBGVALID. -/
def State.grant (s : State) (g : Nat) (tag : W64) : Option State :=
  if 7 < g then none
  else
    let s1 := s.firmwareWrite 0 (0x200000 + 8 * g) tag
    some (s1.firmwareWrite 0 0x200040 (s1.reg 0 0x200040 ||| BitVec.ofNat 64 (2 ^ g)))

/-- DEBUG_REVOKE (R372, R405): the bit of DBGVALID is cleared. -/
def State.ungrant (s : State) (g : Nat) : Option State :=
  if 7 < g then none else some (s.firmwareWrite 0 0x200040 (s.reg 0 0x200040 &&& ~~~(BitVec.ofNat 64 (2 ^ g))))

/-- A debug operation k as the debugger gives it: DBGOP, DBGMASK, DBGBUF, DBGARG, then DBGGO. -/
def State.debugOp (s : State) (k : Nat) (dop mask buf arg : W64) : Option State :=
  if bits dop 31 28 != k then none
  else some (((((s.firmwareWrite 0 0x200080 dop).firmwareWrite 0 0x200088 mask).firmwareWrite 0 0x200090 buf).firmwareWrite 0 0x200098 arg).firmwareWrite 0 0x2000A0 1)

/-! Application cores (R207; log entry 17). -/

/-- The n bytes of a register's read that an access of them gets. -/
def State.mgmtPart (s : State) (die off n : Nat) : W64 :=
  BitVec.ofNat 64 ((s.mgmtRead die (off / 8 * 8)).toNat / 2 ^ (8 * (off % 8)) % 2 ^ (8 * n))

/-- Where an application core's access goes, if it is permitted. -/
def State.appPlace (s : State) (pa size : Nat) (rd wr : Bool) : Option Place :=
  let p := s.place pa
  if size != 1 && size != 2 && size != 4 && size != 8 || pa % size != 0 then none
  else match p with
    | .nothing => none
    | .mgmt die => if s.mgmtAdmits 18 die (pa % 2 ^ 24) rd wr then some p else none
    | _ => if s.tablesPermit (masterWho 18 0) pa size rd wr then some p else none

/-- Perform an atomic memory operation of an application core: old value answered, new value stored, at the home of the element
(10_atomics.md R206). The windows that R206 shuts out, and a denied access, give no value. -/
def State.appAmo (s : State) (pa size : Nat) (g : Nat → Nat) : Option State :=
  if size != 4 && size != 8 then none
  else
    match s.appPlace pa size true true with
    | some (.hbm _) | some (.cxl _) | some (.map _ _ _ _ .scratch) | some (.map _ _ _ _ .seqFile) =>
      if s.badRead pa size then some (s.uncHit pa 0 0)
      else
        let old := s.readN pa size
        some ((s.wrN pa size (g old % 2 ^ (8 * size))).answer [BitVec.ofNat 64 old])
    | some (.mgmt _) => none
    | _ => some s

/-- A pattern of n bytes as a signed number. -/
def signedN (n x : Nat) : Int := if x % 2 ^ (8 * n) < 2 ^ (8 * n - 1) then (x % 2 ^ (8 * n) : Nat) else (x % 2 ^ (8 * n) : Nat) - (2 ^ (8 * n) : Nat)

/-- The greater or lesser of two patterns. -/
def pickN (mx signed : Bool) (n x y : Nat) : Nat :=
  let less := if signed then decide (signedN n x < signedN n y) else decide (x % 2 ^ (8 * n) < y % 2 ^ (8 * n))
  if less == mx then y else x

/-- APPLICATION_CORE_ACCESS. A denied access, and a read of a poisoned granule, give no value. -/
def State.appAccess (s : State) (a : AppAccess) : Option State :=
  match a with
  | .read pa size =>
    match s.appPlace pa size true false with
    | none => some s
    | some (.mgmt die) => some (s.answer [s.mgmtPart die (pa % 2 ^ 24) size])
    | some _ => some (if s.badRead pa size then s.uncHit pa 0 0 else s.answer [BitVec.ofNat 64 (s.readN pa size)])
  | .write pa size v =>
    match s.appPlace pa size false true with
    | none => some s
    | some (.mgmt die) => some (if size == 8 then s.mgmtWrite die (pa % 2 ^ 24) v else s)
    | some _ => some (s.wrN pa size v.toNat)
  | .ctrlRead die off size =>
    if 1 < die || 2 ^ 24 ≤ off || (size != 1 && size != 2 && size != 4 && size != 8) || off % size != 0 then none
    else some (if s.mgmtAdmits 21 die off true false then s.answer [s.mgmtPart die off size] else s)
  | .amoAdd pa size v => s.appAmo pa size fun x => x + v.toNat
  | .amoSwap pa size v => s.appAmo pa size fun _ => v.toNat
  | .amoAnd pa size v => s.appAmo pa size fun x => x &&& v.toNat
  | .amoOr pa size v => s.appAmo pa size fun x => x ||| v.toNat
  | .amoXor pa size v => s.appAmo pa size fun x => x ^^^ v.toNat
  | .amoMin pa size sg v => s.appAmo pa size fun x => pickN false sg size x v.toNat
  | .amoMax pa size sg v => s.appAmo pa size fun x => pickN true sg size x v.toNat

/-! Soft errors. -/

/-- SOFT_ERROR (R158 to R160): a corrected error is counted; an uncorrectable one marks its granule or word until it is
written whole, and is met at the next read. One in an L2 marks the granule at its home. One in an L1 is counted and changes no value (log entry 33). -/
def State.softError (s : State) (t : ErrTarget) (corrected : Bool) : Option State :=
  let cor := fun (die : Nat) => s.bumpReg die 0x1E0000
  match t with
  | .memory pa =>
    match s.place pa with
    | .hbm st => some (if corrected then cor (st / 4) else { s with badGranules := Table.set s.badGranules (pa / 32) 1 0 })
    | _ => none
  | .l2 pa =>
    match s.place pa with
    | .hbm _ | .cxl _ => some (if corrected then cor (s.errWhere pa).1 else { s with badGranules := Table.set s.badGranules (pa / 32) 2 0 })
    | _ => none
  | .l1 die cl core pa =>
    if 1 < die || s.cap die ≤ cl || 24 ≤ core then none
    else if corrected then some (cor die)
    else some (s.countError die cl core 3 pa)
  | .array a =>
    match s.place a with
    | .map die _ _ _ _ => some (if corrected then cor die else { s with badWords := Table.set s.badWords (a / 4) true false })
    | _ => none
  | .vreg cid n l =>
    match s.ctx? cid with
    | some c =>
      if c.ended || c.saved || c.vregs ≤ n || c.width ≤ l then none
      else some (if corrected then cor c.loc.die
        else { s with badVregs := if s.badVregs.contains (cid, n, l) then s.badVregs else s.badVregs ++ [(cid, n, l)] })
    | none => none

end Sys2Proof.Machine
end

