-- ==== Sys2Proof/Machine/Events.lean ====
section
/-! DEFINITION. The events of the opcode table, one meaning each over the shared operations. An event that is not
possible in a state is the fault notEnabled there: the hardware takes no such step. -/

namespace Sys2Proof.Machine

/-- An event of one die. -/
def onDie (die : Nat) (r : Option State) : Option State := if die ≤ 1 then r else none

/-- An event that is possible whatever the dies do: reset, and the management port (19_device.md R396 to R399). -/
def always (s : State) (r : Option State) : Host.Outcome State Fault Refusal :=
  match r with
  | some s1 => if s.run.isSome then .fault .notEnabled else .next s1
  | none => .fault .notEnabled

/-! Tokens and waits (09_tokens_barriers.md). -/

/-- TKARR_DEFERRED_ARRIVAL (R200). -/
def execTkarrDeferredArrival (i : Nat) (s : State) : Host.Outcome State Fault Refusal := event s (s.lateArrival i)
/-- TOKEN_COMPLETE (R184). -/
def execTokenComplete (op : Nat) (s : State) : Host.Outcome State Fault Refusal := event s (s.tokenComplete op)
/-- TOKEN_WAIT_END (R191). -/
def execTokenWaitEnd (ctx lane : Nat) (s : State) : Host.Outcome State Fault Refusal := event s (s.tokenWaitEnd ctx lane)
/-- TWAITK_TIMEOUT (R192). -/
def execTwaitkTimeout (ctx lane : Nat) (s : State) : Host.Outcome State Fault Refusal := event s (s.twaitkTimeout ctx lane)
/-- MONWAIT_WAKE (R203): after a write to the line or without one. -/
def execMonwaitWake (ctx lane : Nat) (s : State) : Host.Outcome State Fault Refusal := event s (s.monitorRead ctx lane)
/-- MONWAIT_TIMEOUT (R203). -/
def execMonwaitTimeout (ctx lane : Nat) (s : State) : Host.Outcome State Fault Refusal := event s (s.monwaitTimeout ctx lane)
/-- MONITOR_RECHECK (R203). -/
def execMonitorRecheck (ctx lane : Nat) (s : State) : Host.Outcome State Fault Refusal := event s (s.monitorRead ctx lane)

/-! Warps and blocks (04_control.md, 17_system.md). -/

/-- WARP_END (R73). -/
def execWarpEnd (ctx : Nat) (s : State) : Host.Outcome State Fault Refusal := event s (s.warpEnd ctx)
/-- SUCCESSOR_START (R75). -/
def execSuccessorStart (block : Nat) (s : State) : Host.Outcome State Fault Refusal := event s (s.startSuccessor block)
/-- BLOCK_RELAUNCH (R161). -/
def execBlockRelaunch (launch core : Nat) (s : State) : Host.Outcome State Fault Refusal := event s (s.relaunchBlock launch core)
/-- REDUCTION_HOME_FAILURE (R218). -/
def execReductionHomeFailure (i : Nat) (s : State) : Host.Outcome State Fault Refusal := event s (s.homeFailure i)

/-! Translation (07_memory.md). -/

/-- SIDE_LOG_REPLAY (R157). -/
def execSideLogReplay (ctx : Nat) (s : State) : Host.Outcome State Fault Refusal := event s (s.replay ctx)
/-- NOTICE_REPOST (R155). -/
def execNoticeRepost (die : Nat) (s : State) : Host.Outcome State Fault Refusal := event s (onDie die (s.repost die))
/-- INVAL_PAGE (R153). -/
def execInvalPage (die vpn : Nat) (s : State) : Host.Outcome State Fault Refusal := event s (onDie die (some (s.byFirmware die 0x100008 (s.invalPage die vpn))))
/-- INVAL_ALL (R153). -/
def execInvalAll (die : Nat) (s : State) : Host.Outcome State Fault Refusal := event s (onDie die (some (s.byFirmware die 0x100008 (s.invalAll die))))
/-- RESUME (R155). -/
def execResume (die vpn : Nat) (s : State) : Host.Outcome State Fault Refusal := event s (onDie die (some (s.byFirmware die 0x100010 (s.resumePage die vpn))))
/-- RESUME_REJECT (R155). -/
def execResumeReject (die vpn : Nat) (s : State) : Host.Outcome State Fault Refusal := event s (onDie die (some (s.byFirmware die 0x100010 (s.rejectPage die vpn))))

/-! Engines (11_matrix.md to 16_encoder.md). -/

/-- COPY_ENGINE_START (R292). -/
def execCopyEngineStart (op : Nat) (s : State) : Host.Outcome State Fault Refusal := event s (s.startCopy op)
/-- MATRIX_COMMAND_PERFORM (R226). -/
def execMatrixCommandPerform (a : MatrixAct) (s : State) : Host.Outcome State Fault Refusal := event s (s.startMatrix a.op a.core)
/-- GRAMMAR_COMMAND_START (R249). -/
def execGrammarCommandStart (op : Nat) (s : State) : Host.Outcome State Fault Refusal := event s (s.startGrammar op)
/-- GRAMMAR_HOLD_BREAK (R257). -/
def execGrammarHoldBreak (cluster : Nat) (s : State) : Host.Outcome State Fault Refusal :=
  event s (if cluster < 16 then s.breakHold cluster else none)
/-- RING_CLAIM_GRANT (R301). -/
def execRingClaimGrant (op : Nat) (s : State) : Host.Outcome State Fault Refusal := event s (s.grantClaim op)
/-- ENCODER_COMMAND_START (R345). -/
def execEncoderCommandStart (op : Nat) (s : State) : Host.Outcome State Fault Refusal := event s (s.startEncoder op)

/-! The lens (13_spawn.md). -/

/-- SPAWN_ENTRY_ELIGIBLE (R274). -/
def execSpawnEntryEligible (entry : Nat) (s : State) : Host.Outcome State Fault Refusal := event s (s.entryEligible entry)
/-- FULL_WARP (R276). -/
def execFullWarp (cluster launch entry : Nat) (s : State) : Host.Outcome State Fault Refusal := event s (s.fullWarp cluster launch entry)
/-- AGE_FLUSH (R276). -/
def execAgeFlush (cluster launch entry : Nat) (s : State) : Host.Outcome State Fault Refusal := event s (s.ageFlush cluster launch entry)
/-- IDLE_FLUSH (R276). -/
def execIdleFlush (cluster : Nat) (s : State) : Host.Outcome State Fault Refusal := event s (s.idleFlush cluster)
/-- SPILL_RETURN (R270). -/
def execSpillReturn (cluster launch : Nat) (s : State) : Host.Outcome State Fault Refusal := event s (s.spillReturn cluster launch)
/-- CHILD_WARP_ADMIT (R277). -/
def execChildWarpAdmit (cluster core : Nat) (s : State) : Host.Outcome State Fault Refusal := event s (s.admitChild cluster core)
/-- EVICTION (R285). -/
def execEviction (cluster launch : Nat) (s : State) : Host.Outcome State Fault Refusal := event s (s.evict cluster launch)
/-- EVICTED_WARP_RESTORE (R287). -/
def execEvictedWarpRestore (ctx core : Nat) (s : State) : Host.Outcome State Fault Refusal := event s (s.restoreWarp ctx core)

/-! The fabric (15_fabric.md). -/

/-- FABRIC_PACKET_ARRIVAL (R322): a peer's request is performed here. -/
def execFabricPacketArrival (port : Nat) (p : Packet) (s : State) : Host.Outcome State Fault Refusal := event s (s.packetArrival port p)
/-- FABRIC_ACK (R325). -/
def execFabricAck (op : Nat) (r : Reply) (s : State) : Host.Outcome State Fault Refusal := event s (s.fabricAck op r)
/-- RSTM_COMMIT_MESSAGE (R328). -/
def execRstmCommitMessage (i : Nat) (s : State) : Host.Outcome State Fault Refusal := event s (s.commitStaged i)
/-- FABRIC_RETRANSMIT (R320). -/
def execFabricRetransmit (die peer : Nat) (s : State) : Host.Outcome State Fault Refusal := event s (onDie die (s.retransmit die peer))
/-- CONNECTION_DEAD (R320). -/
def execConnectionDead (die peer : Nat) (s : State) : Host.Outcome State Fault Refusal := event s (onDie die (s.connectionDead die peer))
/-- COLLECTIVE_ENGINE_START (R331). -/
def execCollectiveEngineStart (die : Nat) (s : State) : Host.Outcome State Fault Refusal := event s (onDie die (s.startColl die))
/-- COLL_SEND (R331). -/
def execCollSend (die : Nat) (s : State) : Host.Outcome State Fault Refusal := event s (onDie die (s.collSend die))
/-- COLL_RECEIVE (R331). -/
def execCollReceive (die : Nat) (s : State) : Host.Outcome State Fault Refusal := event s (onDie die (s.collReceive die))
/-- COLL_TIMEOUT (R332). -/
def execCollTimeout (die : Nat) (s : State) : Host.Outcome State Fault Refusal := event s (onDie die (s.collTimeout die))
/-- DIE_LINK_MODULE_FAIL (R317). -/
def execDieLinkModuleFail (die modul : Nat) (s : State) : Host.Outcome State Fault Refusal := event s (onDie die (s.linkModuleFail die modul))

/-! Hearth (18_launch.md). -/

/-- LAUNCH_QUEUE_APPEND (R377). -/
def execLaunchQueueAppend (q : Nat) (record : List Byte) (s : State) : Host.Outcome State Fault Refusal := event s (s.appendRecord q record)
/-- QCTL_WRITE (R377). -/
def execQctlWrite (q : Nat) (value : W64) (s : State) : Host.Outcome State Fault Refusal :=
  event s (if q < 64 then some (s.byFirmware 0 (qReg q 1) (s.qctlWrite q value)) else none)
/-- LAUNCH_COPY (R378). -/
def execLaunchCopy (q : Nat) (s : State) : Host.Outcome State Fault Refusal := event s (s.launchCopy q)
/-- HEARTH_EVALUATION (R381). -/
def execHearthEvaluation (place : List Nat) (s : State) : Host.Outcome State Fault Refusal := event s (some (s.evaluate place))
/-- LAUNCH_COMPLETE (R390). -/
def execLaunchComplete (launch : Nat) (s : State) : Host.Outcome State Fault Refusal := event s (s.launchComplete launch)
/-- CHIMNEY_HELD_RELEASE (R392). -/
def execChimneyHeldRelease (c : Nat) (s : State) : Host.Outcome State Fault Refusal := event s (s.heldRelease c)
/-- CHIMNEY_TIME_TRIGGER (R392). -/
def execChimneyTimeTrigger (c : Nat) (s : State) : Host.Outcome State Fault Refusal := event s (s.chimneyTime c)
/-- HCANCEL (R393). -/
def execHcancel (tag : W64) (s : State) : Host.Outcome State Fault Refusal := event s (some (s.byFirmware 0 0x140C20 (s.cancel tag)))
/-- HKEYFREE (R385). -/
def execHkeyfree (key : W32) (s : State) : Host.Outcome State Fault Refusal := event s (some (s.byFirmware 0 0x140C28 (s.keyFree key)))

/-! Debugging (17_system.md, 19_device.md R405). -/

/-- DEBUG_HALT (R369). -/
def execDebugHalt (dop mask buf arg : W64) (s : State) : Host.Outcome State Fault Refusal := event s (s.debugOp 0 dop mask buf arg)
/-- DEBUG_RESUME (R369). -/
def execDebugResume (dop mask buf arg : W64) (s : State) : Host.Outcome State Fault Refusal := event s (s.debugOp 1 dop mask buf arg)
/-- DEBUG_STEP (R370). -/
def execDebugStep (dop mask buf arg : W64) (s : State) : Host.Outcome State Fault Refusal := event s (s.debugOp 2 dop mask buf arg)
/-- BPSET (R405). -/
def execBpset (dop mask buf arg : W64) (s : State) : Host.Outcome State Fault Refusal := event s (s.debugOp 3 dop mask buf arg)
/-- BPCLR (R405). -/
def execBpclr (dop mask buf arg : W64) (s : State) : Host.Outcome State Fault Refusal := event s (s.debugOp 4 dop mask buf arg)
/-- DEBUG_READ (R405). -/
def execDebugRead (dop mask buf arg : W64) (s : State) : Host.Outcome State Fault Refusal := event s (s.debugOp 5 dop mask buf arg)
/-- DEBUG_WRITE (R371). -/
def execDebugWrite (dop mask buf arg : W64) (s : State) : Host.Outcome State Fault Refusal := event s (s.debugOp 6 dop mask buf arg)
/-- DEBUG_SAMPLE (R369). -/
def execDebugSample (dop mask buf arg : W64) (s : State) : Host.Outcome State Fault Refusal := event s (s.debugOp 7 dop mask buf arg)
/-- DEBUG_GRANT (R405). -/
def execDebugGrant (g : Nat) (tag : W64) (s : State) : Host.Outcome State Fault Refusal := event s (s.grant g tag)
/-- DEBUG_REVOKE (R372). -/
def execDebugRevoke (g : Nat) (s : State) : Host.Outcome State Fault Refusal := event s (s.ungrant g)

/-! The device (19_device.md). -/

/-- ACCTL_ENABLE (R400). -/
def execAcctlEnable (die : Nat) (s : State) : Host.Outcome State Fault Refusal := event s (onDie die (some (s.byFirmware die 0x19FFF8 (s.acctl die 1))))
/-- ACCTL_LOCK (R400). -/
def execAcctlLock (die : Nat) (s : State) : Host.Outcome State Fault Refusal := event s (onDie die (some (s.byFirmware die 0x19FFF8 (s.acctl die 2))))
/-- ACSYNC (R401). -/
def execAcsync (die : Nat) (s : State) : Host.Outcome State Fault Refusal := event s (onDie die (some (s.acsync die)))
/-- CAP0_WRITE (R402). -/
def execCap0Write (value : W64) (s : State) : Host.Outcome State Fault Refusal := event s (some (s.byFirmware 0 0x1A0000 (s.writeCap0 value)))
/-- ISLCLK_WRITE (R395). -/
def execIslclkWrite (island : Nat) (value : W64) (s : State) : Host.Outcome State Fault Refusal :=
  event s (if island < 16 then some (s.byFirmware 0 (0x160000 + 8 * island) (s.writeClock island value)) else none)
/-- CLOCK_CHANGE_EFFECT (R395). -/
def execClockChangeEffect (island : Nat) (s : State) : Host.Outcome State Fault Refusal := event s (s.clockEffect island)
/-- PWRLIM_WRITE (R395). -/
def execPwrlimWrite (value : W64) (s : State) : Host.Outcome State Fault Refusal := event s (some (s.byFirmware 0 0x160100 (s.writeLimit value)))
/-- CURRENT_SAMPLE (R396). -/
def execCurrentSample (amps tj watts : Nat) (s : State) : Host.Outcome State Fault Refusal := event s (some (s.currentSample amps tj watts))
/-- THERMAL_TRIP (R396). -/
def execThermalTrip (tj : Nat) (s : State) : Host.Outcome State Fault Refusal := always s (s.thermalTrip tj)
/-- CONNRESET (R403). -/
def execConnreset (die peer : Nat) (s : State) : Host.Outcome State Fault Refusal := event s (onDie die (some (s.byFirmware die 0x1C0020 (s.connreset die peer))))
/-- DEVICE_RESET (R397): possible at any moment. -/
def execDeviceReset (s : State) : Host.Outcome State Fault Refusal := .next s.deviceReset
/-- PLDM_FIRMWARE_UPDATE (R397): the image takes effect at the next reset. -/
def execPldmFirmwareUpdate (img : Image) (s : State) : Host.Outcome State Fault Refusal := always s (some { s with newImage := some img })
/-- PLDM_MONITORING (R399). -/
def execPldmMonitoring (sensor : Nat) (s : State) : Host.Outcome State Fault Refusal :=
  always s ((s.sensor sensor).map fun x => s.answer [x])
/-- SPDM (R398). -/
def execSpdm (s : State) : Host.Outcome State Fault Refusal := always s (some (s.answer s.spdmAnswer))
/-- REGISTER_WRITE (R3). -/
def execRegisterWrite (master die offset : Nat) (value : W64) (s : State) : Host.Outcome State Fault Refusal :=
  event s (s.masterWrite master die offset value)
/-- APPLICATION_CORE_ACCESS (R207). -/
def execApplicationCoreAccess (a : AppAccess) (s : State) : Host.Outcome State Fault Refusal := event s (s.appAccess a)
/-- SOFT_ERROR (R158). -/
def execSoftError (t : ErrTarget) (corrected : Bool) (s : State) : Host.Outcome State Fault Refusal := event s (s.softError t corrected)

end Sys2Proof.Machine
end

