-- ==== Sys2Proof/Machine/FabricOps.lean ====
section
/-! DEFINITION. Class 0xC as a warp issues it (15_fabric.md R321 to R333, 08_ordering.md R182): remote loads, stores
and atomics, bulk and multicast copies, collectives, the fabric fence, the collective share. -/

namespace Sys2Proof.Machine

/-- TY of a fabric element instruction: X0[5:3]. -/
def Env.fTy (v : Env) : Nat := nbits v.x 5 3

/-- The peer pair that X0[15:8] names (R321). -/
def Env.pair (v : Env) : W64 × W64 :=
  match Reg.ofByte (nbits v.x 15 8) with
  | .s n => (v.c.rdS n.val, v.c.rdS (n.val + 1))
  | _ => (0, 0)

/-- The remote address of a lane (R324). -/
def Env.fAddr (v : Env) (l : Nat) : Nat :=
  (v.rd64 v.f.a l + (v.rd32 v.f.b (v.at' l)).setWidth 64 * BitVec.ofNat 64 (fTyBytes v.fTy)
    + (BitVec.ofNat 16 (nbits v.x 31 16)).signExtend 64).toNat

/-- The lanes' accesses with a data operand (R323: guards follow R19). -/
def Env.fAccs (v : Env) (data : Reg) : List Acc :=
  v.takers.map fun l => { lane := l, addr := v.fAddr l, x := (v.rd (fTyBytes v.fTy == 8) data (v.at' l), 0), y := 0 }

/-- Dispatch a fabric command. -/
def Env.fabric (v : Env) (d : Dst) (active : Bool) (c : FCmd) : Res := v.produceRA 3 d active (.fabric c)

/-- RLD (R324). -/
def Env.rld (v : Env) : Res :=
  v.fabric (v.dst (fTyBytes v.fTy / 4) 1) (!v.takers.isEmpty) (.rld v.fTy v.pair.1 v.pair.2 (v.fAccs .zero))

/-- RST (R325): its flag increment is performed with no active lane too (R19). -/
def Env.rst (v : Env) : Res := v.fabric .none true (.rst v.fTy v.pair.1 v.pair.2 (v.fAccs v.f.d))

/-- RATOM (R326). -/
def Env.ratom (v : Env) : Res :=
  v.fabric (v.dst (fTyBytes v.fTy / 4) 1) true (.ratom v.f.sub.val v.fTy v.pair.1 v.pair.2 (v.fAccs v.f.c))

/-- RCPY and RSTM (R327, R328). -/
def Env.bulk (v : Env) (multi : Bool) : Res :=
  let a := v.uni v.f.a
  let b := v.uni v.f.b
  let c := v.uni v.f.c
  v.fabric .none v.lowG (if multi then .rstm (nbits v.x 7 6) v.pair.1 v.pair.2 a b c [] else .rcpy (nbits v.x 7 6) v.pair.1 v.pair.2 a b c)

/-- COLL (R330). -/
def Env.coll (v : Env) (op : Nat) : Res := v.fabric .none v.lowG (.coll op (v.uni v.f.a) [])

/-- The launch's share on its die as the run's earlier COLLCFGs leave it. -/
def Env.shareNow (v : Env) : Nat :=
  v.r.effs.foldl (fun x e => match e.act with | .collcfg n => n | _ => x)
    (((v.s.launch? v.c.launch).map fun l => nth l.share v.c.loc.die 8).getD 8)

/-- COLLCFG (R333). -/
def Env.collcfg (v : Env) : Res :=
  let x := (v.uniI v.f.a).toNat
  if !v.lowG then .ok Out.nil
  else if x == 0 || 16 < x then .trap (v.plainTrap cIllegalOperand)
  else .ok ((v.status (BitVec.ofNat 64 v.shareNow)).also [.collcfg x])

/-- RLD (R324). -/
def execRld (f : Fields) (s : State) := execIsa .rld f Env.rld s
/-- RST (R325). -/
def execRst (f : Fields) (s : State) := execIsa .rst f Env.rst s
/-- RSTM (R328). -/
def execRstm (f : Fields) (s : State) := execIsa .rstm f (fun v => v.bulk true) s
/-- RATOM (R326). -/
def execRatom (f : Fields) (s : State) := execIsa .ratom f Env.ratom s
/-- RCPY (R327). -/
def execRcpy (f : Fields) (s : State) := execIsa .rcpy f (fun v => v.bulk false) s
/-- COLL.AR (R331). -/
def execCollAr (f : Fields) (s : State) := execIsa .collAr f (fun v => v.coll 0) s
/-- COLL.RS (R331). -/
def execCollRs (f : Fields) (s : State) := execIsa .collRs f (fun v => v.coll 1) s
/-- COLL.AG (R331). -/
def execCollAg (f : Fields) (s : State) := execIsa .collAg f (fun v => v.coll 2) s
/-- RFENCE (R182). -/
def execRfence (f : Fields) (s : State) := execIsa .rfence f (fun v => v.produceRA 3 .none v.lowG .rfence) s
/-- COLLCFG (R333). -/
def execCollcfg (f : Fields) (s : State) := execIsa .collcfg f Env.collcfg s

end Sys2Proof.Machine
end

