-- ==== Sys2Proof/Machine/FloatOps.lean ====
section
/-! DEFINITION. Classes 0x3 and 0x4 (06_float.md R111 to R126): arithmetic, conversions, scaling and special functions,
each over the format operations of Machine/Float.lean. -/

namespace Sys2Proof.Machine

/-- The low 32 bits of A, B (or IMM32) and C in a lane, as patterns. -/
def Env.fA (v : Env) (l : Nat) : Nat := (v.rd32 v.f.a l).toNat
/-- Source B. -/
def Env.fB (v : Env) (l : Nat) : Nat := (if v.isImm then v.imm else v.rd32 v.f.b l).toNat
/-- Source C. -/
def Env.fC (v : Env) (l : Nat) : Nat := (v.rd32 v.f.c l).toNat

/-- A 32-bit result computed lane by lane from patterns (R107, R108). -/
def Env.float (v : Env) (g : Nat → Nat → Nat → Nat) : Res :=
  v.alu false fun l => BitVec.ofNat 64 (g (v.fA l) (v.fB l) (v.fC l))

/-- R113: 0 FADD, 1 FSUB, 2 FMUL, 3 FFMA. -/
def Env.fArith (v : Env) (op : Nat) : Res := v.float fun a b c => lanewise v.f.ft (farith op v.f.rm) a b c

/-- R114. -/
def Env.fMinMax (v : Env) (mx : Bool) : Res :=
  v.float fun a b c => lanewise v.f.ft (fun ct x y _ => fminmax mx (v.f.sub.val == 1) ct x y) a b c

/-- R115. -/
def Env.fCompare (v : Env) : Res :=
  let g := fun l => fcmp v.f.sub.val v.f.ft (v.fA l) (v.fB l)
  if v.f.m.getLsbD 5 then v.aluP g else v.alu false fun l => boolWord (g l)

/-- R120: a 64-bit integer type fills a pair. -/
def Env.toInteger (v : Env) : Res := v.alu (2 ≤ v.f.hiTy) fun l => f2i v.f.rm v.f.hiTy v.f.ft (v.fA l)

/-- R121. -/
def Env.fromInteger (v : Env) : Res :=
  let n := if 2 ≤ v.f.hiTy then 64 else 32
  v.alu false fun l => BitVec.ofNat 64 (i2f v.f.rm v.f.ft (extN n (v.f.hiTy % 2 == 1) (v.rd (n == 64) v.f.a l)))

/-- FADD (R113). -/
def execFadd (f : Fields) (s : State) := execIsa .fadd f (fun v => v.fArith 0) s
/-- FSUB (R113). -/
def execFsub (f : Fields) (s : State) := execIsa .fsub f (fun v => v.fArith 1) s
/-- FMUL (R113). -/
def execFmul (f : Fields) (s : State) := execIsa .fmul f (fun v => v.fArith 2) s
/-- FFMA (R113). -/
def execFfma (f : Fields) (s : State) := execIsa .ffma f (fun v => v.fArith 3) s
/-- FMIN (R114). -/
def execFmin (f : Fields) (s : State) := execIsa .fmin f (fun v => v.fMinMax false) s
/-- FMAX (R114). -/
def execFmax (f : Fields) (s : State) := execIsa .fmax f (fun v => v.fMinMax true) s
/-- FCMP (R115). -/
def execFcmp (f : Fields) (s : State) := execIsa .fcmp f Env.fCompare s
/-- FCLASS (R116). -/
def execFclass (f : Fields) (s : State) := execIsa .fclass f (fun v => v.float fun a _ _ => fclass f.ft a) s
/-- FRND (R117). -/
def execFrnd (f : Fields) (s : State) := execIsa .frnd f (fun v => v.float fun a _ _ => frnd f.rm f.ft a) s
/-- FDOT2 (R118). -/
def execFdot2 (f : Fields) (s : State) := execIsa .fdot2 f (fun v => v.float fun a b c => fdot2 f.rm (ftCt f.ft) a b c) s
/-- FCVT (R119). -/
def execFcvt (f : Fields) (s : State) := execIsa .fcvt f (fun v => v.float fun a _ _ => fcvt f.rm f.ft f.hiTy a) s
/-- F2I (R120). -/
def execF2i (f : Fields) (s : State) := execIsa .f2i f Env.toInteger s
/-- I2F (R121). -/
def execI2f (f : Fields) (s : State) := execIsa .i2f f Env.fromInteger s
/-- FPACK (R122). -/
def execFpack (f : Fields) (s : State) :=
  execIsa .fpack f (fun v => v.float fun a b c => fpack f.rm f.ft (f.m.getLsbD 5) a b c) s
/-- FUNPK (R123). -/
def execFunpk (f : Fields) (s : State) :=
  execIsa .funpk f (fun v => v.float fun a _ _ => funpk f.ft (nbits f.m.toNat 6 5) a) s
/-- FSCL (R124). -/
def execFscl (f : Fields) (s : State) :=
  execIsa .fscl f (fun v => v.float fun a b _ => fscl (f.m.getLsbD 7) f.rm f.ft a (BitVec.ofNat 32 b)) s
/-- FRCP (R125). -/
def execFrcp (f : Fields) (s : State) := execIsa .frcp f (fun v => v.float fun a _ _ => frcp f.rm f.ft a) s
/-- FRSQ (R125, R126). -/
def execFrsq (f : Fields) (s : State) := execIsa .frsq f (fun v => v.float fun a _ _ => special 0 0x47 f.ft a) s
/-- FSQRT (R125). -/
def execFsqrt (f : Fields) (s : State) := execIsa .fsqrt f (fun v => v.float fun a _ _ => fsqrt f.rm f.ft a) s
/-- FEX2 (R125, R126). -/
def execFex2 (f : Fields) (s : State) := execIsa .fex2 f (fun v => v.float fun a _ _ => special 1 0x49 f.ft a) s
/-- FLG2 (R125, R126). -/
def execFlg2 (f : Fields) (s : State) := execIsa .flg2 f (fun v => v.float fun a _ _ => special 2 0x4A f.ft a) s
/-- FSIN (R125, R126). -/
def execFsin (f : Fields) (s : State) := execIsa .fsin f (fun v => v.float fun a _ _ => special 3 0x4B f.ft a) s
/-- FCOS (R125, R126). -/
def execFcos (f : Fields) (s : State) := execIsa .fcos f (fun v => v.float fun a _ _ => special 4 0x4C f.ft a) s
/-- FTANH (R125, R126). -/
def execFtanh (f : Fields) (s : State) := execIsa .ftanh f (fun v => v.float fun a _ _ => special 5 0x4D f.ft a) s

end Sys2Proof.Machine
end

