-- ==== Sys2Proof/Machine/Grammar.lean ====
section
/-! DEFINITION. Class 0x9 as a warp issues it (12_grammar.md R258 to R262): commands capture their operands here and
are performed by the engine; GABORT acts at commit. -/

namespace Sys2Proof.Machine

/-- Dispatch a grammar command (R249). -/
def Env.grammar (v : Env) (c : GCmd) : Res := v.produceRA 2 .none v.lowG (.grammar c)

/-- GMV and GMVA (R258, R260). -/
def Env.gmv (v : Env) (add : Bool) : Res :=
  v.grammar (.mv add (v.f.m.getLsbD 7) (v.x.testBit 12) (2 ^ nbits v.x 5 3) (nbits v.x 9 8) (nbits v.x 11 10)
    (v.uni v.f.a) (v.uni v.f.b) (v.uni v.f.c))

/-- GBIND (R259). -/
def execGbind (f : Fields) (s : State) :=
  execIsa .gbind f (fun v => v.grammar (.bind (v.x.testBit 12) (v.uni f.a) (v.uni f.b))) s
/-- GMV (R260). -/
def execGmv (f : Fields) (s : State) := execIsa .gmv f (fun v => v.gmv false) s
/-- GMVA (R260). -/
def execGmva (f : Fields) (s : State) := execIsa .gmva f (fun v => v.gmv true) s
/-- GRVRD (R261). -/
def execGrvrd (f : Fields) (s : State) :=
  execIsa .grvrd f (fun v => v.grammar (.grvrd (f.m.getLsbD 7) (nbits v.x 4 3) (v.uni f.a) (v.uni f.b) (v.uni f.c))) s
/-- GABORT (R262). -/
def execGabort (f : Fields) (s : State) :=
  execIsa .gabort f (fun v => .ok (if v.lowG then Out.effect [.gabort] else Out.nil)) s

end Sys2Proof.Machine
end

