-- ==== Sys2Proof/Machine/IntLane.lean ====
section
/-! DEFINITION. Classes 0x1 and 0x2 (05_integer_lane.md R79 to R101): integer, address, lane and predicate
instructions. Each meaning is the open run's instruction (execIsa) with the computation given here. -/

namespace Sys2Proof.Machine

/-- A computation from A and B at TY (R80, R81). -/
def Env.binary (v : Env) (g : W64 → W64 → W64) : Res :=
  let w := v.f.tyW == 2
  v.alu w fun l => g (v.rd w v.f.a l) (v.rdB w (tySigned v.f.ty) l)

/-- A computation from A at TY. -/
def Env.unary (v : Env) (g : W64 → W64) : Res :=
  let w := v.f.tyW == 2
  v.alu w fun l => g (v.rd w v.f.a l)

/-- R83. -/
def Env.multiply (v : Env) (add : Bool) : Res :=
  let w := v.f.tyW == 2
  let wide := w || v.f.sub == 2
  v.alu wide fun l =>
    mulOp v.f.ty v.f.sub.val (v.rd w v.f.a l) (v.rdB w (tySigned v.f.ty) l) (if add then v.rd wide v.f.c l else 0)

/-- R86: the shift count is b[31:0]. -/
def Env.shift (v : Env) (op : Nat) : Res :=
  let w := v.f.tyW == 2
  v.alu w fun l => shiftOp op v.f.ty (v.rdB w false l).toNat.toUInt32.toNat (v.rd w v.f.a l)

/-- R88: the control operand is 32 bits at every width. -/
def Env.bfx (v : Env) : Res :=
  let w := v.f.tyW == 2
  v.alu w fun l => bfxOp v.f.ty (v.rd w v.f.a l) (if v.isImm then v.imm else v.rd32 v.f.b l)

/-- R88. -/
def Env.bfi (v : Env) : Res :=
  let w := v.f.tyW == 2
  v.alu w fun l => bfiOp v.f.ty (v.rd w v.f.a l) (v.rdB w (tySigned v.f.ty) l) (v.rd32 v.f.c l)

/-- R89. -/
def Env.compare (v : Env) : Res :=
  let w := v.f.tyW == 2
  let g := fun l => icmp v.f.sub.val v.f.ty (v.rd w v.f.a l) (v.rdB w (tySigned v.f.ty) l)
  if v.f.m.getLsbD 3 then v.aluP g else v.alu w fun l => boolWord (g l)

/-- R90. An s destination reads the predicate in the lowest lane, and so does an e destination with uniform sources (log
entry 75). -/
def Env.select (v : Env) : Res :=
  let w := v.f.tyW == 2
  v.alu w fun l =>
    if v.c.rdP v.f.c.byte l != v.f.m.getLsbD 3 then v.rd w v.f.a l else v.rdB w (tySigned v.f.ty) l

/-- The grid coordinate i of a gang's linear index, GANGX fastest (R381). -/
def gridCoord (r : Rec) (lin i : Nat) : Nat :=
  match i with
  | 0 => lin % r.gx
  | 1 => lin / r.gx % r.gy
  | _ => lin / (r.gx * r.gy)

/-- A special's value in a lane (Table 5.3; R279 for child warps, R75 for successors). -/
def Env.special (v : Env) (code l : Nat) : Nat :=
  let c := v.c
  let seq := c.kind == .seq
  match v.s.launch? c.launch with
  | none => 0
  | some la =>
    let r := la.record
    let child := match v.s.block? c.block with
      | some b => b.child && !seq
      | none => false
    let lin := ((v.s.gang? c.gang).map fun g => g.linear).getD 0
    let index := ((v.s.block? c.block).map fun b => b.index).getD 0
    match code with
    | 0x00 => if seq then 0 else l
    | 0x01 => if seq then 0 else l / 4
    | 0x02 => if seq then 1 else c.width
    | 0x03 => if seq then 0 else if c.kind == .slot then 16 else c.warp
    | 0x04 => if seq || child then 1 else r.warps
    | 0x05 => if seq then 0 else if child then 0xFFFFFFFF else index
    | 0x06 => if child then 0 else r.blocks
    | 0x07 => if child then 0xFFFFFFFF else gridCoord r lin 0
    | 0x08 => if child then 0xFFFFFFFF else gridCoord r lin 1
    | 0x09 => if child then 0xFFFFFFFF else gridCoord r lin 2
    | 0x0A => r.gx
    | 0x0B => r.gy
    | 0x0C => r.gz
    | 0x0D => if seq then 24 else c.loc.core
    | 0x0E => c.loc.cluster
    | 0x0F => c.loc.die
    | 0x10 => r.tag.toNat
    | 0x11 => if seq then 0 else (c.lane l).gen
    | 0x12 => if seq then 0 else c.npay
    | 0x13 => if seq then c.slotNo else 0
    | _ => if seq then 1 else if c.kind == .slot then 2 else 0

/-- Specials that differ from lane to lane (LANE, QUAD, GEN). -/
def perLane (code : Nat) : Bool := code == 0x00 || code == 0x01 || code == 0x11

/-- R92: a per-lane special goes to a v or e destination lane by lane, to s from the lowest lane. -/
def Env.movs (v : Env) : Res :=
  let code := nbits v.m 5 0
  let wide := code == 0x10
  let g := fun l => BitVec.ofNat 64 (v.special code l)
  match v.f.d with
  | .s _ => .ok (if v.lowG then v.putOnce wide [] (g v.low) else Out.nil)
  | .e _ =>
    .ok (if perLane code then v.put wide v.parts g else if v.lowG then v.putOnce wide [] (g v.low) else Out.nil)
  | _ => .ok (v.put wide v.parts g)

/-- R93. -/
def Env.lea (v : Env) : Res :=
  v.alu true fun l =>
    v.rd64 v.f.a l + (((if v.isImm then v.imm else v.rd32 v.f.b l).setWidth 64) <<< v.f.ty) + v.rd64 v.f.c l

/-- R95: any function of three predicates, per participant. -/
def Env.plop (v : Env) : Res :=
  let bit := fun n l => bitOf (v.c.rdP n l)
  .ok (Out.regs (v.parts.map fun l =>
    Held.p v.f.d.byte l (v.f.m.getLsbD (4 * bit v.f.a.byte l + 2 * bit v.f.b.byte l + bit v.f.c.byte l))))

/-- R96, BALLOT: nothing is written with no participant (R19). -/
def Env.ballot (v : Env) : Res :=
  .ok (if v.parts.isEmpty then Out.nil else v.putOnce true v.parts (maskOf (v.parts.filter fun l => v.c.rdP v.f.a.byte l)))

/-- R96, VOTE: 0 ALL, 1 ANY, 2 UNI over the participants. -/
def Env.vote (v : Env) : Res :=
  let ps := v.parts
  let g := fun l => v.c.rdP v.f.a.byte l
  let r := match v.f.sub.val with
    | 0 => ps.all g
    | 1 => ps.any g
    | _ => ps.all g || ps.all fun l => !g l
  if v.f.m.getLsbD 3 then .ok (Out.regs (ps.map fun l => Held.p v.f.d.byte l r))
  else .ok (v.putOnce false ps (boolWord r))

/-- A as a class 0x2 source of one participant: an e source of an all-uniform instruction is read in the lowest lane (R94). -/
def Env.part (v : Env) (w : Bool) (l : Nat) : W64 := if v.uniform then v.rd w v.f.a v.low else v.rd w v.f.a l

/-- Read A for a lane exchange (R94): in a lane of the run its current value, elsewhere the committed v value, and zero
for an e source. A uniform A gives its value of the lowest lane. -/
def Env.exchange (v : Env) (w : Bool) (l : Nat) : W64 :=
  match v.f.a with
  | .e _ => if v.r.lanes.contains l then v.part w l else 0
  | _ => v.part w l

/-- R97. Participants are taken lane by lane, and they alone have the destination written, an e destination of a form without a v
operand too; the same in QSWAP, QBC and SCAN (log entry 95). -/
def Env.shfl (v : Env) : Res := .ok (v.put (v.f.tyW == 2) v.parts fun l => v.part (v.f.tyW == 2) (v.shflFrom l))

/-- R98: a partner that does not take part supplies its run-entry v value, or zero for an e source (R76). -/
def Env.quad (v : Env) : Res :=
  let w := v.f.tyW == 2
  let ps := v.parts
  .ok (v.put w ps fun l =>
    let j := v.partner l
    match v.f.a with
    | .e _ => if ps.contains j then v.part w j else 0
    | _ => v.part w j)

/-- R99, REDUX: nothing is written with no participant. A form without a v operand has its guard tested lane by lane, as the other
forms of class 0x2 have (R94; log entry 95). -/
def Env.redux (v : Env) : Res :=
  let w := v.f.tyW == 2
  let ps := v.parts
  if ps.isEmpty then .ok Out.nil
  else .ok (v.putOnce w ps (ps.foldl (fun r l => redOp v.f.sub.val v.f.ty r (v.part w l)) (redUnit v.f.sub.val v.f.ty)))

/-- R99, SCAN: inclusive, or exclusive with M[3]. -/
def Env.scan (v : Env) : Res :=
  let w := v.f.tyW == 2
  let ps := v.parts
  let excl := v.f.m.getLsbD 3
  .ok (v.put w ps fun l =>
    (ps.filter fun j => if excl then j < l else j ≤ l).foldl
      (fun r j => redOp v.f.sub.val v.f.ty r (v.part w j)) (redUnit v.f.sub.val v.f.ty))

/-- R100, RDLANE. -/
def Env.rdlane (v : Env) : Res :=
  let w := v.f.tyW == 2
  let k := v.laneOperand
  if v.parts.isEmpty then .ok Out.nil
  else .ok (v.putOnce w v.parts (if k < v.c.width then v.exchange w k else 0))

/-- R100, WRLANE: writes one lane at commit unless it has exited or is beyond the width. -/
def Env.wrlane (v : Env) : Res :=
  let w := v.f.tyW == 2
  let k := v.laneOperand
  if v.lowG && k < v.c.width && (v.c.lane k).st != .exited then
    match v.f.d with
    | .v n =>
      let x := v.rd w v.f.a v.low
      .ok (Out.regs (Held.v n.val k (x.setWidth 32) :: (if w then [Held.v (n.val + 1) k ((x >>> 32).setWidth 32)] else [])))
    | _ => .ok Out.nil
  else .ok Out.nil

/-- R101, MATCH: the participants whose value equals the lane's; for s and e, the value of the lowest lane of the run, which
need not be a participant (log entry 77). -/
def Env.matchOp (v : Env) : Res :=
  let w := v.f.tyW == 2
  let ps := v.parts
  let m := fun l => maskOf (ps.filter fun j => v.part w j == v.part w l)
  match v.f.d with
  | .v _ => .ok (v.put true ps m)
  | _ => if ps.isEmpty then .ok Out.nil else .ok (v.putOnce true ps (m v.low))

/-- IADD (R82). -/
def execIadd (f : Fields) (s : State) := execIsa .iadd f (fun v => v.binary (addOp f.ty (f.sub == 1) false)) s
/-- ISUB (R82). -/
def execIsub (f : Fields) (s : State) := execIsa .isub f (fun v => v.binary (addOp f.ty (f.sub == 1) true)) s
/-- IMUL (R83). -/
def execImul (f : Fields) (s : State) := execIsa .imul f (fun v => v.multiply false) s
/-- IMAD (R83). -/
def execImad (f : Fields) (s : State) := execIsa .imad f (fun v => v.multiply true) s
/-- IMIN (R84). -/
def execImin (f : Fields) (s : State) := execIsa .imin f (fun v => v.binary (minOp f.ty)) s
/-- IMAX (R84). -/
def execImax (f : Fields) (s : State) := execIsa .imax f (fun v => v.binary (maxOp f.ty)) s
/-- IABS (R84). -/
def execIabs (f : Fields) (s : State) := execIsa .iabs f (fun v => v.unary (absOp f.ty (f.m.getLsbD 3))) s
/-- INEG (R84). -/
def execIneg (f : Fields) (s : State) := execIsa .ineg f (fun v => v.unary (negOp f.ty (f.m.getLsbD 3))) s
/-- AND (R85). -/
def execAndL (f : Fields) (s : State) := execIsa .andL f (fun v => v.binary (logicOp 0 f.ty)) s
/-- OR (R85). -/
def execOrL (f : Fields) (s : State) := execIsa .orL f (fun v => v.binary (logicOp 1 f.ty)) s
/-- XOR (R85). -/
def execXorL (f : Fields) (s : State) := execIsa .xorL f (fun v => v.binary (logicOp 2 f.ty)) s
/-- ANDN (R85). -/
def execAndn (f : Fields) (s : State) := execIsa .andn f (fun v => v.binary (logicOp 3 f.ty)) s
/-- ORN (R85). -/
def execOrn (f : Fields) (s : State) := execIsa .orn f (fun v => v.binary (logicOp 4 f.ty)) s
/-- XNOR (R85). -/
def execXnor (f : Fields) (s : State) := execIsa .xnor f (fun v => v.binary (logicOp 5 f.ty)) s
/-- SHL (R86). -/
def execShl (f : Fields) (s : State) := execIsa .shl f (fun v => v.shift 0) s
/-- SHR (R86). -/
def execShr (f : Fields) (s : State) := execIsa .shr f (fun v => v.shift 1) s
/-- SHA (R86). -/
def execSha (f : Fields) (s : State) := execIsa .sha f (fun v => v.shift 2) s
/-- ROL (R86). -/
def execRol (f : Fields) (s : State) := execIsa .rol f (fun v => v.shift 3) s
/-- POPC (R87). -/
def execPopc (f : Fields) (s : State) := execIsa .popc f (fun v => v.unary (bitOp 0 f.ty)) s
/-- CLZ (R87). -/
def execClz (f : Fields) (s : State) := execIsa .clz f (fun v => v.unary (bitOp 1 f.ty)) s
/-- CTZ (R87). -/
def execCtz (f : Fields) (s : State) := execIsa .ctz f (fun v => v.unary (bitOp 2 f.ty)) s
/-- BREV (R87). -/
def execBrev (f : Fields) (s : State) := execIsa .brev f (fun v => v.unary (bitOp 3 f.ty)) s
/-- BFX (R88). -/
def execBfx (f : Fields) (s : State) := execIsa .bfx f Env.bfx s
/-- BFI (R88). -/
def execBfi (f : Fields) (s : State) := execIsa .bfi f Env.bfi s
/-- ICMP (R89). -/
def execIcmp (f : Fields) (s : State) := execIsa .icmp f Env.compare s
/-- SEL (R90). -/
def execSel (f : Fields) (s : State) := execIsa .sel f Env.select s
/-- MOV (R91). -/
def execMov (f : Fields) (s : State) := execIsa .mov f (fun v => v.unary id) s
/-- Whether MOV.I32 extends its immediate to 64 bits: N = 64, or a 64-bit destination (R91). -/
def movWide (f : Fields) : Bool := f.tyW == 2 || (match f.d with | .s _ | .e _ => true | _ => false)

/-- MOV.I32 (R91): IMM32 extended by the type's signedness for a 64-bit element or destination. -/
def execMovI32 (f : Fields) (s : State) :=
  execIsa .movI32 f (fun v => v.alu (movWide f) fun l => v.rdB (movWide f) (tySigned f.ty) l) s
/-- MOV.I64 (R91). -/
def execMovI64 (f : Fields) (s : State) :=
  execIsa .movI64 f (fun v => v.alu true fun _ => match f.ext with | .f128i x => x | _ => 0) s
/-- MOVS (R92). -/
def execMovs (f : Fields) (s : State) := execIsa .movs f Env.movs s
/-- LEA (R93). -/
def execLea (f : Fields) (s : State) := execIsa .lea f Env.lea s
/-- PLOP (R95). -/
def execPlop (f : Fields) (s : State) := execIsa .plop f Env.plop s
/-- BALLOT (R96). -/
def execBallot (f : Fields) (s : State) := execIsa .ballot f Env.ballot s
/-- VOTE (R96). -/
def execVote (f : Fields) (s : State) := execIsa .vote f Env.vote s
/-- SHFL (R97). -/
def execShfl (f : Fields) (s : State) := execIsa .shfl f Env.shfl s
/-- QSWAP (R98): partner l XOR 1, 2 or 3. -/
def execQswap (f : Fields) (s : State) := execIsa .qswap f Env.quad s
/-- QBC (R98). -/
def execQbc (f : Fields) (s : State) := execIsa .qbc f Env.quad s
/-- REDUX (R99). -/
def execRedux (f : Fields) (s : State) := execIsa .redux f Env.redux s
/-- SCAN (R99). -/
def execScan (f : Fields) (s : State) := execIsa .scan f Env.scan s
/-- RDLANE (R100). -/
def execRdlane (f : Fields) (s : State) := execIsa .rdlane f Env.rdlane s
/-- WRLANE (R100). -/
def execWrlane (f : Fields) (s : State) := execIsa .wrlane f Env.wrlane s
/-- MATCH (R101). -/
def execMatchL (f : Fields) (s : State) := execIsa .matchL f Env.matchOp s

end Sys2Proof.Machine
end

