-- ==== Sys2Proof/Machine/TokenOps.lean ====
section
/-! DEFINITION. Class 0x6 (08_ordering.md R179 to R181, 09_tokens_barriers.md R190 to R203): fences, waits, token
inspection, phase barriers, block barriers, monitor waits. -/

namespace Sys2Proof.Machine

/-- An instruction of the class that acts once, if the lowest lane's guard is true (R190). -/
def Env.once (v : Env) (r : Res) : Res := if v.lowG then r else .ok Out.nil

/-- FENCE (R180). -/
def Env.fence (v : Env) : Res := .ok (if v.parts.isEmpty then Out.nil else Out.effect [.fence v.f.sub.val])

/-- WAITK (R191). -/
def Env.waitk (v : Env) : Res :=
  v.once (.ok (Out.effect [.wait (.waitk ((v.uniI v.f.a).setWidth 32) v.f.d v.pc) v.r.lanes]))

/-- TWAITK (R192): the limit is an unsigned 32-bit number of cycles. -/
def Env.twaitk (v : Env) : Res :=
  v.once (.ok (Out.effect
    [.wait (.twaitk ((v.uniI v.f.a).setWidth 32) (Fin.ofNat 8 v.f.d.byte) ((v.uni v.f.b).setWidth 32).toNat v.pc) v.r.lanes]))

/-- The state vector of all tokens (R193). -/
def Ctx.tokVector (c : Ctx) : W64 := BitVec.ofNat 64 ((List.range 32).foldl (fun n k => n + (c.rdTok k).code * 4 ^ k) 0)

/-- TKQ (R193). -/
def Env.tokenQuery (v : Env) : Res :=
  v.once (.ok (v.status (
    if v.f.m.getLsbD 5 then
      match v.c.rdTok v.token with
      | .poisoned r => BitVec.ofNat 64 r
      | _ => 0xFFFFFFFFFFFFFFFF
    else v.c.tokVector)))

/-- The space in M[1:0]. -/
def Env.space6 (v : Env) : Nat := nbits v.m 1 0

/-- Checks of an arrival before commit (R200, R34): 32 bytes, aligned, readable and writable. -/
def Env.arrival (v : Env) (base : W64) (act : Act) : Res :=
  v.write .rmw false v.space6 32 [{ lane := v.low, addr := base.toNat, x := (0, 0), y := 0 }] act

/-- TKARR (R200); its byte count is tested before its address (log entry 107). -/
def Env.tkarr (v : Env) : Res :=
  let base := v.uni v.f.a
  let bytes := v.uniI v.f.b
  v.once (if 2 ^ 48 ≤ bytes.toNat then .trap (v.plainTrap cIllegalOperand)
    else v.arrival base (.tkarr (v.f.sub == 1) v.f.d.byte v.space6 base bytes))

/-- PBARR (R200); its counts are tested before its address (log entry 107). -/
def Env.pbarr (v : Env) : Res :=
  let base := v.uni v.f.a
  let n := v.uniI v.f.b
  let bytes := v.uni v.f.c
  v.once (if 2 ^ 48 ≤ bytes.toNat || 2 ^ 24 ≤ n.toNat then .trap (v.plainTrap cIllegalOperand)
    else v.arrival base (.pbarr (v.f.sub == 1) v.space6 base n bytes))

/-- Whether a barrier of a scope may lie at an address whose checks passed or whose page is absent (R197, log entry 107). -/
def Env.placeOk (v : Env) (scope : Nat) (base : W64) : Bool :=
  match (v.s.tryAccess v.who v.space6 32 base .write false).2 with
  | .ok pa => v.s.barrierPlace (· == v.c.gang) v.space6 pa scope
  | _ => 2 ≤ scope && v.space6 == 0

/-- PBINIT (R199, R197); its counts are tested before its address (log entry 107). -/
def Env.pbinit (v : Env) : Res :=
  let base := v.uni v.f.a
  let arr := v.uni v.f.b
  let bytes := v.uni v.f.c
  let scope := nbits v.m 4 2
  v.once (if arr == 0 || 2 ^ 24 ≤ arr.toNat || 2 ^ 48 ≤ bytes.toNat then .trap (v.plainTrap cIllegalOperand)
    else
      match v.write .write false v.space6 32 [{ lane := v.low, addr := base.toNat, x := (0, 0), y := 0 }]
          (.pbinit scope v.space6 base arr bytes) with
      | .ok o => if v.placeOk scope base then .ok o else .trap (v.addrTrap cAccess [v.low] base)
      | .trap t => .trap t)

/-- PBWAIT (R201): the space lies in D. -/
def Env.pbwait (v : Env) : Res :=
  v.produce .none v.lowG (.pbwait (v.f.m.getLsbD 7) ((v.uniI v.f.b).setWidth 32) v.f.d.byte (v.uni v.f.a))

/-- BSYNC (R202). -/
def Env.bsync (v : Env) : Res := v.once (.ok (Out.effect [.wait (.bsync (Fin.ofNat 4 v.f.d.byte)) v.r.lanes]))

/-- MONWAIT (R203): checks before commit; the limit is an unsigned 32-bit number of cycles. -/
def Env.monwait (v : Env) : Res :=
  let is64 := v.f.m.getLsbD 0
  let sp := nbits v.m 2 1
  let base := v.uni v.f.a
  v.once (v.write .read false sp (if is64 then 8 else 4) [{ lane := v.low, addr := base.toNat, x := (0, 0), y := 0 }]
    (.wait (.monwait is64 sp base.toNat v.f.d (v.uni v.f.b) ((v.uni v.f.c).setWidth 32).toNat false v.pc) v.r.lanes))

/-- FENCE (R180). -/
def execFence (f : Fields) (s : State) := execIsa .fence f Env.fence s
/-- FENCEK (R181). -/
def execFencek (f : Fields) (s : State) := execIsa .fencek f (fun v => v.produceRA 2 .none v.lowG .fencek) s
/-- WAITK (R191). -/
def execWaitk (f : Fields) (s : State) := execIsa .waitk f Env.waitk s
/-- TWAITK (R192). -/
def execTwaitk (f : Fields) (s : State) := execIsa .twaitk f Env.twaitk s
/-- TKQ (R193). -/
def execTkq (f : Fields) (s : State) := execIsa .tkq f Env.tokenQuery s
/-- TKCLR (R194). -/
def execTkclr (f : Fields) (s : State) :=
  execIsa .tkclr f (fun v => v.once (.ok (Out.effect [.tkclr ((v.uniI f.a).setWidth 32)]))) s
/-- TKARR (R200). -/
def execTkarr (f : Fields) (s : State) := execIsa .tkarr f Env.tkarr s
/-- PBINIT (R199). -/
def execPbinit (f : Fields) (s : State) := execIsa .pbinit f Env.pbinit s
/-- PBARR (R200). -/
def execPbarr (f : Fields) (s : State) := execIsa .pbarr f Env.pbarr s
/-- PBWAIT (R201). -/
def execPbwait (f : Fields) (s : State) := execIsa .pbwait f Env.pbwait s
/-- BSYNC (R202). -/
def execBsync (f : Fields) (s : State) := execIsa .bsync f Env.bsync s
/-- MONWAIT (R203). -/
def execMonwait (f : Fields) (s : State) := execIsa .monwait f Env.monwait s
/-- TKPSN (R195). -/
def execTkpsn (f : Fields) (s : State) :=
  execIsa .tkpsn f (fun v => v.once (.ok (Out.effect [.tkpsn f.d.byte ((v.uniI f.a).setWidth 32)]))) s

end Sys2Proof.Machine
end

