-- ==== Sys2Proof/Machine/Matrix.lean ====
section
/-! DEFINITION. Class 0x8 as the sequencer issues it (11_matrix.md R224, R225, R234 to R243): commands capture their
operands here and are performed by MATRIX_COMMAND_PERFORM. -/

namespace Sys2Proof.Machine

/-- Dispatch a matrix command (R224). -/
def Env.matrix (v : Env) (c : MCmd) : Res := v.produceRA 2 .none v.lowG (.matrix 0 0 c)

/-- MMA and MMAS (R235, R236): the steps and the stride word. -/
def Env.mma (v : Env) (steps : Nat) (sw : W64) : Res :=
  v.matrix (.mma (v.f.sub.val.testBit 0) (v.f.sub.val.testBit 1) (nbits v.x 5 3) (nbits v.x 8 6) steps v.f.d.byte v.f.a.byte
    (v.uni v.f.b) sw)

/-- ACDRAIN (R238, R239). -/
def Env.acdrain (v : Env) (add : Bool) : Res :=
  v.matrix (.acdrain add (nbits v.x 7 6) (nbits v.x 5 3) (nbits v.x 9 8) v.f.d.byte (v.uni v.f.a) (v.uni v.f.b) (v.uni v.f.c))

/-- MXSET (R242): no bit above 23, and a block of the gang on every core named. -/
def Env.mxset (v : Env) : Res :=
  let x := v.uniI v.f.a
  v.once (
    if x.toNat / 2 ^ 24 != 0 || (List.range 24).any (fun n => x.getLsbD n && (v.s.gangBlock v.c.gang n).isNone) then
      .trap (v.plainTrap cIllegalOperand)
    else .ok (Out.effect [.mxset x]))

/-- Matrix commands of a context that are pending. -/
def State.pendingMatrix (s : State) (c : Ctx) : Nat :=
  (s.ops.filter fun o => o.ctx == c.id && (match o.cmd with | .matrix _ _ _ => true | _ => false)).length

/-- MXQ (R243), sampled when the commit begins. -/
def Env.mxq (v : Env) : Res :=
  v.once (.ok (v.status (match v.f.ty with
    | 0 => BitVec.ofNat 64 v.c.coreMask
    | 1 => v.c.seqNo.setWidth 64
    | 2 => BitVec.ofNat 64 (v.s.pendingMatrix v.c)
    | _ => maskOf ((List.range 24).filter fun n => (v.s.core ⟨v.c.loc.die, v.c.loc.cluster, n⟩).latch.isSome))))

/-- MMA (R235). -/
def execMma (f : Fields) (s : State) := execIsa .mma f (fun v => v.mma 1 0) s
/-- MMAS (R236). -/
def execMmas (f : Fields) (s : State) := execIsa .mmas f (fun v => v.mma (nbits v.x 14 9 + 1) (v.uni f.c)) s
/-- ACZERO (R237). -/
def execAczero (f : Fields) (s : State) := execIsa .aczero f (fun v => v.matrix (.aczero f.d.byte)) s
/-- ACDRAIN (R238). -/
def execAcdrain (f : Fields) (s : State) := execIsa .acdrain f (fun v => v.acdrain false) s
/-- ACDRAIN.ADD (R239). -/
def execAcdrainAdd (f : Fields) (s : State) := execIsa .acdrainAdd f (fun v => v.acdrain true) s
/-- ACLOAD (R240). -/
def execAcload (f : Fields) (s : State) :=
  execIsa .acload f (fun v => v.matrix (.acload (nbits v.x 5 3) (nbits v.x 9 8) f.d.byte (v.uni f.a) (v.uni f.b) (v.uni f.c))) s
/-- MXSET (R242). -/
def execMxset (f : Fields) (s : State) := execIsa .mxset f Env.mxset s
/-- MXQ (R243). -/
def execMxq (f : Fields) (s : State) := execIsa .mxq f Env.mxq s

end Sys2Proof.Machine
end

