-- ==== Sys2Proof/Machine/SpawnOps.lean ====
section
/-! DEFINITION. Class 0xA (13_spawn.md R271 to R275, R283, R284, R289, R290): spawning, join counters, device
launches. -/

namespace Sys2Proof.Machine

/-- A payload word of a lane. -/
def Env.payload (v : Env) (i l : Nat) : W32 := match v.f.a with | .v n => v.c.rdV (n.val + i) l | _ => 0

/-- The entry a lane offers (R273). -/
def Env.offer (v : Env) (l : Nat) (onChip : Bool) : SpawnReq :=
  { lane := l, onChip := onChip, id := 0, entry := v.spawnIdx l, p0 := v.payload 0 l, p1 := v.payload 1 l
    p2 := v.payload 2 l, p3 := v.payload 3 l, jc := (v.rd64 v.f.c l).toNat, gen := (v.c.lane l).gen + 1 }

/-- Entries that the run's earlier SPAWNs take: on chip and spilled. -/
def Run.spawned (r : Run) : Nat × Nat :=
  r.effs.foldl (fun (n : Nat × Nat) e => match e.act with
    | .spawn _ rs _ _ => (n.1 + (rs.filter fun x => x.onChip).length, n.2 + (rs.filter fun x => !x.onChip).length)
    | _ => n) (0, 0)

/-- SPAWN (R272, R273): the reservation is that of the commit, which no event precedes. -/
def Env.spawn (v : Env) : Res :=
  let jm := v.f.m.getLsbD 0
  let ps := v.parts
  let bad := ps.filter fun l => 63 < v.spawnIdx l || (v.s.spawnTarget v.who (v.spawnIdx l)).isNone
  if ps.isEmpty then .ok Out.nil
  else if !bad.isEmpty then .trap { v.plainTrap cSpawnEntry with fault := bad }
  else
    let old := ps.filter fun l => 255 ≤ (v.c.lane l).gen
    let el := ps.filter fun l => (v.c.lane l).gen < 255
    let (a0, b0) := v.r.spawned
    let (a, b) := v.s.spawnRoom v.c.launch (clusterKey v.c.loc) el.length a0 b0
    let rs := ((el.take a).map fun l => v.offer l true) ++ (((el.drop a).take b).map fun l => v.offer l false)
    let accs := (ps.filter fun l => v.rd64 v.f.c l != 0).map fun l =>
      ({ lane := l, addr := (v.rd64 v.f.c l).toNat, x := (1, 0), y := 0 } : Acc)
    let o : Out := { Out.nil with
      held := ps.map fun l => Held.p v.f.d.byte l (rs.any fun r => r.lane == l)
      acts := [.spawn jm rs old.length (el.length - rs.length)] }
    match v.s.preCheck v.who .rmw true (if jm then 3 else 0) 8 accs with
    | some (cause, xs) =>
      .trap (v.addrTrap cause (xs.map fun x => x.lane) (BitVec.ofNat 64 ((xs.head?.map fun x => x.addr).getD 0)))
    | none => .ok o

/-- The value of JCINIT and JCADD: IMM32 sign-extended where the format replaces it (R271). -/
def Env.jcValue (v : Env) : W64 := if v.isImm then v.imm.signExtend 64 else v.uni v.f.b

/-- JCINIT and JCADD (R283). -/
def Env.joinWrite (v : Env) (add : Bool) : Res :=
  let sp := if v.f.m.getLsbD 0 then 3 else 0
  let accs : List Acc := if v.lowG then [{ lane := v.low, addr := (v.uni v.f.a).toNat, x := (v.jcValue, 0), y := 0 }] else []
  v.write (if add then .rmw else .write) add sp 8 accs (if add then .reduce (.int 0 2) sp 8 accs else .store sp 8 accs)

/-- JCWAIT (R284). -/
def Env.jcwait (v : Env) : Res :=
  v.produce .none v.lowG (.jcwait (if v.f.m.getLsbD 7 then 3 else 0) (v.uni v.f.a))

/-- Warps of a launch evicted in a cluster (Table 13.4). -/
def State.evictedIn (s : State) (launch ck : Nat) : Nat :=
  (s.ctxs.filter fun c => c.launch == launch && clusterKey c.loc == ck && c.evicted).length

/-- SPQ (R289). -/
def State.spawnQuery (s : State) (c : Ctx) (sel : Nat) : Nat :=
  let ck := clusterKey c.loc
  match s.launch? c.launch with
  | none => 0
  | some l =>
    let q := l.record.quota
    let sp := l.spilled ck
    match sel with
    | 0 => s.heldEntries c.launch ck
    | 1 => sp
    | 2 =>
      if q == 0 then 0
      else (if sp == 0 then min (q - s.heldEntries c.launch ck) (4096 - s.heldAll ck) else 0) + (l.record.spillN - sp)
    | 3 => c.spqLast
    | _ => s.evictedIn c.launch ck

/-- SPAWN (R271 to R274). -/
def execSpawn (f : Fields) (s : State) := execTable .spawn f Env.spawn s
/-- JCINIT (R283). -/
def execJcinit (f : Fields) (s : State) := execIsa .jcinit f (fun v => v.joinWrite false) s
/-- JCADD (R283). -/
def execJcadd (f : Fields) (s : State) := execIsa .jcadd f (fun v => v.joinWrite true) s
/-- JCWAIT (R284). -/
def execJcwait (f : Fields) (s : State) := execIsa .jcwait f Env.jcwait s
/-- LAUNCHG (R290). -/
def execLaunchg (f : Fields) (s : State) :=
  execIsa .launchg f (fun v => v.produceRA 2 .none v.lowG (.launchg (v.uni f.a) (v.uni f.b))) s
/-- SPQ (R289). -/
def execSpq (f : Fields) (s : State) :=
  execIsa .spq f (fun v => .ok (if v.lowG then v.status (BitVec.ofNat 64 (v.s.spawnQuery v.c v.f.ty)) else Out.nil)) s

end Sys2Proof.Machine
end

