-- ==== Sys2Proof/Machine/System.lean ====
section
/-! DEFINITION. Class 0xE (17_system.md R357 to R364): software traps, return from the handler, system registers,
breakpoints, marks, counters, clocks. Taking a trap and returning from it are Machine/Ops.lean's. -/

namespace Sys2Proof.Machine

/-- TRAP, and BKPT without the debug right (R358): resuming after the instruction. -/
def Env.raise (v : Env) (cause : Nat) (val : W64) : Res :=
  if v.parts.isEmpty then .ok Out.nil
  else .trap { v.plainTrap cause with detail := v.m, fault := v.parts, tepc := v.s.pastPads v.c.loc v.next, tval := val }

/-- BKPT (R358). -/
def Env.bkpt (v : Env) : Res :=
  if v.s.debugRight v.c.launch then
    .ok (if v.parts.isEmpty then Out.nil else Out.effect [.haltLanes v.parts v.pc (v.s.pastPads v.c.loc v.next) v.m])
  else v.raise cDebug 0

/-- HALT (R359). The right is asked again when the effect is performed (`State.haltAt`). -/
def Env.halt (v : Env) : Res :=
  let past := v.s.pastPads v.c.loc v.next
  .ok (if v.parts.isEmpty then Out.nil
       else Out.effect [if v.s.debugRight v.c.launch then .haltLanes v.parts v.pc past 0 else .haltTrap v.parts v.pc past 0])

/-- ERET (R360). -/
def Env.eret (v : Env) : Res :=
  if !v.lowG then .ok Out.nil
  else if v.c.eretLegal v.r.lanes then .ok (Out.effect [.eret])
  else .trap (v.plainTrap cIllegalInstr)

/-- MFSR (R355, R361): read at issue, before any MTSR of its own run. -/
def Env.mfsr (v : Env) : Res :=
  if v.c.kind == .seq && 0x10 ≤ v.m && v.m ≤ 0x12 then .trap (v.plainTrap cIllegalInstr)
  else if !v.lowG then .ok Out.nil
  else .ok (v.status (if 0x40 ≤ v.m then v.s.capReg (v.m - 0x40) else v.s.sysReg v.c v.m))

/-- The bits MTSR may write in a register; none for one that is read only (R355, R356). -/
def srBits (n : Nat) : Option W64 :=
  match n with
  | 0x04 => some 0x00FFFFFFFFFFFFFC
  | 0x08 => some 1
  | 0x09 => some 0x1FFFFFFFF
  | 0x0A => some 7
  | _ => none

/-- MTSR (R356, R361). -/
def Env.mtsr (v : Env) : Res :=
  match srBits v.m with
  | none => .trap (v.plainTrap cIllegalInstr)
  | some ok =>
    let x := v.uniI v.f.a
    if !v.lowG then .ok Out.nil
    else if x &&& ~~~ok != 0 then .trap (v.plainTrap cIllegalOperand)
    else .ok (Out.effect [.mtsr v.m x])

/-- PCNT (R363): 0 without a bank; as the commit of its run finds it, when the instructions of the run from this one on have
been issued too. -/
def Env.counter (v : Env) (n : Nat) : W64 :=
  let bs := v.s.banksAt v.c.loc
  match bankOf bs v.c.launch, v.s.launch? v.c.launch with
  | some b, some l =>
    nth (nth bs b Bank.reset).counters n 0
      + BitVec.ofNat 64 (if l.record.cs && nth l.record.events n 0 == 2 then (v.s.ahead v.c.loc v.pc (24 - v.r.count)).seen.length else 0)
  | _, _ => 0

/-- CLOCK (R362), sampled when the commit begins. -/
def Env.clock (v : Env) : W64 :=
  if v.f.m.getLsbD 0 then BitVec.ofNat 64 (Table.get v.s.cyc (clusterKey v.c.loc) 0) else BitVec.ofNat 64 v.s.ns

/-- TRAP (R358). -/
def execTrap (f : Fields) (s : State) := execIsa .trap f (fun v => v.raise cSoftware (v.uni f.a)) s
/-- ERET (R360). -/
def execEret (f : Fields) (s : State) := execIsa .eret f Env.eret s
/-- MFSR (R361). -/
def execMfsr (f : Fields) (s : State) := execIsa .mfsr f Env.mfsr s
/-- MTSR (R361). -/
def execMtsr (f : Fields) (s : State) := execIsa .mtsr f Env.mtsr s
/-- BKPT (R358). -/
def execBkpt (f : Fields) (s : State) := execIsa .bkpt f Env.bkpt s
/-- TMARK (R364). -/
def execTmark (f : Fields) (s : State) :=
  execIsa .tmark f (fun v => .ok (if v.lowG then Out.effect [.tmark v.m (v.uniI f.a)] else Out.nil)) s
/-- PCNT (R363). -/
def execPcnt (f : Fields) (s : State) :=
  execIsa .pcnt f (fun v => .ok (if v.lowG then v.status (v.counter v.f.ty) else Out.nil)) s
/-- HALT (R359). -/
def execHaltL (f : Fields) (s : State) := execIsa .haltL f Env.halt s
/-- CLOCK (R362). -/
def execClock (f : Fields) (s : State) :=
  execIsa .clock f (fun v => .ok (if v.lowG then v.status v.clock else Out.nil)) s

end Sys2Proof.Machine
end

