-- ==== Sys2Proof/Machine/Dispatch.lean ====
section
/-! DEFINITION. Dispatch: one arm per constructor of Instr, each a direct call of its meaning. -/

namespace Sys2Proof.Machine

/-- The meaning of every instruction of the opcode table. -/
def exec (i : Instr) (s : State) : Host.Outcome State Fault Refusal :=
  match i with
  | .nop f => Sys2Proof.Machine.execNop f s
  | .bra f => Sys2Proof.Machine.execBra f s
  | .bru f => Sys2Proof.Machine.execBru f s
  | .brx f => Sys2Proof.Machine.execBrx f s
  | .call f => Sys2Proof.Machine.execCall f s
  | .callx f => Sys2Proof.Machine.execCallx f s
  | .ret f => Sys2Proof.Machine.execRet f s
  | .loopL f => Sys2Proof.Machine.execLoopL f s
  | .enrol f => Sys2Proof.Machine.execEnrol f s
  | .park f => Sys2Proof.Machine.execPark f s
  | .strike f => Sys2Proof.Machine.execStrike f s
  | .exitL f => Sys2Proof.Machine.execExitL f s
  | .exitSucc f => Sys2Proof.Machine.execExitSucc f s
  | .yield f => Sys2Proof.Machine.execYield f s
  | .iadd f => Sys2Proof.Machine.execIadd f s
  | .isub f => Sys2Proof.Machine.execIsub f s
  | .imul f => Sys2Proof.Machine.execImul f s
  | .imad f => Sys2Proof.Machine.execImad f s
  | .imin f => Sys2Proof.Machine.execImin f s
  | .imax f => Sys2Proof.Machine.execImax f s
  | .iabs f => Sys2Proof.Machine.execIabs f s
  | .ineg f => Sys2Proof.Machine.execIneg f s
  | .andL f => Sys2Proof.Machine.execAndL f s
  | .orL f => Sys2Proof.Machine.execOrL f s
  | .xorL f => Sys2Proof.Machine.execXorL f s
  | .andn f => Sys2Proof.Machine.execAndn f s
  | .orn f => Sys2Proof.Machine.execOrn f s
  | .xnor f => Sys2Proof.Machine.execXnor f s
  | .shl f => Sys2Proof.Machine.execShl f s
  | .shr f => Sys2Proof.Machine.execShr f s
  | .sha f => Sys2Proof.Machine.execSha f s
  | .rol f => Sys2Proof.Machine.execRol f s
  | .popc f => Sys2Proof.Machine.execPopc f s
  | .clz f => Sys2Proof.Machine.execClz f s
  | .ctz f => Sys2Proof.Machine.execCtz f s
  | .brev f => Sys2Proof.Machine.execBrev f s
  | .bfx f => Sys2Proof.Machine.execBfx f s
  | .bfi f => Sys2Proof.Machine.execBfi f s
  | .icmp f => Sys2Proof.Machine.execIcmp f s
  | .sel f => Sys2Proof.Machine.execSel f s
  | .mov f => Sys2Proof.Machine.execMov f s
  | .movI32 f => Sys2Proof.Machine.execMovI32 f s
  | .movI64 f => Sys2Proof.Machine.execMovI64 f s
  | .movs f => Sys2Proof.Machine.execMovs f s
  | .lea f => Sys2Proof.Machine.execLea f s
  | .plop f => Sys2Proof.Machine.execPlop f s
  | .ballot f => Sys2Proof.Machine.execBallot f s
  | .vote f => Sys2Proof.Machine.execVote f s
  | .shfl f => Sys2Proof.Machine.execShfl f s
  | .qswap f => Sys2Proof.Machine.execQswap f s
  | .qbc f => Sys2Proof.Machine.execQbc f s
  | .redux f => Sys2Proof.Machine.execRedux f s
  | .scan f => Sys2Proof.Machine.execScan f s
  | .rdlane f => Sys2Proof.Machine.execRdlane f s
  | .wrlane f => Sys2Proof.Machine.execWrlane f s
  | .matchL f => Sys2Proof.Machine.execMatchL f s
  | .fadd f => Sys2Proof.Machine.execFadd f s
  | .fsub f => Sys2Proof.Machine.execFsub f s
  | .fmul f => Sys2Proof.Machine.execFmul f s
  | .ffma f => Sys2Proof.Machine.execFfma f s
  | .fmin f => Sys2Proof.Machine.execFmin f s
  | .fmax f => Sys2Proof.Machine.execFmax f s
  | .fcmp f => Sys2Proof.Machine.execFcmp f s
  | .fclass f => Sys2Proof.Machine.execFclass f s
  | .frnd f => Sys2Proof.Machine.execFrnd f s
  | .fdot2 f => Sys2Proof.Machine.execFdot2 f s
  | .fcvt f => Sys2Proof.Machine.execFcvt f s
  | .f2i f => Sys2Proof.Machine.execF2i f s
  | .i2f f => Sys2Proof.Machine.execI2f f s
  | .fpack f => Sys2Proof.Machine.execFpack f s
  | .funpk f => Sys2Proof.Machine.execFunpk f s
  | .fscl f => Sys2Proof.Machine.execFscl f s
  | .frcp f => Sys2Proof.Machine.execFrcp f s
  | .frsq f => Sys2Proof.Machine.execFrsq f s
  | .fsqrt f => Sys2Proof.Machine.execFsqrt f s
  | .fex2 f => Sys2Proof.Machine.execFex2 f s
  | .flg2 f => Sys2Proof.Machine.execFlg2 f s
  | .fsin f => Sys2Proof.Machine.execFsin f s
  | .fcos f => Sys2Proof.Machine.execFcos f s
  | .ftanh f => Sys2Proof.Machine.execFtanh f s
  | .ld f => Sys2Proof.Machine.execLd f s
  | .st f => Sys2Proof.Machine.execSt f s
  | .ldu f => Sys2Proof.Machine.execLdu f s
  | .stu f => Sys2Proof.Machine.execStu f s
  | .prf f => Sys2Proof.Machine.execPrf f s
  | .twr f => Sys2Proof.Machine.execTwr f s
  | .trd f => Sys2Proof.Machine.execTrd f s
  | .tscl f => Sys2Proof.Machine.execTscl f s
  | .acrd f => Sys2Proof.Machine.execAcrd f s
  | .acwr f => Sys2Proof.Machine.execAcwr f s
  | .resb f => Sys2Proof.Machine.execResb f s
  | .xlat f => Sys2Proof.Machine.execXlat f s
  | .fence f => Sys2Proof.Machine.execFence f s
  | .fencek f => Sys2Proof.Machine.execFencek f s
  | .waitk f => Sys2Proof.Machine.execWaitk f s
  | .twaitk f => Sys2Proof.Machine.execTwaitk f s
  | .tkq f => Sys2Proof.Machine.execTkq f s
  | .tkclr f => Sys2Proof.Machine.execTkclr f s
  | .tkarr f => Sys2Proof.Machine.execTkarr f s
  | .pbinit f => Sys2Proof.Machine.execPbinit f s
  | .pbarr f => Sys2Proof.Machine.execPbarr f s
  | .pbwait f => Sys2Proof.Machine.execPbwait f s
  | .bsync f => Sys2Proof.Machine.execBsync f s
  | .monwait f => Sys2Proof.Machine.execMonwait f s
  | .tkpsn f => Sys2Proof.Machine.execTkpsn f s
  | .atom f => Sys2Proof.Machine.execAtom f s
  | .cas f => Sys2Proof.Machine.execCas f s
  | .red f => Sys2Proof.Machine.execRed f s
  | .fatom f => Sys2Proof.Machine.execFatom f s
  | .fred f => Sys2Proof.Machine.execFred f s
  | .atomu f => Sys2Proof.Machine.execAtomu f s
  | .mma f => Sys2Proof.Machine.execMma f s
  | .mmas f => Sys2Proof.Machine.execMmas f s
  | .aczero f => Sys2Proof.Machine.execAczero f s
  | .acdrain f => Sys2Proof.Machine.execAcdrain f s
  | .acdrainAdd f => Sys2Proof.Machine.execAcdrainAdd f s
  | .acload f => Sys2Proof.Machine.execAcload f s
  | .mxset f => Sys2Proof.Machine.execMxset f s
  | .mxq f => Sys2Proof.Machine.execMxq f s
  | .gbind f => Sys2Proof.Machine.execGbind f s
  | .gmv f => Sys2Proof.Machine.execGmv f s
  | .gmva f => Sys2Proof.Machine.execGmva f s
  | .grvrd f => Sys2Proof.Machine.execGrvrd f s
  | .gabort f => Sys2Proof.Machine.execGabort f s
  | .spawn f => Sys2Proof.Machine.execSpawn f s
  | .jcinit f => Sys2Proof.Machine.execJcinit f s
  | .jcadd f => Sys2Proof.Machine.execJcadd f s
  | .jcwait f => Sys2Proof.Machine.execJcwait f s
  | .launchg f => Sys2Proof.Machine.execLaunchg f s
  | .spq f => Sys2Proof.Machine.execSpq f s
  | .cpy f => Sys2Proof.Machine.execCpy f s
  | .cpyRing f => Sys2Proof.Machine.execCpyRing f s
  | .cpygGather f => Sys2Proof.Machine.execCpygGather f s
  | .cpygScatter f => Sys2Proof.Machine.execCpygScatter f s
  | .rinit f => Sys2Proof.Machine.execRinit f s
  | .racqProd f => Sys2Proof.Machine.execRacqProd f s
  | .racqCons f => Sys2Proof.Machine.execRacqCons f s
  | .rrelPub f => Sys2Proof.Machine.execRrelPub f s
  | .rrelPubLast f => Sys2Proof.Machine.execRrelPubLast f s
  | .rrelFree f => Sys2Proof.Machine.execRrelFree f s
  | .sbind f => Sys2Proof.Machine.execSbind f s
  | .sctlStat f => Sys2Proof.Machine.execSctlStat f s
  | .sctlDlen f => Sys2Proof.Machine.execSctlDlen f s
  | .sctlYlen f => Sys2Proof.Machine.execSctlYlen f s
  | .sctlElen f => Sys2Proof.Machine.execSctlElen f s
  | .sctlStop f => Sys2Proof.Machine.execSctlStop f s
  | .srd f => Sys2Proof.Machine.execSrd f s
  | .semit f => Sys2Proof.Machine.execSemit f s
  | .hdec f => Sys2Proof.Machine.execHdec f s
  | .rld f => Sys2Proof.Machine.execRld f s
  | .rst f => Sys2Proof.Machine.execRst f s
  | .rstm f => Sys2Proof.Machine.execRstm f s
  | .ratom f => Sys2Proof.Machine.execRatom f s
  | .rcpy f => Sys2Proof.Machine.execRcpy f s
  | .collAr f => Sys2Proof.Machine.execCollAr f s
  | .collRs f => Sys2Proof.Machine.execCollRs f s
  | .collAg f => Sys2Proof.Machine.execCollAg f s
  | .rfence f => Sys2Proof.Machine.execRfence f s
  | .collcfg f => Sys2Proof.Machine.execCollcfg f s
  | .vcfg f => Sys2Proof.Machine.execVcfg f s
  | .vcfgClose f => Sys2Proof.Machine.execVcfgClose f s
  | .venc f => Sys2Proof.Machine.execVenc f s
  | .vqry f => Sys2Proof.Machine.execVqry f s
  | .trap f => Sys2Proof.Machine.execTrap f s
  | .eret f => Sys2Proof.Machine.execEret f s
  | .mfsr f => Sys2Proof.Machine.execMfsr f s
  | .mtsr f => Sys2Proof.Machine.execMtsr f s
  | .bkpt f => Sys2Proof.Machine.execBkpt f s
  | .tmark f => Sys2Proof.Machine.execTmark f s
  | .pcnt f => Sys2Proof.Machine.execPcnt f s
  | .haltL f => Sys2Proof.Machine.execHaltL f s
  | .clock f => Sys2Proof.Machine.execClock f s
  | .tkarrDeferredArrival k => Sys2Proof.Machine.execTkarrDeferredArrival k s
  | .tokenComplete op => Sys2Proof.Machine.execTokenComplete op s
  | .tokenWaitEnd ctx lane => Sys2Proof.Machine.execTokenWaitEnd ctx lane s
  | .twaitkTimeout ctx lane => Sys2Proof.Machine.execTwaitkTimeout ctx lane s
  | .monwaitWake ctx lane => Sys2Proof.Machine.execMonwaitWake ctx lane s
  | .monwaitTimeout ctx lane => Sys2Proof.Machine.execMonwaitTimeout ctx lane s
  | .monitorRecheck ctx lane => Sys2Proof.Machine.execMonitorRecheck ctx lane s
  | .warpEnd ctx => Sys2Proof.Machine.execWarpEnd ctx s
  | .successorStart block => Sys2Proof.Machine.execSuccessorStart block s
  | .blockRelaunch launch core => Sys2Proof.Machine.execBlockRelaunch launch core s
  | .reductionHomeFailure k => Sys2Proof.Machine.execReductionHomeFailure k s
  | .sideLogReplay ctx => Sys2Proof.Machine.execSideLogReplay ctx s
  | .noticeRepost die => Sys2Proof.Machine.execNoticeRepost die s
  | .invalPage die vpn => Sys2Proof.Machine.execInvalPage die vpn s
  | .invalAll die => Sys2Proof.Machine.execInvalAll die s
  | .resume die vpn => Sys2Proof.Machine.execResume die vpn s
  | .resumeReject die vpn => Sys2Proof.Machine.execResumeReject die vpn s
  | .copyEngineStart op => Sys2Proof.Machine.execCopyEngineStart op s
  | .matrixCommandPerform a => Sys2Proof.Machine.execMatrixCommandPerform a s
  | .grammarCommandStart op => Sys2Proof.Machine.execGrammarCommandStart op s
  | .grammarHoldBreak cluster => Sys2Proof.Machine.execGrammarHoldBreak cluster s
  | .ringClaimGrant op => Sys2Proof.Machine.execRingClaimGrant op s
  | .encoderCommandStart op => Sys2Proof.Machine.execEncoderCommandStart op s
  | .spawnEntryEligible entry => Sys2Proof.Machine.execSpawnEntryEligible entry s
  | .fullWarp cluster launch entry => Sys2Proof.Machine.execFullWarp cluster launch entry s
  | .ageFlush cluster launch entry => Sys2Proof.Machine.execAgeFlush cluster launch entry s
  | .idleFlush cluster => Sys2Proof.Machine.execIdleFlush cluster s
  | .spillReturn cluster launch => Sys2Proof.Machine.execSpillReturn cluster launch s
  | .childWarpAdmit cluster core => Sys2Proof.Machine.execChildWarpAdmit cluster core s
  | .eviction cluster launch => Sys2Proof.Machine.execEviction cluster launch s
  | .evictedWarpRestore ctx core => Sys2Proof.Machine.execEvictedWarpRestore ctx core s
  | .fabricPacketArrival port p => Sys2Proof.Machine.execFabricPacketArrival port p s
  | .fabricAck op r => Sys2Proof.Machine.execFabricAck op r s
  | .rstmCommitMessage k => Sys2Proof.Machine.execRstmCommitMessage k s
  | .fabricRetransmit die peer => Sys2Proof.Machine.execFabricRetransmit die peer s
  | .connectionDead die peer => Sys2Proof.Machine.execConnectionDead die peer s
  | .collSend die => Sys2Proof.Machine.execCollSend die s
  | .collReceive die => Sys2Proof.Machine.execCollReceive die s
  | .collTimeout die => Sys2Proof.Machine.execCollTimeout die s
  | .dieLinkModuleFail die modul => Sys2Proof.Machine.execDieLinkModuleFail die modul s
  | .launchQueueAppend q record => Sys2Proof.Machine.execLaunchQueueAppend q record s
  | .qctlWrite q value => Sys2Proof.Machine.execQctlWrite q value s
  | .launchCopy q => Sys2Proof.Machine.execLaunchCopy q s
  | .hearthEvaluation place => Sys2Proof.Machine.execHearthEvaluation place s
  | .launchComplete launch => Sys2Proof.Machine.execLaunchComplete launch s
  | .chimneyHeldRelease c => Sys2Proof.Machine.execChimneyHeldRelease c s
  | .chimneyTimeTrigger c => Sys2Proof.Machine.execChimneyTimeTrigger c s
  | .hcancel tag => Sys2Proof.Machine.execHcancel tag s
  | .hkeyfree key => Sys2Proof.Machine.execHkeyfree key s
  | .debugHalt dop mask buf arg => Sys2Proof.Machine.execDebugHalt dop mask buf arg s
  | .debugResume dop mask buf arg => Sys2Proof.Machine.execDebugResume dop mask buf arg s
  | .debugStep dop mask buf arg => Sys2Proof.Machine.execDebugStep dop mask buf arg s
  | .bpset dop mask buf arg => Sys2Proof.Machine.execBpset dop mask buf arg s
  | .bpclr dop mask buf arg => Sys2Proof.Machine.execBpclr dop mask buf arg s
  | .debugRead dop mask buf arg => Sys2Proof.Machine.execDebugRead dop mask buf arg s
  | .debugWrite dop mask buf arg => Sys2Proof.Machine.execDebugWrite dop mask buf arg s
  | .debugSample dop mask buf arg => Sys2Proof.Machine.execDebugSample dop mask buf arg s
  | .debugGrant g tag => Sys2Proof.Machine.execDebugGrant g tag s
  | .debugRevoke g => Sys2Proof.Machine.execDebugRevoke g s
  | .acctlEnable die => Sys2Proof.Machine.execAcctlEnable die s
  | .acctlLock die => Sys2Proof.Machine.execAcctlLock die s
  | .acsync die => Sys2Proof.Machine.execAcsync die s
  | .cap0Write value => Sys2Proof.Machine.execCap0Write value s
  | .islclkWrite island value => Sys2Proof.Machine.execIslclkWrite island value s
  | .pwrlimWrite value => Sys2Proof.Machine.execPwrlimWrite value s
  | .currentSample amps tj watts => Sys2Proof.Machine.execCurrentSample amps tj watts s
  | .thermalTrip tj => Sys2Proof.Machine.execThermalTrip tj s
  | .connreset die peer => Sys2Proof.Machine.execConnreset die peer s
  | .deviceReset => Sys2Proof.Machine.execDeviceReset s
  | .pldmFirmwareUpdate img => Sys2Proof.Machine.execPldmFirmwareUpdate img s
  | .pldmMonitoring sensor => Sys2Proof.Machine.execPldmMonitoring sensor s
  | .spdm => Sys2Proof.Machine.execSpdm s
  | .registerWrite master die offset value => Sys2Proof.Machine.execRegisterWrite master die offset value s
  | .applicationCoreAccess a => Sys2Proof.Machine.execApplicationCoreAccess a s
  | .softError t corrected => Sys2Proof.Machine.execSoftError t corrected s
  | .collectiveEngineStart die => Sys2Proof.Machine.execCollectiveEngineStart die s
  | .clockChangeEffect island => Sys2Proof.Machine.execClockChangeEffect island s

end Sys2Proof.Machine
end

