-- ==== Sys2Proof/Machine/Schedule.lean ====
section
/-! DEFINITION. The schedule: what the machine does next between runs. The agents run side by side and the manual leaves
their order open; one step is one act of one of them. The agenda of the state names the acts that come next; past its
end the model takes the first possible act of a fixed order, of those the device takes by itself, and otherwise begins
the run of the context that waited longest (log entry 8). -/

namespace Sys2Proof.Machine

/-- Count the events of timing on the cores and sequencers where a launch has a bank: the cycles of a step with a warp resident,
and free numbers of lost cycles and misses (log entry 20). -/
def State.countTiming (s : State) : State :=
  (((s.ctxs.filter fun c => !c.saved && !c.ended).map fun c => (c.launch, c.loc)).eraseDups).foldl (fun s p =>
    [4, 5, 6].foldl (fun s e => s.countAt p.1 p.2 e (Config.timingCount (coreKey p.2) e s.freeIdx))
      (s.countAt p.1 p.2 1 (Config.stepCycles (clusterKey p.2) s.freeIdx))) s

/-- Device time and the cycle counts of the clusters go on by amounts that the manual leaves open (log entry 9). -/
def State.tick (s : State) : State :=
  let s := if s.launches.any fun l => l.record.cs then s.countTiming else s
  { s with
    ns := s.ns + Config.stepNs s.freeIdx
    cyc := s.clusterKeys.foldl (fun t k => Table.set t k (Table.get t k 0 + Config.stepCycles k s.freeIdx) 0) s.cyc
    freeIdx := s.freeIdx + 1 }

/-- The meaning of an instruction or an event with its arguments. -/
abbrev Meaning := State → Host.Outcome State Fault Refusal

/-- What an event that is possible leads to. -/
def State.tryEvent (s : State) (g : Meaning) : Option State :=
  match g s with
  | .next s1 => some s1
  | _ => none

/-- The acknowledgements of a command whose requests all go to this device, which serves them by itself (15_fabric.md R321). -/
def State.ownAcks (s : State) (o : Op) : List Meaning :=
  let mine := s.outbox.filter fun e => e.1 == o.id
  if mine.isEmpty || !mine.all (fun e => e.2.1 == s.podNumber) then []
  else match o.cmd with
    | .fabric (.coll _ _ _) => []
    | .fabric (.rstm _ _ _ _ _ _ _) => [execFabricAck o.id (.members 0 0 0 0 0)]
    | _ => [execFabricAck o.id (.ok [])]

/-- Events of operations. -/
def State.opEvents (s : State) : List Meaning :=
  s.ops.flatMap fun o => s.ownAcks o ++
    [execTokenComplete o.id, execCopyEngineStart o.id, execGrammarCommandStart o.id, execRingClaimGrant o.id
     , execEncoderCommandStart o.id] ++ o.matrixWork.1.map fun w => execMatrixCommandPerform ⟨o.id, w.core⟩

/-- Events of contexts and their waits. -/
def State.ctxEvents (s : State) : List Meaning :=
  s.ctxs.flatMap fun c =>
    (c.allLanes.flatMap fun l =>
      match (c.lane l).st with
      | .waiting (.monwait _ _ _ _ _ _ _ _) => [execMonwaitTimeout c.id l]
      | .waiting _ => [execTokenWaitEnd c.id l, execTwaitkTimeout c.id l]
      | _ => [])
      ++ [execWarpEnd c.id, execSideLogReplay c.id]

/-- Events of a cluster's lens, of its grammar hold and of its evicted warps. -/
def State.clusterEvents (s : State) : List Meaning :=
  s.clusterKeys.flatMap fun ck =>
    let c := s.cluster ck
    ((c.spawnQ.filter fun e => e.eligible.isNone).map fun e => execSpawnEntryEligible e.id)
      ++ (s.launches.flatMap fun l =>
        ((c.spawnQ.map fun e => e.entry).eraseDups.flatMap fun e => [execFullWarp ck l.id e, execAgeFlush ck l.id e])
          ++ [execSpillReturn ck l.id, execEviction ck l.id])
      ++ [execIdleFlush ck]
      ++ (if c.formed.isEmpty then [] else (List.range 24).map fun k => execChildWarpAdmit ck k)
      ++ ((s.ctxs.filter fun x => x.saved && clusterKey x.loc == ck).flatMap fun x =>
        (List.range 24).map fun k => execEvictedWarpRestore x.id k)
      ++ [execGrammarHoldBreak ck]

/-- Events of blocks, launches, dies and the Hearth. -/
def State.deviceEvents (s : State) : List Meaning :=
  ((List.range s.lates.length).map fun i => execTkarrDeferredArrival i)
    ++ ((List.range s.redFails.length).map fun i => execReductionHomeFailure i)
    ++ (s.blocks.map fun b => execSuccessorStart b.id)
    ++ (s.launches.flatMap fun l =>
      execLaunchComplete l.id :: (if l.relaunchQ.isEmpty then [] else (List.range 24).map fun k => execBlockRelaunch l.id k))
    ++ ([0, 1].flatMap fun d => [execNoticeRepost d, execCollectiveEngineStart d, execCollSend d, execCollReceive d, execCollTimeout d])
    ++ ((List.range 64).map fun q => execLaunchCopy q)
    ++ ((List.range 16).flatMap fun c => [execChimneyHeldRelease c, execChimneyTimeTrigger c, execClockChangeEffect c])

/-- Monitors whose element has changed (R203). -/
def State.wakes (s : State) : List Meaning :=
  s.ctxs.flatMap fun c => c.allLanes.flatMap fun l =>
    match s.monitorRead c.id l with
    | some s1 => if (s1.ctx? c.id).any fun x => (x.lane l).st != (c.lane l).st then [execMonwaitWake c.id l] else []
    | none => []

/-- Put a context among others that have waited longer. -/
def insertBehind (c : Ctx) (cs : List Ctx) : List Ctx :=
  match cs with
  | [] => [c]
  | x :: r => if c.behind < x.behind then c :: x :: r else x :: insertBehind c r

/-! Active and pending warps (R386 to R389). -/

/-- Whether a context has a run to begin, or a trap, halt or notice in its place. -/
def State.ready (s : State) (c : Ctx) : Bool := (s.beginRun c.id).isSome

/-- The warps resident on a core, the one that has waited longest first. -/
def State.warpsAt (s : State) (l : Loc) : List Ctx :=
  (s.ctxs.filter fun c => c.loc == l && c.kind != .seq && !c.saved && !c.ended).foldl (fun cs c => insertBehind c cs) []

/-- Warps leave a core's active set (Table 17.5). -/
def State.swapOut (s : State) (l : Loc) (out : List Nat) : State :=
  out.foldl (fun s i => match s.ctx? i with | some c => s.countAt c.launch l 0x0C 1 | none => s)
    (s.setCore l { s.core l with active := (s.core l).active.filter fun i => !out.contains i })

/-- Whether a warp that has no run to begin stays in the active set: it is held at a fetch (R59), which R387 does not list. -/
def Ctx.staysActive (c : Ctx) : Bool := c.commitQ.isEmpty && (c.allLanes.any c.canRun) && c.fetchable.isEmpty

/-- A core's active set as R387 leaves it: a warp leaves it that waits on a long-latency dependence or has no runnable lane, and
one that has committed 16 runs while a ready warp was pending; ready pending warps take free places, the one that has waited
longest first. The account of runs starts again where no ready warp is pending, that of passes where a warp is not ready. -/
def State.refreshActive (s : State) (l : Loc) : State :=
  let ws := s.warpsAt l
  let rdy := ws.filter s.ready
  let isReady := fun (i : Nat) => rdy.any fun c => c.id == i
  let set := (s.core l).active
  let pending := rdy.filter fun c => !set.contains c.id
  let out := set.filter fun i => match ws.find? fun c => c.id == i with
    | some c => if isReady i then !pending.isEmpty && decide (16 ≤ c.streak) else !c.staysActive
    | none => true
  let s1 := s.swapOut l out
  let k := s1.core l
  let come := (pending.take (8 - k.active.length)).map fun c => c.id
  { s1.setCore l { k with active := k.active ++ come } with
    ctxs := updWhere s1.ctxs (fun c => c.loc == l && c.kind != .seq) fun c =>
      { c with streak := if pending.isEmpty || out.contains c.id || come.contains c.id then 0 else c.streak
               passed := if isReady c.id then c.passed else 0 } }

/-- The warp that most runs of others have passed. -/
def mostPassed (rdy : List Ctx) : Option Ctx :=
  rdy.foldl (fun (b : Option Ctx) c => match b with
    | some x => if x.passed < c.passed then some c else some x
    | none => some c) none

/-- Whether a ready warp can wait for no other run than those of the ready warps that have been passed as often or more: with one
run more ahead of them, R389's 128 would be exceeded for the last of them. -/
def atLimit (rdy : List Ctx) (c : Ctx) : Bool := decide (128 < c.passed + (rdy.filter fun x => decide (c.passed ≤ x.passed)).length)

/-- The ready warp of a core that R389 puts first, where R386 and R387 alone would break its bound: the one that most runs of others
have passed (log entry 8). -/
def overdue (rdy : List Ctx) : Option Ctx := if rdy.any (atLimit rdy) then mostPassed rdy else none

/-- An overdue warp joins the active set, in the place of the warp that has committed most runs there where none is free (R389,
log entry 8). -/
def State.letIn (s : State) (l : Loc) (rdy : List Ctx) (c : Ctx) : State :=
  let k := s.core l
  if k.active.contains c.id then s
  else
    let most := (rdy.filter fun x => k.active.contains x.id).foldl (fun (b : Option Ctx) x => match b with
      | some y => if y.streak < x.streak then some x else some y
      | none => some x) none
    let s1 := if k.active.length < 8 then s else s.swapOut l [(most.map fun x => x.id).getD (k.active.headD 0)]
    s1.setCore l { s1.core l with active := (s1.core l).active ++ [c.id] }

/-- Begin the run of a context if the scheduler lets it: a sequencer context that is the oldest ready one of its cluster
(11_matrix.md R222); of the active set of a core, the oldest ready warp, or one of width 16 beside it where that is of width 16 too
(R386); in their place the warp that is overdue. -/
def State.schedule (s : State) (cid : Nat) : Option State :=
  match s.ctx? cid with
  | none => none
  | some c =>
    if c.kind == .seq then
      let older := s.ctxs.any fun x => x.kind == .seq && clusterKey x.loc == clusterKey c.loc && decide (x.behind < c.behind) && s.ready x
      if older then none else s.beginRun cid
    else
      let s1 := s.refreshActive c.loc
      let rdy := (s1.warpsAt c.loc).filter s1.ready
      match overdue rdy with
      | some x => (s1.letIn c.loc rdy x).beginRun x.id
      | none =>
        let act := rdy.filter fun x => (s1.core c.loc).active.contains x.id
        match act.head? with
        | some x =>
          if x.id == cid || (x.width == 16 && c.width == 16 && act.any fun y => y.id == cid) then s1.beginRun cid else none
        | none => none

/-- The active sets where no run begins: warps that wait leave them all the same (R387). -/
def State.leaveActive (s : State) : State :=
  (((s.ctxs.filter fun c => c.kind != .seq && !c.saved && !c.ended).map fun c => c.loc).eraseDups).foldl State.refreshActive s

/-- The next run, of the context that has waited longest among those that can begin one (R67, R389). -/
def State.nextRun (s : State) : Option State :=
  (s.ctxs.foldl (fun cs c => insertBehind c cs) []).findSome? fun c => s.schedule c.id

/-! A wait that only what waits behind it could end. -/

/-- Whether nothing inside the device can happen by itself: every operation waits for a precondition, an arrival or a release, no
lane for a time or a monitor, and no page, reply, replay or restoration is outstanding. -/
def State.standsStill (s : State) : Bool :=
  (s.ops.all fun o => match o.stage with | .waiting | .armed _ _ => true | _ => false)
    && s.lates.isEmpty && s.outbox.isEmpty
    && ((List.range 2).all fun d => (s.die d).posted.isEmpty)
    && (s.ctxs.all fun c => !c.saved && (s.core c.loc).log.isEmpty && c.allLanes.all fun l => match (c.lane l).st with
      | .waiting (.twaitk _ _ _ _) => false
      | .waiting (.monwait _ _ _ _ _ dl held _) => held == false && dl == 0
      | _ => true)

/-- What a context has yet to commit or to start. -/
def State.backlog (s : State) (cid : Nat) : Nat :=
  ((s.ctx? cid).map fun c => c.commitQ.length).getD 0
    + (s.ops.filter fun o => o.ctx == cid && o.stage == .waiting).length

/-- What comes later in a context passes the loads and atomics that hold it while their preconditions are pending, up to the first
access whose preconditions are done; the loads keep what they read then, at their place in S (R165, log entry 85). None where the
context does not go on by that. -/
def State.passGated (s : State) (c : Ctx) : Option State :=
  let mine := fun (o : Op) => o.ctx == c.id && o.stage == .waiting && o.overtaken.isNone && o.placed
  let waits := fun (o : Op) => mine o && !o.resolved && !s.ops.any fun x => mine x && x.resolved && decide (x.id < o.id)
  if !s.ops.any waits then none
  else
    let t := ({ s with ops := updWhere s.ops waits fun o => { o with overtaken := some (s.overtake o) } } : State).quiesce
    if t.backlog c.id < s.backlog c.id then some t else none

/-- A context that has held what it committed for 4,096 cycles behind a pending precondition goes on (R168, log entry 85). -/
def State.passLate (s : State) : Option State :=
  (s.ctxs.filter fun c => s.ops.any fun o => o.ctx == c.id && o.stall != 0
      && decide (o.stall + 4096 ≤ Table.get s.cyc (clusterKey c.loc) 0 + 1)).findSome? s.passGated

/-- Where nothing else can happen, what a pending precondition waits for can only stand behind the access that it gates. -/
def State.passStill (s : State) : Option State := if s.standsStill then s.ctxs.findSome? s.passGated else none

/-- What happens when the agenda names nothing: an event, an evaluation of the Hearth that changes something, a run;
else time passes. -/
def State.autopilot (s : State) : State :=
  if s.tripped || s.recovery then s
  else
    match (s.opEvents ++ s.ctxEvents ++ s.clusterEvents ++ s.deviceEvents ++ s.wakes).findSome? s.tryEvent with
    | some s1 => s1
    | none =>
      match s.tryEvent (execHearthEvaluation []) with
      | some s1 => if s1 == s then (s.passLate <|> s.nextRun <|> s.passStill).getD s.leaveActive else s1
      | none => s

/-- A leaf leaves a TLB (R149; log entry 10). -/
def State.evictTlb (s : State) (die i : Nat) : State :=
  let d := s.die die
  if die ≤ 1 then s.setDie die { d with tlb := d.tlb.eraseIdx i } else s

/-- One act of the agenda; one that is not possible is passed over. -/
def State.act (s : State) (t : Turn) : State :=
  match t with
  | .run c => if s.tripped || s.recovery then s else (s.schedule c).getD s.leaveActive
  | .event i => (s.tryEvent (exec i)).getD s
  | .evictTlb die i => s.evictTlb die i

/-- One act between runs. -/
def State.turn (s : State) : State :=
  let s0 := s.tick
  match s0.agenda with
  | [] => s0.autopilot.track
  | t :: r => (({ s0 with agenda := r } : State).act t).track

/-- What a run that has ended leaves for the scheduler: where it committed (its context goes on, and not in its handler by a trap)
its account (`State.committed`), unless its commit is held: then that comes with its completion (`State.drainHeld`). `s` is the
state before its last instruction. -/
def State.account (s t : State) : State :=
  match s.run.bind fun r => s.ctx? r.ctx with
  | none => t
  | some c =>
    if (t.ctx? c.id).any fun x => !x.ended && (c.inh || !x.inh) && x.commitQ.isEmpty then t.committed c.id else t

/-- After an instruction: account of runs and waits, once its run has ended. -/
def afterInstr (s : State) (o : Host.Outcome State Fault Refusal) : Host.Outcome State Fault Refusal :=
  match o with
  | .next t => .next (if t.run.isNone then (s.account t).track else t)
  | x => x

/-- The next instruction of an open run: fetch, decode, perform. A legal row of pads that the run has come to is skipped
(02_formats.md R16), however long it is and whenever its page was mapped. -/
def State.stepRun (s : State) (r : Run) : Host.Outcome State Fault Refusal :=
  match s.ctx? r.ctx with
  | none => .fault .noContext
  | some c =>
    match s.fetch c r.pc with
    | (s1, .hold) => .next { s1 with run := none }
    | (s1, .trap cause tval) =>
      let past := if r.count == 0 then r.pc else s1.pastPads c.loc r.pc
      .next (if past != r.pc then { s1 with run := some { r with pc := past } } else s1.fetchTrap r cause tval)
    | (s1, .ok i) => afterInstr s1 (exec i s1)

end Sys2Proof.Machine
end

