-- ==== Sys2Proof/Machine/Step.lean ====
section
/-! DEFINITION. One step of the machine: the next instruction of the open run, or one act between runs. -/

namespace Sys2Proof.Machine

/-- One step. -/
def step (s : State) : Host.Outcome State Fault Refusal :=
  match s.run with
  | some r => s.stepRun r
  | none => .next s.turn

/-- The state with an instruction of the opcode table placed where step fetches next, its bits above nbits 0. -/
def State.withFetchWord (s : State) (nbits w : Nat) : State := s.withCode (leBytes 32 (w % 2 ^ nbits))

end Sys2Proof.Machine
end

