-- ==== Sys2Proof/Safety.lean ====
section
/-! DEFINITION. The terms that claims use: a safe run; an instruction of an open run and what it leaves (02_formats.md
R19, R33 to R35); a moment between runs, and what an event leaves; the values of integer operands (05_integer_lane.md R82). -/

namespace Sys2Proof

/-- A run of n steps that meets no fault and no refusal and ends with memory in canonical form. -/
def SafeRun (n : Nat) (s : Machine.State) : Prop :=
  match Host.Core.run Sys2Proof.core n s with
  | .next t => Machine.Memory.wf t.mem = true
  | _ => False

namespace Machine

/-- The instruction in the open run of a state: run, context, kind and fields. None for an event, or with no run open. -/
def State.envOf (s : State) (i : Instr) : Option Env :=
  match i.view, s.run with
  | some (k, f), some r => (s.ctx? r.ctx).map fun c => { s := s, r := r, c := c, k := k, f := f }
  | _, _ => none

/-- No check of R35 steps 2 to 4 fails, and no register or file word read is uncorrectable. -/
def Env.clear (v : Env) : Prop := v.checkFails = none ∧ v.badRegister = none ∧ v.badFile = none

/-- The state with the instruction counted (Table 17.5, event 2). -/
def Env.counted (v : Env) : State := v.s.countAt v.c.launch v.c.loc 2 1

/-- If the instruction ends its run, the commit leaves no meeting and no barrier deadlocked (R71, R202). -/
def Env.mayEnd (v : Env) (o : Out) : Prop := v.endsRun = true → v.counted.deadlocks v.c (v.grow o) = false

/-- The state an instruction leaves with its results o: the run goes on with them, or commits. -/
def Env.leaves (v : Env) (o : Out) : State :=
  if v.endsRun then v.counted.commitRun v.c (v.grow o) else { v.counted with run := some (v.grow o) }

/-- Where pre holds, the instruction completes with the results o: exactly the state `leaves` gives. -/
def Performs (i : Instr) (pre : Env → Prop) (o : Env → Out) : Prop :=
  ∀ s v, s.envOf i = some v → v.clear → pre v → v.mayEnd (o v) → exec i s = .next (v.leaves (o v))

/-- Where pre holds, the instruction takes a trap and nothing of its run is performed; an uncorrectable table entry that its check has
met is counted (19_device.md R404). -/
def Traps (i : Instr) (pre : Env → Prop) (t : Env → TrapInfo) : Prop :=
  ∀ s v, s.envOf i = some v → v.clear → pre v → exec i s = .next ((v.counted.countTrap v.who (t v)).trapTo v.c.id (t v))

/-- No condition. -/
def Env.any (_ : Env) : Prop := True

/-- The instruction where the errors that its lookup of the spawn table meets are counted (19_device.md R404). -/
def Env.seen (v : Env) : Env := { v with s := v.looked }

/-- `Performs` for an instruction that looks up the spawn table. -/
def PerformsLooking (i : Instr) (pre : Env → Prop) (o : Env → Out) : Prop :=
  ∀ s v, s.envOf i = some v → v.seen.clear → pre v.seen → v.seen.mayEnd (o v.seen) → exec i s = .next (v.seen.leaves (o v.seen))

/-- `Traps` for an instruction that looks up the spawn table. -/
def TrapsLooking (i : Instr) (pre : Env → Prop) (t : Env → TrapInfo) : Prop :=
  ∀ s v, s.envOf i = some v → v.seen.clear → pre v.seen → exec i s = .next ((v.seen.counted.countTrap v.seen.who (t v.seen)).trapTo v.c.id (t v.seen))

/-- The results of an instruction that gives D one value per lane (R19, R27): with no v register named, one value,
computed and guarded in the lowest lane of the run; otherwise each lane of the run whose guard is true has its own. -/
def Env.result (v : Env) (wide : Bool) (g : Nat → W64) : Out :=
  if usesV v.k v.f then v.put wide v.parts g
  else if v.lowG then v.putOnce wide v.r.lanes (g v.low) else Out.nil

/-- The same for a predicate: in the uniform form every lane of the warp receives it (R89). -/
def Env.resultP (v : Env) (g : Nat → Bool) : Out :=
  Out.regs (if usesV v.k v.f then v.parts.map fun l => Held.p v.f.d.byte l (g l)
    else if v.lowG then v.c.allLanes.map fun l => Held.p v.f.d.byte l (g v.low) else [])

/-- The results o of an instruction that acts once, where the guard of the lowest lane is true. -/
def Env.onceOut (v : Env) (o : Out) : Out := if v.lowG then o else Out.nil

/-- The results o of an instruction that some lane must take part in. -/
def Env.someOut (v : Env) (o : Out) : Out := if v.parts.isEmpty then Out.nil else o

/-- The dispatch of a token-producing instruction (R28, R33); one no lane takes part in performs nothing (R19). -/
def Env.dispatches (v : Env) (rel acq : Bool) (scope : Nat) (d : Dst) (active : Bool) (c : Cmd) : Out :=
  Out.effect [.dispatch v.token (preTokens v.f) v.k.info.op rel acq scope d (if active then c else c.idle)]

/-- The same with .REL, .ACQ and the scope as M and X0 give them. -/
def Env.dispatchesRA (v : Env) (scope : Nat) (d : Dst) (active : Bool) (c : Cmd) : Out :=
  v.dispatches (v.f.m.getLsbD 5) (v.f.m.getLsbD 6) (if v.f.ext.x0?.isSome then v.x % 8 else scope) d active c

/-- N of the instruction's type (R80). -/
def Env.n (v : Env) : Nat := tyBits v.f.ty
/-- Signedness of the instruction's type. -/
def Env.sg (v : Env) : Bool := tySigned v.f.ty
/-- Whether N is 64. -/
def Env.w (v : Env) : Bool := v.f.tyW == 2
/-- Ext(a) in a lane (R82). -/
def Env.extA (v : Env) (l : Nat) : Int := extN v.n v.sg (v.rd v.w v.f.a l)
/-- Ext(b) in a lane, IMM32 in its place in F96I. -/
def Env.extB (v : Env) (l : Nat) : Int := extN v.n v.sg (v.rdB v.w v.sg l)
/-- a and b as N-bit patterns. -/
def Env.patA (v : Env) (l : Nat) : W64 := v.rd v.w v.f.a l
/-- b as an N-bit pattern. -/
def Env.patB (v : Env) (l : Nat) : W64 := v.rdB v.w v.sg l

/-- The bytes of 32-bit words, the first at the lowest address. -/
def wordBytes (ws : List Nat) : List Byte := ws.flatMap (leBytes 4)

/-- Fields with no guard and no precondition, from D, A, B, C and what follows the first two words. -/
def fieldsWith (last : Bool) (sub : Fin 8) (d a b c : Reg) (m : Byte) (x : Ext) : Fields :=
  { last := last, pg := 7, pn := false, kv := false, kw := 0, sub := sub, d := d, a := a, b := b, c := c, m := m, ext := x }

/-- A page of code that can be read: translation on, a cached leaf with X that counts no migration, memory there that no
access table denies and that holds no error. `pa` is where the 32-byte block of an address stands. -/
def State.codeAt (s : State) (c : Ctx) (pc : W64) (pa : Nat) : Prop :=
  pc.toNat / 2 ^ 56 = 0 ∧ (s.reg c.loc.die 0x100000).getLsbD 0 = true
  ∧ (∃ ea e large, s.tlbHit c.loc.die (tlbUnits c.loc 0) (pc.toNat / 32 * 32) = some (.leaf ea e large) ∧ e.getLsbD 4 = true ∧ e.getLsbD 12 = false
      ∧ pa = leafPa e large (pc.toNat / 32 * 32))
  ∧ (∃ st, s.place pa = .hbm st) ∧ (s.reg 0 0x19FFF8).getLsbD 0 = false ∧ (s.reg 1 0x19FFF8).getLsbD 0 = false
  ∧ s.badRead pa 32 = false

/-- The run's results when lanes transfer to targets besides o (04_control.md R62). -/
def Env.goes (_ : Env) (ts : List (Nat × W64)) (o : Out) : Out :=
  if ts = [] then o else { o with jumps := o.jumps ++ ts, acts := o.acts ++ [.taken (targetMasks ts)] }

/-- A target that a transfer may take: word aligned, and an indirect one below 2^56 (R62). -/
def targetOk (indirect : Bool) (t : W64) : Prop := t.toNat % 4 = 0 ∧ (indirect = true → t.toNat < 2 ^ 56)

/-- The relative target of BRA, BRU, CALL and LOOP. -/
def Env.near (v : Env) : W64 := v.r.pc + v.imm.signExtend 64

/-- The lane in which the operands of a lane's access are read: the lowest in the uniform form (R27). -/
def Env.readLane (v : Env) (l : Nat) : Nat := if usesV v.k v.f then l else v.low

/-- A lane's access at base + index * size + offset (07_memory.md R132). -/
def Env.cell (v : Env) (size l : Nat) (off : W64) (x : W64 × W64) (y : W64) : Acc :=
  { lane := l
    addr := (v.rd64 v.f.a l + (v.rd32 v.f.b (v.readLane l)).setWidth 64 * BitVec.ofNat 64 size + off).toNat
    x := x, y := y }

/-- The byte offset of a class 0x5 instruction (R22, R132). -/
def Env.disp (v : Env) : W64 := if v.isImm then (v.imm.setWidth 24).signExtend 64 else (BitVec.ofNat 8 v.f.c.byte).signExtend 64

/-- One lane's access at a 64-bit address that an instruction acting once gives. -/
def Env.place1 (v : Env) (a : W64) (x : W64) : List Acc := [{ lane := v.low, addr := a.toNat, x := (x, 0), y := 0 }]

/-- The trap of a check made before commit (R34): the failing lanes at fault, the first one's address in TVAL. -/
def Env.checkTrap (v : Env) (r : Option (Nat × List Acc)) : TrapInfo :=
  match r with
  | some (cause, bad) =>
    { v.plainTrap cause with fault := bad.map fun a => a.lane, tval := BitVec.ofNat 64 ((bad.head?.map fun a => a.addr).getD 0) }
  | none => v.plainTrap 0

/-- Nothing earlier of a context holds back what it commits: no side log of its own, no access that has yet to take its place
(08_ordering.md R156, R165). -/
def State.unheld (s : State) (c : Ctx) : Prop := s.behindLog c = false ∧ s.behindGated c = false

/-- An effect of a run at its commit (02_formats.md R33): where pre holds and nothing earlier holds it back, it is performed, and post
holds of the state that it leaves. -/
def Commits (a : Act) (pre : State → Ctx → Prop) (post : Eff → State → Ctx → State → Prop) : Prop :=
  ∀ (s : State) (c : Ctx) (e : Eff), e.act = a → s.unheld c → pre s c → ∃ t, s.performAct c e = some t ∧ post e s c t

/-- The same with the state that it leaves written out. -/
def CommitsTo (a : Act) (pre : State → Ctx → Prop) (t : Eff → State → Ctx → State) : Prop :=
  Commits a pre fun e s c u => u = t e s c

/-- No condition on the state and the context of a commit. -/
def State.anyCtx (_ : State) (_ : Ctx) : Prop := True

/-- Between runs, the dies not held in reset and not in recovery: an event may happen. -/
def State.between (s : State) : Prop := s.run = none ∧ s.tripped = false ∧ s.recovery = false

/-- Nothing is outstanding and no commit waits. -/
def State.quiet (s : State) : Prop := s.ops = [] ∧ ∀ c ∈ s.ctxs, c.commitQ = []

/-- An event is possible in every state between runs where pre holds; it leaves t, followed by what follows every event:
operations whose preconditions are met go on, commits that waited are performed. -/
def Happens (i : Instr) (pre : State → Prop) (t : State → State) : Prop :=
  ∀ s, s.between → pre s → exec i s = .next (t s).quiesce

/-- The same, saying what holds of the state it leaves. -/
def Leaves (i : Instr) (pre : State → Prop) (post : State → State → Prop) : Prop :=
  ∀ s, s.between → pre s → ∃ t : State, exec i s = .next t.quiesce ∧ post s t

/-- An event by which firmware writes a register: where the table of target 37 admits its write, and pre holds, it leaves t;
where the table does not, it leaves everything as it was. -/
def Firmware (i : Instr) (die off : Nat) (pre : State → Prop) (t : State → State) : Prop :=
  Happens i (fun s => pre s ∧ s.firmwareMay die off true = true) t ∧ Happens i (fun s => s.firmwareMay die off true = false) fun s => s

/-- No condition on a state. -/
def State.any (_ : State) : Prop := True

end Machine
end Sys2Proof
end

