-- ==== Sys2Proof/Certificates/Slice0/Obligations.lean ====
section
/-! DEFINITION. The statements for the provers. An obligation says at once what an instruction's next state is (`Performs`: the
whole state, so its frame too), or what an event or a shared operation leaves. -/

open Sys2Proof Sys2Proof.Machine

/-! Encoding. -/

/-- Words that the spec's examples give stand for the instructions the examples name: IADD.SAT, FFMA, LD, FENCE.SYS, ATOM, SPAWN
and MTSR. -/
def Obligations.SpecExamplesDecode : Prop :=
  decode (wordBytes [0x0401C881, 0x01FFFF02, 0x00000064])
      = .ok (.iadd (fieldsWith false 1 (.v 4) (.v 2) .zero .zero 1 (.f96i 100))) 12
    ∧ decode (wordBytes [0x0A01C19C, 0x01030201]) = .ok (.ffma (fieldsWith true 0 (.v 10) (.v 1) (.v 2) (.v 3) 1 .f64)) 8
    ∧ decode (wordBytes [0x0C01EA85, 0x02FF05A3, 0x02000006])
      = .ok (.ld (fieldsWith true 5 (.v 12) (.s 3) (.v 5) .zero 2 (.f96i 0x02000006))) 12
    ∧ decode (wordBytes [0xFF01E304, 0x00FFFFFF]) = .ok (.fence (fieldsWith true 4 .zero .zero .zero .zero 0 .f64)) 8
    ∧ decode (wordBytes [0x0501C385, 0x040301A2, 0x0008FF02])
      = .ok (.atom (fieldsWith true 0 (.v 5) (.s 2) (.v 1) (.v 3) 4 (.f96x 0x0008FF02))) 12
    ∧ decode (wordBytes [0x03008505, 0x00A6FF14, 0x00000001])
      = .ok (.spawn { fieldsWith true 0 (.v 3) (.v 20) .zero (.s 6) 0 (.f96i 1) with pg := 2 }) 12
    ∧ decode (wordBytes [0xFF01C718, 0x04FFFFE0]) = .ok (.mtsr (fieldsWith false 0 .zero (.e 0) .zero .zero 4 .f64)) 8

/-- Decoding what the encoder writes for a well-formed instruction gives that instruction with every operand at every value
the encoding admits, and the length its LEN code gives; the bytes after it do not matter. -/
def Obligations.DecodeOfEncode : Prop :=
  ∀ (i : Instr) (bs rest : List Byte), i.wellFormed = true → encode i = some bs → decode (bs ++ rest) = .ok i bs.length

/-- The other direction: bytes that decode to an instruction are the ones the encoder writes for it, the instruction is
well-formed, and its length is 8, 12 or 16 bytes as bits 1:0 of its first byte say. -/
def Obligations.EncodeOfDecode : Prop :=
  ∀ (bs : List Byte) (i : Instr) (n : Nat), decode bs = .ok i n →
    i.wellFormed = true ∧ encode i = some (bs.take n) ∧ n = lenBytes ((bs.headD 0).toNat % 4) ∧ (n = 8 ∨ n = 12 ∨ n = 16)

/-- An OP value that Table 2.8 does not list is no instruction, and neither is a SUB value not listed for its OP: the decoder
rejects it by name, whatever the other bits are. -/
def Obligations.UnlistedOpcodesRejected : Prop :=
  ∀ (x : Nat), nbits x 1 0 ≠ 3 →
    ((∀ k : Kind, k.info.op ≠ nbits x 10 3) → decodeNat x = .bad .opcode)
    ∧ ((∃ k : Kind, k.info.op = nbits x 10 3) → (∀ k : Kind, k.info.op = nbits x 10 3 → nbits x 13 11 ∉ k.info.subs) →
        ∃ r, decodeNat x = .bad r ∧ r ≠ .opcode)

/-! The step. -/

/-- Where the bytes at the run's next address decode to a well-formed instruction, a step is that instruction's meaning; when
the run has ended with it, the scheduler's and the waits' accounts are then kept (`afterInstr`), which is all a step adds. That the
bytes are those that memory holds now, and not ones fetched before a change, is the model's reading, log entry 23. -/
def Obligations.StepRunsDecoded : Prop :=
  ∀ (s : State) (r : Run) (c : Ctx) (pa : Nat) (i : Instr) (n : Nat),
    s.run = some r → s.ctx? r.ctx = some c → s.codeAt c r.pc pa →
    decode (s.readBytes (pa + r.pc.toNat % 32) (32 - r.pc.toNat % 32)) = .ok i n →
    step s = afterInstr s (exec i s) ∧ i.wellFormed = true

/-- Where they do not decode (a pad word met as an instruction, an unlisted encoding, an instruction that would cross its
32-byte block), the step takes the illegal-instruction trap, resuming at the run's first instruction; a fetch from an address at
or above 2^56, or with translation disabled, is an access violation with the address in TVAL. Where the run has come to a legal
row of pads other than by a transfer, the step goes past it instead (R16). That the fetch sees the bytes memory holds now is the
model's reading, log entry 23, and so is which rows of pads are skipped and how far in one step, log entry 58. -/
def Obligations.FetchTraps : Prop :=
  ∀ (s : State) (r : Run) (c : Ctx), s.run = some r → s.ctx? r.ctx = some c →
    (let t := fun (cause : Nat) (tval : W64) => s.trapTo r.ctx
      { cause := cause, detail := 0, psn := false, token := 0, lanes := r.lanes, fault := r.lanes, taddr := r.pc, tepc := r.first
        tval := tval, trec := 0xFFFF }
    let bad := fun pa => s.codeAt c r.pc pa ∧ ∀ i n, decode (s.readBytes (pa + r.pc.toNat % 32) (32 - r.pc.toNat % 32)) ≠ .ok i n
    let denied := 2 ^ 56 ≤ r.pc.toNat ∨ (s.reg c.loc.die 0x100000).getLsbD 0 = false
    (r.count = 0 ∨ s.pastPads c.loc r.pc = r.pc →
      (∀ pa, bad pa → step s = .next (t 0x01 0)) ∧ (denied → step s = .next (t 0x05 r.pc)))
    ∧ (r.count ≠ 0 → s.pastPads c.loc r.pc ≠ r.pc → ∀ pa, bad pa →
        step s = .next { s with run := some { r with pc := s.pastPads c.loc r.pc } }))

/-! Checks and traps. -/

/-- A check of R35 steps 2 to 4 that fails traps before anything of the run is performed, for every instruction of the
opcode map: the run is discarded, TEPC is the run's first instruction. The order of the checks: an ill-formed encoding is the
illegal-instruction trap whatever else is wrong, and so are a TRAP or BKPT that is not the first instruction of its run (R32)
and a SHFL whose segment is wider than the launch (R97; in a producer slot, than its 32 lanes, the model's choice, log entry 83); then
a context that may not execute the instruction (R11) is the context trap; then an operand its table does not allow (R22, R25 to R27)
is the illegal-operand trap, and last a register that two instructions of the run write, one of them as a token-producing instruction
(R30). That this last is found at the first such instruction, and that TEPC of a TRAP with a bad operand is the TRAP's own address, are
the model's readings, log entries 54 and 56. -/
def Obligations.FailedChecksTrap : Prop :=
  (∀ (i : Instr) (s : State) (v : Env) (cause : Nat) (at' : W64),
    s.envOf i = some v → v.checkFails = some (cause, at') →
    exec i s = .next (v.counted.trapTo v.c.id
      { cause := cause, detail := 0, psn := false, token := 0, lanes := v.r.lanes, fault := v.r.lanes, taddr := at'
        tepc := v.r.first, tval := 0, trec := 0xFFFF }))
  ∧ ∀ v : Env,
    let first := v.k = .trap ∨ v.k = .bkpt → v.r.count = 0
    let width := if v.c.kind = .seq then ((v.s.launch? v.c.launch).map fun l => 16 * 2 ^ l.record.width).getD 64 else v.c.width
    let segment := if nbits v.f.m.toNat 5 3 = 0 then width else 2 ^ nbits v.f.m.toNat 5 3
    let narrow := v.k = .shfl → segment ≤ width
    (encOk v.k v.f = false → v.checkFails = some (0x01, v.r.pc))
    ∧ (¬ first ∨ ¬ narrow → v.checkFails = some (0x01, v.r.pc))
    ∧ (encOk v.k v.f = true → first → narrow →
        (contextOk v.c.kind v.k v.f = false → v.checkFails = some (0x03, v.r.pc))
        ∧ (contextOk v.c.kind v.k v.f = true → operandsOk v.c.vregs v.k v.f = false ∨ v.r.pc ∈ v.r.clash →
            v.checkFails = some (0x02, v.r.pc))
        ∧ (contextOk v.c.kind v.k v.f = true → operandsOk v.c.vregs v.k v.f = true → v.r.pc ∉ v.r.clash → v.checkFails = none))

/-- Table 1.4: a lane warp executes exactly the instructions outside class 0x8 but SRD, SEMIT and RREL.PUB.LAST, which are the
producer slot's; the producer slot those of classes 0x0 to 0x2, 0x5, 0x6 and 0xB; the sequencer, naming no v register, class 0x0 but
ENROL, PARK, STRIKE and EXIT.SUCC, classes 0x1, 0x6, 0x8, 0x9, 0xC, 0xD and 0xE, LDU and STU, ATOMU, and of class 0xB the copies, RINIT,
RACQ and RREL but .PUB.LAST. -/
def Obligations.ContextClasses : Prop :=
  ∀ (k : Kind) (f : Fields),
    let cls := k.info.op / 16
    (contextOk .lane k f = true ↔ cls ≠ 8 ∧ k ∉ [Kind.srd, .semit, .rrelPubLast])
    ∧ (contextOk .slot k f = true ↔ cls ∈ [0, 1, 2, 5, 6, 11])
    ∧ (contextOk .seq k f = true ↔ namesV k f = false
        ∧ (cls = 0 ∧ k ∉ [Kind.enrol, .park, .strike, .exitSucc] ∨ cls ∈ [1, 6, 8, 9, 12, 13, 14] ∨ k ∈ [Kind.ldu, .stu, .atomu]
          ∨ k ∈ [Kind.cpy, .cpyRing, .cpygGather, .cpygScatter, .rinit, .racqProd, .racqCons, .rrelPub, .rrelFree]))

/-- Taking a trap in a warp or slot that has a handler and is not in it (R351): the open run is gone, the system registers of
Table 17.3 are written, the trapping lanes are runnable at the handler (past pads there, R16), all halted where the debugger
stepped one of them (R370), the other lanes and every register keep what they hold; memory, the other contexts and the rest of
the machine are as before, but for PSCAUSE, PSADDR and PSLANES of the block where the trap is its producer slot's. That pads at the
handler's entry are skipped is the model's reading, log entry 58. -/
def Obligations.TrapEntry : Prop :=
  ∀ (s : State) (c : Ctx) (t : TrapInfo), s.ctx? c.id = some c → c.kind ≠ .seq → c.inh = false → c.sr.tentry ≠ 0 → t.lanes.Nodup →
    (let s1 : State := { s with run := none, ctxs := s.ctxs.map fun x =>
        if x.id = c.id then x.enterHandler t (s.pastPads x.loc x.sr.tentry) else x }
     s.takeTrap c.id t = if c.kind = .slot then s1.setStat c.block fun x => { x with
          pscause := t.tcause, psaddr := t.taddr, pslanes := maskOf t.lanes } else s1)
    ∧ (∀ pc, (c.enterHandler t pc).sr = { c.sr with
        tcause := BitVec.ofNat 64 (t.cause + 2 ^ 8 * t.detail + 2 ^ 16 * t.token + 2 ^ 30 * (if t.psn then 1 else 0) + 2 ^ 31)
        tlanes := maskOf t.lanes, tfault := maskOf t.fault, taddr := t.taddr, tepc := t.tepc, tval := t.tval
        trec := BitVec.ofNat 64 t.trec })
    ∧ (∀ pc l, l < c.lanes.length → (c.enterHandler t pc).lane l =
        if l ∈ t.lanes then { c.lane l with
          pc := pc, fell := true, st := .runnable, halted := t.lanes.any fun i => (c.lane i).stepping, stepping := false }
        else c.lane l)
    ∧ (∀ pc, (c.enterHandler t pc).v = c.v ∧ (c.enterHandler t pc).s = c.s ∧ (c.enterHandler t pc).p = c.p
        ∧ (c.enterHandler t pc).m = c.m ∧ (c.enterHandler t pc).tok = c.tok)

/-- A trap in a handler, or in a warp without one, kills the warp's block without handler entry (R353): every lane warp and
slot of the block ends, the block is marked killed with no successor, the first such fault of the launch is its summary, and
no byte of memory changes (for a block that is no child warp). -/
def Obligations.KillingTrap : Prop :=
  ∀ (s : State) (c : Ctx) (b : Block) (t : TrapInfo),
    s.ctx? c.id = some c → c.kind = .lane → (c.inh = true ∨ c.sr.tentry = 0) → s.block? c.block = some b → b.killed = false →
    b.child = false →
    (s.takeTrap c.id t).mem = s.mem ∧ (s.takeTrap c.id t).run = none
    ∧ (s.takeTrap c.id t).block? b.id = some { b with
        killed := true, succSlot := none, stat := if b.slotCtx.isSome then { b.stat with killed := true } else b.stat }
    ∧ (∀ x ∈ (s.takeTrap c.id t).ctxs, x.block = b.id → x.kind ≠ .seq → x.ended = true)
    ∧ (∀ l ∈ s.launches, l.id = b.launch → l.firstKill = none →
        ∃ l' ∈ (s.takeTrap c.id t).launches, l'.id = l.id ∧ l'.kills = l.kills + 1 ∧ l'.killed = true
          ∧ l'.firstKill = some { taddr := t.taddr, cause := t.cause, lane := t.fault.headD (t.lanes.headD 0), loc := b.loc, faddr := t.tval })

/-! Integer, address, lane and predicate instructions (05_integer_lane.md). -/

/-- R82: IADD and ISUB give the exact sum or difference of Ext(a) and Ext(b), wrapped or saturated, with no fault and no flag;
under .WRAP both signednesses give the same bits. Beside them the products (.HI is bits [2N-1:N] of the exact product, .WIDE
all 64), IMIN, IMAX, IABS and INEG. The next state is that of the one result. -/
def Obligations.IntegerArithmetic : Prop :=
  ∀ f : Fields,
    Performs (.iadd f) Env.any (fun v => v.result v.w fun l =>
      if f.sub = 1 then satN v.n v.sg (v.extA l + v.extB l) else wrapN v.n (v.extA l + v.extB l))
    ∧ Performs (.isub f) Env.any (fun v => v.result v.w fun l =>
      if f.sub = 1 then satN v.n v.sg (v.extA l - v.extB l) else wrapN v.n (v.extA l - v.extB l))
    ∧ (∀ n ∈ [32, 64], ∀ a b : W64, wrapN n (extN n true a + extN n true b) = wrapN n (extN n false a + extN n false b)
        ∧ wrapN n (extN n true a - extN n true b) = wrapN n (extN n false a - extN n false b))
    ∧ Performs (.imul f) Env.any (fun v => v.result (v.w || f.sub = 2) fun l =>
      if f.sub = 0 then wrapN v.n (v.extA l * v.extB l)
      else if f.sub = 1 then wrapN v.n (v.extA l * v.extB l / 2 ^ v.n) else wrapN 64 (v.extA l * v.extB l))
    ∧ Performs (.imad f) Env.any (fun v => v.result (v.w || f.sub = 2) fun l =>
      let c := v.rd (v.w || f.sub = 2) f.c l
      if f.sub = 0 then wrapN v.n (v.extA l * v.extB l + extN v.n v.sg c)
      else if f.sub = 1 then wrapN v.n (v.extA l * v.extB l / 2 ^ v.n + extN v.n v.sg c)
      else wrapN 64 (v.extA l * v.extB l + extN 64 v.sg c))
    ∧ Performs (.imin f) Env.any (fun v => v.result v.w fun l => wrapN v.n (min (v.extA l) (v.extB l)))
    ∧ Performs (.imax f) Env.any (fun v => v.result v.w fun l => wrapN v.n (max (v.extA l) (v.extB l)))
    ∧ Performs (.iabs f) Env.any (fun v => v.result v.w fun l =>
      if f.m.getLsbD 3 then satN v.n true |v.extA l| else wrapN v.n |v.extA l|)
    ∧ Performs (.ineg f) Env.any (fun v => v.result v.w fun l =>
      if f.m.getLsbD 3 then satN v.n true (-v.extA l) else wrapN v.n (-v.extA l))

/-- The same arithmetic on bit vectors: with N = 64 .WRAP addition, subtraction and the low product are those of 64-bit
words, with N = 32 those of the low words, zero-extended, whatever the signedness; an unsigned .SAT sum is the exact sum or
the greatest value. -/
def Obligations.WrapIsBitVecArithmetic : Prop :=
  ∀ (sg : Bool) (a b : W64),
    wrapN 64 (extN 64 sg a + extN 64 sg b) = a + b ∧ wrapN 64 (extN 64 sg a - extN 64 sg b) = a - b
    ∧ wrapN 64 (extN 64 sg a * extN 64 sg b) = a * b ∧ wrapN 64 (-extN 64 sg a) = -a
    ∧ wrapN 32 (extN 32 sg a + extN 32 sg b) = (a.setWidth 32 + b.setWidth 32).setWidth 64
    ∧ wrapN 32 (extN 32 sg a - extN 32 sg b) = (a.setWidth 32 - b.setWidth 32).setWidth 64
    ∧ wrapN 32 (extN 32 sg a * extN 32 sg b) = (a.setWidth 32 * b.setWidth 32).setWidth 64
    ∧ (satN 64 false (extN 64 false a + extN 64 false b)).toNat = min (a.toNat + b.toNat) (2 ^ 64 - 1)
    ∧ (satN 32 true (extN 32 true a + extN 32 true b)).setWidth 32
        = BitVec.ofInt 32 (max (-2147483648) (min 2147483647 ((a.setWidth 32).toInt + (b.setWidth 32).toInt)))

/-- R85: the logic forms act on all N bits, whatever the signedness. -/
def Obligations.LogicForms : Prop :=
  ∀ f : Fields,
    Performs (.andL f) Env.any (fun v => v.result v.w fun l => lowN v.n (v.patA l &&& v.patB l))
    ∧ Performs (.orL f) Env.any (fun v => v.result v.w fun l => lowN v.n (v.patA l ||| v.patB l))
    ∧ Performs (.xorL f) Env.any (fun v => v.result v.w fun l => lowN v.n (v.patA l ^^^ v.patB l))
    ∧ Performs (.andn f) Env.any (fun v => v.result v.w fun l => lowN v.n (v.patA l &&& ~~~v.patB l))
    ∧ Performs (.orn f) Env.any (fun v => v.result v.w fun l => lowN v.n (v.patA l ||| ~~~v.patB l))
    ∧ Performs (.xnor f) Env.any (fun v => v.result v.w fun l => lowN v.n (~~~(v.patA l ^^^ v.patB l)))

/-- R86: SHL, SHR, SHA and ROL shift by k, the unsigned value of b[31:0], and the type supplies only N. On bit vectors of N
bits and any k: SHL and SHR bring zeros in and give 0 for k at or above N, SHA brings copies of the sign in, ROL rotates by
k mod N. -/
def Obligations.ShiftForms : Prop :=
  (∀ f : Fields,
    let k := fun (v : Env) (l : Nat) => (v.rdB v.w false l).toNat % 2 ^ 32
    Performs (.shl f) Env.any (fun v => v.result v.w fun l => shiftOp 0 f.ty (k v l) (v.patA l))
    ∧ Performs (.shr f) Env.any (fun v => v.result v.w fun l => shiftOp 1 f.ty (k v l) (v.patA l))
    ∧ Performs (.sha f) Env.any (fun v => v.result v.w fun l => shiftOp 2 f.ty (k v l) (v.patA l))
    ∧ Performs (.rol f) Env.any (fun v => v.result v.w fun l => shiftOp 3 f.ty (k v l) (v.patA l)))
  ∧ ∀ (k : Nat) (x : BitVec 64) (y : BitVec 32) (sg : Bool),
    let t64 := if sg then 3 else 2
    let t32 := if sg then 1 else 0
    shiftOp 0 t64 k x = x <<< k ∧ shiftOp 1 t64 k x = x >>> k ∧ shiftOp 2 t64 k x = x.sshiftRight k
    ∧ shiftOp 3 t64 k x = x.rotateLeft k
    ∧ shiftOp 0 t32 k (y.setWidth 64) = (y <<< k).setWidth 64 ∧ shiftOp 1 t32 k (y.setWidth 64) = (y >>> k).setWidth 64
    ∧ shiftOp 2 t32 k (y.setWidth 64) = (y.sshiftRight k).setWidth 64
    ∧ shiftOp 3 t32 k (y.setWidth 64) = (y.rotateLeft k).setWidth 64

/-- R87: POPC gives the number of set bits; CLZ N less the position above the highest set bit, N for zero; CTZ the position of
the lowest set bit, N for zero; bit i of BREV's result is bit N-1-i of a. Signedness plays no part. -/
def Obligations.BitCounts : Prop :=
  (∀ f : Fields,
    Performs (.popc f) Env.any (fun v => v.result v.w fun l => bitOp 0 f.ty (v.patA l))
    ∧ Performs (.clz f) Env.any (fun v => v.result v.w fun l => bitOp 1 f.ty (v.patA l))
    ∧ Performs (.ctz f) Env.any (fun v => v.result v.w fun l => bitOp 2 f.ty (v.patA l))
    ∧ Performs (.brev f) Env.any (fun v => v.result v.w fun l => bitOp 3 f.ty (v.patA l)))
  ∧ ∀ (ty : Nat) (a : W64),
    let n := tyBits ty
    let x := a.toNat % 2 ^ n
    (bitOp 0 ty a).toNat = ((List.range n).filter fun i => x.testBit i).length
    ∧ (bitOp 1 ty a).toNat = n - (if x = 0 then 0 else Nat.log2 x + 1)
    ∧ ((bitOp 2 ty a).toNat ≤ n ∧ (∀ i < (bitOp 2 ty a).toNat, x.testBit i = false)
        ∧ ((bitOp 2 ty a).toNat < n → x.testBit (bitOp 2 ty a).toNat = true))
    ∧ (∀ i < n, (bitOp 3 ty a).getLsbD i = a.getLsbD (n - 1 - i)) ∧ (∀ i, n ≤ i → (bitOp 3 ty a).getLsbD i = false)

/-- R88 to R93, and PLOP (R95): bit fields, comparison, selection, moves, address arithmetic. MOVS reads the special of each
lane into v, a lane-by-lane special into e too, and any other once. That SEL with an e destination and no v operand picks once, by the
lowest lane's predicate, is the model's choice, log entry 75. -/
def Obligations.FieldsComparesMoves : Prop :=
  ∀ f : Fields,
    Performs (.bfx f) Env.any (fun v => v.result v.w fun l => bfxOp f.ty (v.patA l) (if v.isImm then v.imm else v.rd32 f.b l))
    ∧ Performs (.bfi f) Env.any (fun v => v.result v.w fun l => bfiOp f.ty (v.patA l) (v.patB l) (v.rd32 f.c l))
    ∧ Performs (.icmp f) Env.any (fun v =>
      let g := fun l => match f.sub.val with
        | 0 => decide (v.extA l = v.extB l)
        | 1 => decide (v.extA l ≠ v.extB l)
        | 2 => decide (v.extA l < v.extB l)
        | 3 => decide (v.extA l ≤ v.extB l)
        | 4 => decide (v.extB l < v.extA l)
        | _ => decide (v.extB l ≤ v.extA l)
      if f.m.getLsbD 3 then v.resultP g else v.result v.w fun l => if g l then 1 else 0)
    ∧ Performs (.sel f) Env.any (fun v => v.result v.w fun l =>
      if v.c.rdP f.c.byte l ^^ f.m.getLsbD 3 then v.patA l else v.patB l)
    ∧ Performs (.mov f) Env.any (fun v => v.result v.w fun l => v.patA l)
    ∧ Performs (.movI32 f) Env.any (fun v =>
      let wide := v.w || f.d.isS || (match f.d with | .e _ => true | _ => false)
      v.result wide fun _ => if wide && v.sg then v.imm.signExtend 64 else v.imm.setWidth 64)
    ∧ (∀ x, f.ext = .f128i x → Performs (.movI64 f) Env.any (fun v => v.result true fun _ => x))
    ∧ Performs (.movs f) Env.any (fun v =>
      let code := nbits f.m.toNat 5 0
      let g := fun l => BitVec.ofNat 64 (v.special code l)
      if f.d.isS then v.onceOut (v.putOnce (code == 0x10) [] (g v.low))
      else if f.d.isV || code = 0x00 || code = 0x01 || code = 0x11 then v.put (code == 0x10) v.parts g
      else v.onceOut (v.putOnce (code == 0x10) [] (g v.low)))
    ∧ Performs (.lea f) Env.any (fun v => v.result true fun l =>
      v.rd64 f.a l + ((if v.isImm then v.imm else v.rd32 f.b l).setWidth 64 <<< f.ty) + v.rd64 f.c l)
    ∧ Performs (.plop f) Env.any (fun v => Out.regs (v.parts.map fun l => Held.p f.d.byte l
      (f.m.getLsbD (4 * (v.c.rdP f.a.byte l).toNat + 2 * (v.c.rdP f.b.byte l).toNat + (v.c.rdP f.c.byte l).toNat))))

/-- What BFX and BFI compute, bit by bit (R88), for every position and length: bits at or above N read as the sign of a signed
type and as 0 of an unsigned one; the field inserted replaces only bits pos to pos + len' - 1 of the low N. -/
def Obligations.BitFields : Prop :=
  ∀ (ty : Nat) (a b : W64) (ctl : W32), ty ≤ 3 →
    let n := tyBits ty
    let pos := ctl.toNat % 2 ^ 8
    let len := min (ctl.toNat / 2 ^ 8 % 2 ^ 8) n
    let bit := fun i => if i < n then a.getLsbD i else tySigned ty && a.getLsbD (n - 1)
    (∀ i < n, (bfxOp ty a ctl).getLsbD i =
      (decide (len ≠ 0) && if i < len then bit (pos + i) else tySigned ty && bit (pos + len - 1)))
    ∧ ∀ i < n, (bfiOp ty a b ctl).getLsbD i = if pos ≤ i ∧ i < pos + len then b.getLsbD (i - pos) else a.getLsbD i

/-- R96 to R101 on the participants, the lanes of the run whose guard is true: ballots, votes, exchanges, reductions, scans,
single lanes and matches. With no v register named a source is that of the lowest lane (R94). In a warp or a producer slot a SHFL whose
segment is wider than its width traps. The model's choices: VOTE with no participant answers and BALLOT writes nothing (log entry 65);
MATCH into s or e compares with the lowest lane whatever its guard (77); the slot's width is 32 lanes (83); guards are tested lane by
lane where no operand is a v register, and SHFL, QSWAP, QBC and SCAN then write an e destination in the participants alone (95). -/
def Obligations.LaneExchanges : Prop :=
  ∀ f : Fields,
    let val := fun (v : Env) (l : Nat) => v.patA (if usesV v.k f then l else v.low)
    Performs (.ballot f) Env.any (fun v => v.someOut (v.putOnce true v.parts (maskOf (v.parts.filter fun l => v.c.rdP f.a.byte l))))
    ∧ Performs (.vote f) Env.any (fun v =>
      let yes := v.parts.filter fun l => v.c.rdP f.a.byte l
      let r := if f.sub = 0 then yes = v.parts else if f.sub = 1 then yes ≠ [] else yes = v.parts ∨ yes = []
      if f.m.getLsbD 3 then Out.regs (v.parts.map fun l => Held.p f.d.byte l (decide r))
      else v.putOnce false v.parts (if r then 1 else 0))
    ∧ (let seg := fun (v : Env) => if nbits f.m.toNat 5 3 = 0 then v.c.width else 2 ^ nbits f.m.toNat 5 3;
      Performs (.shfl f) Env.any (fun v => v.put v.w v.parts fun l =>
        let k := (if v.isImm then v.imm else v.rd32 f.b l).toNat
        let base := l - l % seg v
        let j := if f.sub = 0 then base + k % seg v else if f.sub = 1 then (if l < base + k then l else l - k)
          else if f.sub = 2 then (if base + seg v ≤ l + k then l else l + k) else l ^^^ (k % seg v)
        val v (if j ∈ v.parts then j else l))
      ∧ ∀ s v, s.envOf (.shfl f) = some v → v.c.kind ≠ .seq → encOk v.k v.f = true → v.c.width < seg v →
        exec (.shfl f) s = .next (v.counted.trapTo v.c.id (v.plainTrap 0x01)))
    ∧ (let quad := fun (partner : Nat → Nat) (v : Env) => v.put v.w v.parts fun l =>
        match f.a with
        | .e _ => if partner l ∈ v.parts then val v (partner l) else 0
        | _ => val v (partner l);
      Performs (.qswap f) Env.any (quad fun l => l ^^^ (f.sub.val + 1))
      ∧ Performs (.qbc f) Env.any (quad fun l => 4 * (l / 4) + nbits f.m.toNat 4 3))
    ∧ (let fold := fun (v : Env) (ls : List Nat) => ls.foldl (fun r l => redOp f.sub.val f.ty r (val v l)) (redUnit f.sub.val f.ty);
      Performs (.redux f) Env.any (fun v => v.someOut (v.putOnce v.w v.parts (fold v v.parts)))
      ∧ Performs (.scan f) Env.any (fun v => v.put v.w v.parts fun l =>
          fold v (v.parts.filter fun j => if f.m.getLsbD 3 then decide (j < l) else decide (j ≤ l)))
      ∧ Performs (.matchL f) Env.any (fun v =>
          let same := fun l => maskOf (v.parts.filter fun j => val v j == val v l)
          if f.d.isV then v.put true v.parts same else v.someOut (v.putOnce true v.parts (same v.low))))
    ∧ (let k := fun (v : Env) => if v.isImm then v.imm.toNat else (v.rd v.w f.b v.low).toNat;
      Performs (.rdlane f) Env.any (fun v => v.someOut (v.putOnce v.w v.parts
        (if k v < v.c.width then
          (match f.a with | .e _ => if k v ∈ v.r.lanes then val v (k v) else 0 | _ => val v (k v))
         else 0)))
      ∧ ∀ n, f.d = .v n → Performs (.wrlane f) Env.any (fun v => v.onceOut (
          if k v < v.c.width ∧ (v.c.lane (k v)).st ≠ .exited then
            Out.regs (Held.v n.val (k v) ((v.patA v.low).setWidth 32) ::
              if v.w then [Held.v (n.val + 1) (k v) ((v.patA v.low >>> 32).setWidth 32)] else [])
          else Out.nil)))

/-! Floating point (06_float.md). -/

/-- R113 to R124 and FRCP, FSQRT: each instruction's result is that of its format operation on the 32-bit containers of A,
B (or IMM32) and C, halves apart for a packed type; F2I takes a pair for a 64-bit type, I2F reads one. -/
def Obligations.FloatInstructions : Prop :=
  ∀ f : Fields,
    let fl := fun (g : Nat → Nat → Nat → Nat) (v : Env) => v.result false fun l => BitVec.ofNat 64
      (g (v.rd32 f.a l).toNat (if v.isImm then v.imm else v.rd32 f.b l).toNat (v.rd32 f.c l).toNat)
    (∀ p ∈ [(Instr.fadd, 0), (.fsub, 1), (.fmul, 2), (.ffma, 3)], Performs (p.1 f) Env.any (fl (lanewise f.ft (farith p.2 f.rm))))
    ∧ (∀ p ∈ [(Instr.fmin, false), (.fmax, true)],
        Performs (p.1 f) Env.any (fl (lanewise f.ft fun ct x y _ => fminmax p.2 (f.sub.val == 1) ct x y)))
    ∧ Performs (.fcmp f) Env.any (fun v =>
        let g := fun l => fcmp f.sub.val f.ft (v.rd32 f.a l).toNat (if v.isImm then v.imm else v.rd32 f.b l).toNat
        if f.m.getLsbD 5 then v.resultP g else v.result false fun l => if g l then 1 else 0)
    ∧ Performs (.fclass f) Env.any (fl fun a _ _ => fclass f.ft a)
    ∧ Performs (.frnd f) Env.any (fl fun a _ _ => frnd f.rm f.ft a)
    ∧ Performs (.fdot2 f) Env.any (fl fun a b c => fdot2 f.rm (ftCt f.ft) a b c)
    ∧ Performs (.fcvt f) Env.any (fl fun a _ _ => fcvt f.rm f.ft f.hiTy a)
    ∧ Performs (.f2i f) Env.any (fun v => v.result (decide (2 ≤ f.hiTy)) fun l => f2i f.rm f.hiTy f.ft (v.rd32 f.a l).toNat)
    ∧ Performs (.i2f f) Env.any (fun v => v.result false fun l =>
        let n := if 2 ≤ f.hiTy then 64 else 32
        BitVec.ofNat 64 (i2f f.rm f.ft (extN n (f.hiTy % 2 == 1) (v.rd (n == 64) f.a l))))
    ∧ Performs (.fpack f) Env.any (fl fun a b c => fpack f.rm f.ft (f.m.getLsbD 5) a b c)
    ∧ Performs (.funpk f) Env.any (fl fun a _ _ => funpk f.ft (nbits f.m.toNat 6 5) a)
    ∧ Performs (.fscl f) Env.any (fl fun a b _ => fscl (f.m.getLsbD 7) f.rm f.ft a (BitVec.ofNat 32 b))
    ∧ Performs (.frcp f) Env.any (fl fun a _ _ => frcp f.rm f.ft a)
    ∧ Performs (.fsqrt f) Env.any (fl fun a _ _ => fsqrt f.rm f.ft a)

/-- R125, R126: FRSQ, FEX2, FLG2, FSIN, FCOS and FTANH complete with the value of their special function. On NaN, infinities
and zeros that value is Table 6.9's; in FP32 FEX2 of an integer n from -126 to 127 gives 2^n and FLG2 of 2^n gives n; FLG2
of 1.0 gives +0 in every type. The value on other arguments is the model's (log entry 13). -/
def Obligations.SpecialFunctions : Prop :=
  (∀ f : Fields,
    let fl := fun (fn op : Nat) (v : Env) => v.result false fun l => BitVec.ofNat 64 (special fn op f.ft (v.rd32 f.a l).toNat)
    Performs (.frsq f) Env.any (fl 0 0x47) ∧ Performs (.fex2 f) Env.any (fl 1 0x49) ∧ Performs (.flg2 f) Env.any (fl 2 0x4A)
    ∧ Performs (.fsin f) Env.any (fl 3 0x4B) ∧ Performs (.fcos f) Env.any (fl 4 0x4C) ∧ Performs (.ftanh f) Env.any (fl 5 0x4D))
  ∧ (∀ op ct : Nat, ct ≤ 2 →
      let t := fmtOf ct
      let inf := 2 ^ t.mag - 2 ^ t.fbits
      let one := t.bias * 2 ^ t.fbits
      let neg := 2 ^ t.mag
      (∀ fn ≤ 5, special fn op ct t.nan = t.nan)
      ∧ (∀ fn ∈ [3, 4], special fn op ct inf = t.nan ∧ special fn op ct (neg + inf) = t.nan)
      ∧ special 0 op ct 0 = inf ∧ special 0 op ct neg = neg + inf ∧ special 0 op ct inf = 0 ∧ special 0 op ct (neg + inf) = t.nan
      ∧ special 1 op ct 0 = one ∧ special 1 op ct neg = one ∧ special 1 op ct inf = inf ∧ special 1 op ct (neg + inf) = 0
      ∧ special 2 op ct 0 = neg + inf ∧ special 2 op ct neg = neg + inf ∧ special 2 op ct inf = inf
      ∧ special 2 op ct (neg + inf) = t.nan ∧ special 2 op ct one = 0
      ∧ special 3 op ct 0 = 0 ∧ special 3 op ct neg = neg ∧ special 4 op ct 0 = one ∧ special 4 op ct neg = one
      ∧ special 5 op ct 0 = 0 ∧ special 5 op ct neg = neg ∧ special 5 op ct inf = one ∧ special 5 op ct (neg + inf) = neg + one)
  ∧ ∀ (op : Nat) (n : Int), -126 ≤ n → n ≤ 127 →
      special 1 op 0 (i2f 0 0 n) = (n + 127).toNat * 2 ^ 23 ∧ special 2 op 0 ((n + 127).toNat * 2 ^ 23) = i2f 0 0 n

/-- R103, R108, R109 in FP32, FP16, BF16 and the FP8 formats. A value that a format holds converts to itself under every rounding
mode. A result of FADD, FSUB, FMUL, FFMA, FMIN, FMAX, FCVT and FRND that is a NaN is the canonical NaN of its format. And rounding is
correct: where the exact value v is within the format's finite range, FADD, FSUB, FMUL, FFMA, FDOT2, FCVT, FSCL, FRCP and FSQRT of finite
operands give, of all values of the format, the nearest to v under .RN, the one with an even pattern where two are as near; under .RU
the least at or above v, under .RD the greatest at or below it, and under .RZ that of the two on the side of zero. -/
def Obligations.FloatRounding : Prop :=
  (∀ ct rm x : Nat, ct ≤ 4 → rm ≤ 3 → x < 2 ^ ((fmtOf ct).mag + 1) → (fdec ct x).isNan = false → fcvt rm ct ct x = x)
  ∧ (∀ op rm ct a b c : Nat, ct ≤ 4 →
    ((fdec ct (farith op rm ct a b c)).isNan = true → farith op rm ct a b c = (fmtOf ct).nan)
    ∧ (∀ mx nan, (fdec ct (fminmax mx nan ct a b)).isNan = true → fminmax mx nan ct a b = (fmtOf ct).nan)
    ∧ (∀ st ≤ 5, (fdec ct (fcvt rm ct st a)).isNan = true → fcvt rm ct st a = (fmtOf ct).nan)
    ∧ ((fdec ct (frnd rm ct a)).isNan = true → frnd rm ct a = (fmtOf ct).nan))
  ∧ (let val := fun (ct p : Nat) => (match fdec ct p with
      | .fin n m e => (if n then -1 else 1) * (m : ℝ) * (2 : ℝ) ^ e
      | _ => 0 : ℝ)
    let fin := fun (ct p : Nat) => (match fdec ct p with | .fin _ _ _ => True | _ => False : Prop)
    let rounds := fun (ct rm : Nat) (v : ℝ) (r : Nat) => |v| ≤ val ct (fmtOf ct).maxFin →
      fin ct r ∧ ∀ p, fin ct p →
        (rm = 0 → |val ct r - v| ≤ |val ct p - v|
          ∧ (|val ct r - v| = |val ct p - v| → val ct p ≠ val ct r → r % 2 = 0))
        ∧ (rm = 2 ∨ rm = 1 ∧ v ≤ 0 → v ≤ val ct r ∧ (v ≤ val ct p → val ct r ≤ val ct p))
        ∧ (rm = 3 ∨ rm = 1 ∧ 0 ≤ v → val ct r ≤ v ∧ (val ct p ≤ v → val ct p ≤ val ct r))
    ∀ ct rm a b c : Nat, ct ≤ 4 → rm ≤ 3 → fin ct a → fin ct b → fin ct c →
      rounds ct rm (val ct a + val ct b) (farith 0 rm ct a b c) ∧ rounds ct rm (val ct a - val ct b) (farith 1 rm ct a b c)
      ∧ rounds ct rm (val ct a * val ct b) (farith 2 rm ct a b c)
      ∧ rounds ct rm (val ct a * val ct b + val ct c) (farith 3 rm ct a b c)
      ∧ (∀ st x, st ≤ 5 → fin st x → rounds ct rm (val st x) (fcvt rm ct st x))
      ∧ (∀ n : W32, rounds ct rm (val ct a * (2 : ℝ) ^ n.toInt) (fscl false rm ct a n)
          ∧ (n.toNat % 256 ≠ 255 → rounds ct rm (val ct a * (2 : ℝ) ^ ((n.toNat % 256 : Int) - 127)) (fscl true rm ct a n)))
      ∧ (val ct a ≠ 0 → rounds ct rm (1 / val ct a) (frcp rm ct a))
      ∧ (0 < val ct a → rounds ct rm (Real.sqrt (val ct a)) (fsqrt rm ct a))
      ∧ ∀ a1 b1 z, 1 ≤ ct → ct ≤ 2 → a < 2 ^ 16 → b < 2 ^ 16 → a1 < 2 ^ 16 → b1 < 2 ^ 16 → fin ct a1 → fin ct b1 → fin 0 z →
          rounds 0 rm (val ct a * val ct b + val ct a1 * val ct b1 + val 0 z) (fdot2 rm ct (a + 2 ^ 16 * a1) (b + 2 ^ 16 * b1) z))

/-- R113, R120, R121: addition and multiplication do not depend on the order of their operands, a product with 1.0 and then a sum is
the sum, and an integer of at most 24 bits survives the way to FP32 and back under every rounding mode. R115: FCMP orders by value,
-0 equal to +0, and with a NaN only .NE and .UN are true. R116: the class that FCLASS reports, from the fields of the pattern. R117: FRND
gives an integral value, rounded as RM says, with the sign of its operand, and leaves an integral value and an infinity as they are. R122,
R123: where FPACK puts its elements, and FUNPK's value is that of the element it names. R118, R124, R126: NaN operands and infinities of
FDOT2 and FSCL, and zeros, infinities and negative operands of FRCP and FSQRT. -/
def Obligations.FloatLaws : Prop :=
  (∀ rm ct a b c : Nat, ct ≤ 4 → rm ≤ 3 →
    farith 0 rm ct a b c = farith 0 rm ct b a c ∧ farith 2 rm ct a b c = farith 2 rm ct b a c
    ∧ farith 3 rm ct a ((fmtOf ct).bias * 2 ^ (fmtOf ct).fbits) c = farith 0 rm ct a c 0
    ∧ ∀ i : Int, |i| ≤ 2 ^ 24 → f2i rm 3 0 (i2f rm 0 i) = BitVec.ofInt 64 i)
  ∧ (let val := fun (ct p : Nat) => (match fdec ct p with
      | .fin n m e => (if n then -1 else 1) * (m : ℚ) * (2 : ℚ) ^ e
      | _ => 0 : ℚ)
    let side := fun (ct p : Nat) => (match fdec ct p with | .inf n => if n then -1 else 1 | _ => 0 : Int)
    let nan := fun (ct p : Nat) => (fdec ct p).isNan = true
    let less := fun (ct a b : Nat) => side ct a < side ct b ∨ side ct a = side ct b ∧ val ct a < val ct b
    (∀ ct a b : Nat, ct ≤ 2 →
      (¬ nan ct a → ¬ nan ct b →
        (fcmp 0 ct a b = true ↔ ¬ less ct a b ∧ ¬ less ct b a) ∧ (fcmp 1 ct a b = true ↔ less ct a b ∨ less ct b a)
        ∧ (fcmp 2 ct a b = true ↔ less ct a b) ∧ (fcmp 3 ct a b = true ↔ ¬ less ct b a)
        ∧ (fcmp 4 ct a b = true ↔ less ct b a) ∧ (fcmp 5 ct a b = true ↔ ¬ less ct a b)
        ∧ fcmp 6 ct a b = false ∧ fcmp 7 ct a b = true)
      ∧ (nan ct a ∨ nan ct b → ∀ cc ≤ 7, fcmp cc ct a b = decide (cc = 1 ∨ cc = 6)))
    ∧ (∀ ct a : Nat, ct ≤ 2 → a < 2 ^ ((fmtOf ct).mag + 1) →
      let t := fmtOf ct
      let neg := a.testBit t.mag
      let expo := a % 2 ^ t.mag / 2 ^ t.fbits
      let frac := a % 2 ^ t.fbits
      fclass ct a = 2 ^ (if expo = 2 ^ t.ebits - 1 then (if frac = 0 then (if neg then 0 else 7) else if frac.testBit (t.fbits - 1) then 9 else 8)
        else if expo = 0 then (if frac = 0 then (if neg then 3 else 4) else if neg then 2 else 5)
        else if neg then 1 else 6))
    ∧ (∀ ct rm a : Nat, ct ≤ 2 → rm ≤ 3 → a < 2 ^ ((fmtOf ct).mag + 1) →
      let r := frnd rm ct a
      (nan ct a → r = (fmtOf ct).nan) ∧ (side ct a ≠ 0 → r = a)
      ∧ (¬ nan ct a → side ct a = 0 → (fdec ct r).sign = (fdec ct a).sign ∧ ∃ z : Int, val ct r = z ∧ side ct r = 0 ∧ ¬ nan ct r
        ∧ (rm = 0 → |val ct a - z| ≤ 1 / 2 ∧ (|val ct a - z| = 1 / 2 → z % 2 = 0))
        ∧ (rm = 1 → z = if val ct a < 0 then ⌈val ct a⌉ else ⌊val ct a⌋)
        ∧ (rm = 2 → z = ⌈val ct a⌉) ∧ (rm = 3 → z = ⌊val ct a⌋) ∧ (val ct a = z → r = a)))
    ∧ (∀ ct rm a b c : Nat, rm ≤ 3 → c < 2 ^ 32 →
      let x := fcvt rm ct 0 a
      let y := fcvt rm ct 0 b
      (1 ≤ ct → ct ≤ 2 → fpack rm ct false a b c % 2 ^ 16 = x ∧ fpack rm ct false a b c / 2 ^ 16 = y)
      ∧ (3 ≤ ct → ct ≤ 5 →
        (fpack rm ct false a b c % 2 ^ 8 = x ∧ fpack rm ct false a b c / 2 ^ 8 % 2 ^ 8 = y ∧ fpack rm ct false a b c / 2 ^ 16 = c / 2 ^ 16)
        ∧ fpack rm ct true a b c % 2 ^ 16 = c % 2 ^ 16 ∧ fpack rm ct true a b c / 2 ^ 16 % 2 ^ 8 = x ∧ fpack rm ct true a b c / 2 ^ 24 = y))
    ∧ (∀ ct i a : Nat, 1 ≤ ct → ct ≤ 5 →
      let w := if ct ≤ 2 then 16 else 8
      let x := a / 2 ^ (w * i) % 2 ^ w
      (nan ct x → funpk ct i a = 0x7FC00000)
      ∧ (¬ nan ct x → ¬ nan 0 (funpk ct i a) ∧ side 0 (funpk ct i a) = side ct x ∧ val 0 (funpk ct i a) = val ct x
        ∧ (fdec 0 (funpk ct i a)).sign = (fdec ct x).sign))
    ∧ (∀ ct rm a b c : Nat, 1 ≤ ct → ct ≤ 2 → a < 2 ^ 32 → b < 2 ^ 32 →
      nan ct (a % 2 ^ 16) ∨ nan ct (a / 2 ^ 16) ∨ nan ct (b % 2 ^ 16) ∨ nan ct (b / 2 ^ 16) ∨ nan 0 c → fdot2 rm ct a b c = 0x7FC00000)
    ∧ ∀ ct rm a : Nat, ct ≤ 2 → rm ≤ 3 → a < 2 ^ ((fmtOf ct).mag + 1) →
      let t := fmtOf ct
      let inf := 2 ^ t.mag - 2 ^ t.fbits
      let neg := 2 ^ t.mag
      (∀ (e8 : Bool) (n : W32), (nan ct a ∨ e8 = true ∧ n.toNat % 256 = 255 → fscl e8 rm ct a n = t.nan)
        ∧ (side ct a ≠ 0 → e8 = false ∨ n.toNat % 256 ≠ 255 → fscl e8 rm ct a n = a))
      ∧ (nan ct a → frcp rm ct a = t.nan ∧ fsqrt rm ct a = t.nan)
      ∧ frcp rm ct 0 = inf ∧ frcp rm ct neg = neg + inf ∧ frcp rm ct inf = 0 ∧ frcp rm ct (neg + inf) = neg
      ∧ fsqrt rm ct 0 = 0 ∧ fsqrt rm ct neg = neg ∧ fsqrt rm ct inf = inf ∧ fsqrt rm ct (neg + inf) = t.nan
      ∧ (val ct a < 0 → fsqrt rm ct a = t.nan))

/-! Control flow (04_control.md). -/

/-- R62 to R75: transfers to targets that may be taken, links, counted loops, rejoin masks, exits. Each completes with
exactly these results; what a transfer and a mask then do is at commit, where parked lanes wait on their mask, exited ones are gone from
every mask too, a successor is remembered by the block and a warp that yields becomes the youngest. That a relative target is checked
only where some lane takes it is the model's reading, log entry 57, and that one that leaves 56 bits is taken whole its choice, log entry 82. -/
def Obligations.ControlInstructions : Prop :=
  ∀ f : Fields,
    let all := fun (ls : Env → List Nat) (v : Env) => (ls v).map fun l => (l, v.near)
    let any := fun (g : Env → Nat → W64) (v : Env) => v.parts.map fun l => (l, g v l)
    let callx := fun (v : Env) l => v.rd64 f.a l + (v.rd32 f.b l).setWidth 64
    let okNear := fun (ls : Env → List Nat) (v : Env) => ls v ≠ [] → targetOk false v.near
    let okFar := fun (g : Env → Nat → W64) (v : Env) => ∀ l ∈ v.parts, targetOk true (g v l)
    let whole := fun (v : Env) => if v.lowG then v.r.lanes else []
    let count := fun (n : Fin 160) (v : Env) => v.parts.filter fun l => v.c.rdV n.val l != 0
    let again := fun (n : Fin 160) (v : Env) => (count n v).filter fun l => v.c.rdV n.val l != 1
    Performs (.nop f) Env.any (fun _ => Out.nil)
    ∧ Performs (.bra f) (okNear Env.parts) (fun v => v.goes (all Env.parts v) Out.nil)
    ∧ Performs (.bru f) (okNear whole) (fun v => v.goes (all whole v) Out.nil)
    ∧ Performs (.call f) (okNear Env.parts) (fun v => v.goes (all Env.parts v) (v.put true v.parts fun _ => v.next))
    ∧ Performs (.brx f) (okFar callx) (fun v => v.goes (any callx v) Out.nil)
    ∧ Performs (.callx f) (okFar callx) (fun v => v.goes (any callx v) (v.put true v.parts fun _ => v.next))
    ∧ Performs (.ret f) (okFar fun v => v.rd64 f.a) (fun v => v.goes (any (fun v => v.rd64 f.a) v) Out.nil)
    ∧ (∀ n, f.d = .v n → Performs (.loopL f) (okNear (again n)) (fun v => v.goes (all (again n) v)
        (Out.regs ((count n v).map fun l => Held.v n.val l (v.c.rdV n.val l - 1)))))
    ∧ (∀ n, f.d = .s n → Performs (.loopL f)
        (fun v => v.lowG = true → v.c.rdS n.val ≠ 0 → v.c.rdS n.val ≠ 1 → v.r.lanes ≠ [] → targetOk false v.near)
        (fun v => v.onceOut (if v.c.rdS n.val = 0 then Out.nil
          else v.goes (if v.c.rdS n.val = 1 then [] else v.r.lanes.map fun l => (l, v.near)) (Out.regs [Held.s n.val (v.c.rdS n.val - 1)]))))
    ∧ (f.d = .zero → Performs (.loopL f) Env.any (fun _ => Out.nil))
    ∧ (let m := fun (v : Env) => v.c.rdM (f.d.byte % 8);
      Performs (.enrol f) Env.any (fun v => v.someOut (Out.regs [Held.m (f.d.byte % 8) (m v ||| maskOf v.parts)]))
      ∧ Performs (.strike f) Env.any (fun v => v.someOut (Out.regs [Held.m (f.d.byte % 8) (m v &&& ~~~(maskOf v.parts))]))
      ∧ Performs (.park f) Env.any (fun v =>
          let ls := v.parts.filter fun l => (m v).getLsbD l
          if ls.isEmpty then Out.nil else Out.effect [.park (Fin.ofNat 8 f.d.byte) ls]))
    ∧ Performs (.exitL f) Env.any (fun v => v.someOut (Out.effect [.exit v.parts]))
    ∧ PerformsLooking (.exitSucc f) (fun v => v.parts ≠ [] → (v.rd64 f.a v.low).toNat ≤ 63 ∧
          (v.s.spawnTarget (whoOf v.c) (v.rd64 f.a v.low).toNat).isSome = true)
        (fun v => v.someOut (Out.effect [.succ (v.rd64 f.a v.low).toNat (v.rd64 f.b v.low), .exit v.parts]))
    ∧ Performs (.yield f) Env.any (fun v => v.someOut (Out.effect [.yieldWarp]))
    ∧ (∀ (m : Fin 8) (ls : List Nat), Commits (.park m ls) State.anyCtx fun _ s c t => ∃ g : Ctx → Ctx, t = s.updCtx c.id g
        ∧ ∀ x : Ctx, g x = { x with lanes := (g x).lanes }
          ∧ ∀ l < x.lanes.length, (g x).lane l = if l ∈ ls then { x.lane l with st := .parked m } else x.lane l)
    ∧ (∀ ls : List Nat, Commits (.exit ls) State.anyCtx fun _ s c t => ∃ g : Ctx → Ctx, t = s.updCtx c.id g
        ∧ ∀ x : Ctx, g x = { x with lanes := (g x).lanes, m := (g x).m }
          ∧ (∀ l < x.lanes.length, (g x).lane l = if l ∈ ls then { x.lane l with st := .exited, halted := false } else x.lane l)
          ∧ (Table.wf 0 x.m = true → ∀ n < 8, (g x).rdM n = x.rdM n &&& ~~~(maskOf ls) &&& x.widthMask))
    ∧ (∀ (n : Nat) (arg : W64), CommitsTo (.succ n arg) State.anyCtx fun _ s c =>
        s.updBlock c.block fun b => { b with succSlot := some (n, arg) })
    ∧ CommitsTo .yieldWarp State.anyCtx fun _ s c =>
        { s.updCtx c.id (fun x => { x with behind := s.nextId }) with nextId := s.nextId + 1 }

/-- R62, R74: a target that is not word aligned is the misaligned trap, an indirect one at or above 2^56 an access violation,
with the first failing lane's target in TVAL and the lanes that would take such targets at fault; a successor entry that is
not valid is the spawn-entry trap. Which lanes are at fault, and that a target both misaligned and too high is misaligned, are the
model's readings, log entry 57. -/
def Obligations.BadTargetsTrap : Prop :=
  ∀ f : Fields,
    Traps (.bra f) (fun v => v.parts ≠ [] ∧ v.near.toNat % 4 ≠ 0)
      (fun v => { v.plainTrap 0x04 with fault := v.parts, tval := v.near })
    ∧ Traps (.call f) (fun v => v.parts ≠ [] ∧ v.near.toNat % 4 ≠ 0)
      (fun v => { v.plainTrap 0x04 with fault := v.parts, tval := v.near })
    ∧ Traps (.bru f) (fun v => v.lowG = true ∧ v.r.lanes ≠ [] ∧ v.near.toNat % 4 ≠ 0)
      (fun v => { v.plainTrap 0x04 with fault := v.r.lanes, tval := v.near })
    ∧ (∀ n, f.d = .v n →
        let again := fun (v : Env) => v.parts.filter fun l => v.c.rdV n.val l != 0 && v.c.rdV n.val l != 1
        Traps (.loopL f) (fun v => again v ≠ [] ∧ v.near.toNat % 4 ≠ 0)
          (fun v => { v.plainTrap 0x04 with fault := again v, tval := v.near }))
    ∧ (∀ n, f.d = .s n → Traps (.loopL f)
        (fun v => v.lowG = true ∧ v.c.rdS n.val ≠ 0 ∧ v.c.rdS n.val ≠ 1 ∧ v.r.lanes ≠ [] ∧ v.near.toNat % 4 ≠ 0)
        (fun v => { v.plainTrap 0x04 with fault := v.r.lanes, tval := v.near }))
    ∧ (let far := fun (g : Env → Nat → W64) (i : Instr) =>
        let bad := fun (v : Env) => v.parts.filter fun l => decide ((g v l).toNat % 4 ≠ 0 ∨ 2 ^ 56 ≤ (g v l).toNat)
        Traps i (fun v => bad v ≠ []) (fun v =>
          let t := g v ((bad v).headD 0)
          { v.plainTrap (if t.toNat % 4 ≠ 0 then 0x04 else 0x05) with fault := bad v, tval := t })
      let sum := fun (v : Env) l => v.rd64 f.a l + (v.rd32 f.b l).setWidth 64
      far (fun v => v.rd64 f.a) (.ret f) ∧ far sum (.brx f) ∧ far sum (.callx f))
    ∧ TrapsLooking (.exitSucc f) (fun v => v.parts ≠ [] ∧ (63 < (v.rd64 f.a v.low).toNat ∨
          v.s.spawnTarget (whoOf v.c) (v.rd64 f.a v.low).toNat = none)) (fun v => v.plainTrap 0x0A)

/-- R70: a mask all of whose enrolled lanes are parked on it and not halted releases with at least one of them: its parked
lanes become runnable and the mask is cleared. A mask that lacks a lane releases nobody. No other lane changes. (The table of masks has
its canonical form.) -/
def Obligations.MaskRelease : Prop :=
  ∀ (c : Ctx) (n : Fin 8) (l : Nat), l < c.width → Table.wf 0 c.m = true →
    ((c.lane l).st = .parked n → c.releases n = true → (c.release.lane l).st = .runnable ∧ c.release.rdM n.val = 0)
    ∧ ((c.lane l).st = .parked n → c.releases n = false → c.release.lane l = c.lane l)
    ∧ ((∀ m, (c.lane l).st ≠ .parked m) → c.release.lane l = c.lane l)
    ∧ (c.releases n = true ↔ (∃ j < c.width, (c.lane j).st = .parked n) ∧
        ∀ j < c.width, (c.rdM n.val).getLsbD j = true → (c.lane j).st = .parked n ∧ (c.lane j).halted = false)

/-! Memory (07_memory.md). -/

/-- R137, R138, R140, R154: LD, LDU and XLAT dispatch their lanes' accesses onto their token, at base + index * size +
offset; PRF performs its accesses at commit and writes nothing. That the lowest lane's guard decides for every lane of a uniform form
(`takers`) is the model's reading, log entry 62. -/
def Obligations.LoadInstructions : Prop :=
  ∀ f : Fields,
    let size := sizeBytes f.sub.val
    let sgn := f.sub.val == 4 || f.sub.val == 5
    let at' := fun (v : Env) (n l : Nat) => v.cell n l v.disp (0, 0) 0
    let space := fun (v : Env) => if v.isImm then nbits v.imm.toNat 25 24 else 0
    Performs (.ld f) Env.any (fun v => v.dispatches false false 0 (v.dst (sizeRegs f.sub.val) 1) (!v.takers.isEmpty)
      (.access (.load sgn) (space v) size (v.takers.map (at' v size))))
    ∧ Performs (.ldu f) Env.any (fun v => v.dispatches false false 0 (v.dst 1 (if f.sub = 6 then 2 else 1)) v.lowG
      (.access (.load sgn) (space v) size [at' v size v.low]))
    ∧ Performs (.xlat f) Env.any (fun v =>
      let ls := if f.d.isS then (if v.lowG then [v.low] else []) else v.takers
      v.dispatches false false 0 (v.dst 2 1) (!ls.isEmpty) (.access .xlat 0 1 (ls.map (at' v 1))))
    ∧ Performs (.prf f) Env.any (fun v =>
      if v.takers = [] then Out.nil else Out.effect [.prefetch (f.m.getLsbD 0) (v.takers.map (at' v 1))])

/-- R139, R34: ST and STU whose checks pass leave one store of their lanes' data for commit; one whose checks fail traps before
commit, with the failing lanes at fault and the first one's address in TVAL. A v source of ST supplies its lane's value, an s or
e source the same in every lane. That the lowest lane's guard decides for every lane of a uniform form, and supplies its e source, is the
model's reading, log entry 62. -/
def Obligations.StoreInstructions : Prop :=
  ∀ f : Fields,
    let size := sizeBytes f.sub.val
    let space := fun (v : Env) => if v.isImm then nbits v.imm.toNat 25 24 else 0
    let accs := fun (ls : Env → List Nat) (v : Env) => (ls v).map fun l => v.cell size l v.disp (v.data size l) 0
    let check := fun (ls : Env → List Nat) (v : Env) => v.s.preCheck (whoOf v.c) .write false (space v) size (accs ls v)
    let one := fun (v : Env) => if v.lowG then [v.low] else []
    (∀ p ∈ [(Instr.st, Env.takers), (.stu, one)],
      Performs (p.1 f) (fun v => check p.2 v = none) (fun v => Out.effect [.store (space v) size (accs p.2 v)])
      ∧ Traps (p.1 f) (fun v => check p.2 v ≠ none) (fun v => v.checkTrap (check p.2 v)))
    ∧ ∀ (v : Env) (l l' : Nat), v.f = f →
        (∀ n, f.d = .v n → size ≤ 4 → v.data size l = ((v.c.rdV n.val l).setWidth 64, 0))
        ∧ (∀ n, f.d = .v n → size = 8 → v.data size l =
            ((v.c.rdV n.val l).setWidth 64 + 2 ^ 32 * (v.c.rdV (n.val + 1) l).setWidth 64, 0))
        ∧ (f.d.isV = false → v.data size l = v.data size l')

/-- A lane's store whose checks pass writes the little-endian bytes of its element at the address that the check gave, and
no other byte of memory; what else the store can change is the error marks it covers whole and the join waits it settles. -/
def Obligations.StoreWritesItsBytes : Prop :=
  ∀ (s s1 : State) (w : Who) (space esz pa : Nat) (pc : W64) (a : Acc), esz ∈ [1, 2, 4, 8, 16] →
    s.tryAccess w space esz (BitVec.ofNat 64 a.addr) .write false = (s1, .ok pa) → Memory.wf s1.mem = true →
    let t := (s.writeLane w none space esz pc a).1
    (∀ i < esz, t.readByte (pa + i) = BitVec.ofNat 8 ((a.x.1.toNat + 2 ^ 64 * a.x.2.toNat) / 2 ^ (8 * i)))
    ∧ (∀ q, q < pa ∨ pa + esz ≤ q → t.readByte q = s1.readByte q)
    ∧ t = { s1 with mem := t.mem, badGranules := t.badGranules, badWords := t.badWords, ops := t.ops }

/-- A load of one lane whose checks pass ends with the element at its address, read little-endian and sign-extended where
the type asks, split over its destination; nothing but its operation changes. -/
def Obligations.LoadReadsElement : Prop :=
  ∀ (s s1 : State) (o : Op) (w : Who) (sg : Bool) (space esz pa : Nat) (a : Acc),
    s.tryAccess w space esz (BitVec.ofNat 64 a.addr) .read false = (s1, .ok pa) → s1.badRead pa esz = false →
    let x := ((List.range esz).map fun i => (s1.readByte (pa + i)).toNat * 2 ^ (8 * i)).sum
    let value := if sg = true ∧ 2 ^ (8 * esz - 1) ≤ x then x + 2 ^ 64 - 2 ^ (8 * esz) else x
    esz ∈ [1, 2, 4, 8, 16] →
    s.performLanes o w (.load sg) space esz [a] [] none =
      { s1 with ops := s1.ops.map fun y => if y.id = o.id then { y with stage := .finished (.ok (o.dst.split a.lane value)) } else y }

/-- R147 to R150 for a page whose leaf is cached: translation off or a right missing is a violation and changes nothing; with
the right, in memory that no table denies, the address is the leaf's base with the offset within the page, and nothing
changes (a leaf that asks for no migration counts). -/
def Obligations.TranslationOfCachedPages : Prop :=
  ∀ (s : State) (w : Who) (va size : Nat) (t : AccessType) (ea : Nat) (e : W64) (large : Bool),
    ((s.reg w.die 0x100000).getLsbD 0 = false → s.translate w va size t = (s, .violation))
    ∧ ((s.reg w.die 0x100000).getLsbD 0 = true → s.tlbHit w.die w.units va = some (.leaf ea e large) →
        (((t.reads = true ∧ e.getLsbD 2 = false) ∨ (t.writes = true ∧ e.getLsbD 3 = false) ∨ (t = .fetch ∧ e.getLsbD 4 = false)) →
          s.translate w va size t = (s, .violation))
        ∧ ((t.reads = true → e.getLsbD 2 = true) → (t.writes = true → e.getLsbD 3 = true) → (t = .fetch → e.getLsbD 4 = true) →
          (∃ st, s.place (leafPa e large va) = .hbm st) → (s.reg 0 0x19FFF8).getLsbD 0 = false → (s.reg 1 0x19FFF8).getLsbD 0 = false →
          e.getLsbD 12 = false → s.translate w va size t = (s, .ok (leafPa e large va))))

/-- R143 to R145: the matrix files belong to the block that holds them. For it TWR, ACWR and TSCL leave the words or scale
bytes of their lanes that lie within the file for commit, and TRD and ACRD read the words as they stand at issue, 0 beyond
the file; any other block's instruction traps. At commit those words or bytes stand in the files and nothing else of memory is changed;
an accumulator that ACWR wrote a word of is mirrored no more. -/
def Obligations.MatrixFileInstructions : Prop :=
  (∀ f : Fields,
    let mine := fun (v : Env) => v.parts = [] ∨ (v.s.core v.c.loc).holder = some v.c.block
    let j := fun (v : Env) (l : Nat) => (v.rd64 f.b v.low).toNat + l
    let unit := fun (v : Env) => mapBase v.c.loc.die v.c.loc.cluster v.c.loc.core
    let words := fun (n : Nat) (v : Env) => (v.parts.filter fun l => decide (j v l < n)).map fun l => (j v l, v.rd32 f.a l)
    let file := fun (off n : Nat) (v : Env) => v.put false v.parts fun l =>
      if j v l < n then BitVec.ofNat 64 (v.s.readN (unit v + off + 4 * j v l) 4) else 0
    Performs (.twr f) mine (fun v => v.someOut (Out.effect [.tileWrite f.d.byte (words 512 v)]))
    ∧ Performs (.acwr f) mine (fun v => v.someOut (Out.effect [.accWrite f.d.byte (words 1024 v)]))
    ∧ Performs (.trd f) mine (fun v => v.someOut (file (0x400000 + 2048 * f.a.byte) 512 v))
    ∧ Performs (.acrd f) mine (fun v => v.someOut (file (0x480000 + 4096 * f.a.byte) 1024 v))
    ∧ Performs (.tscl f) mine (fun v => v.someOut (Out.effect [.scaleWrite f.d.byte
        ((v.parts.filter fun l => decide ((v.rd64 f.b l).toNat + l < 32)).map fun l =>
          (2 * ((v.rd64 f.b l).toNat + l) + (f.m.getLsbD 2).toNat,
            BitVec.ofNat 8 ((v.rd32 f.a l).toNat / 2 ^ (8 * nbits f.m.toNat 1 0))))]))
    ∧ ∀ i ∈ [Instr.twr, .acwr, .trd, .acrd, .tscl],
        Traps (i f) (fun v => v.parts ≠ [] ∧ (v.s.core v.c.loc).holder ≠ some v.c.block) (fun v => v.plainTrap 0x05))
  ∧ ∀ (y : Nat) (ws : List (Nat × W32)) (bs : List (Nat × Byte)), (ws.map Prod.fst).Nodup → (bs.map Prod.fst).Nodup →
      let pre := fun (s : State) (_ : Ctx) => Memory.wf s.mem = true ∧ Table.wf Core.reset s.cores = true
      let home := fun (c : Ctx) => mapBase c.loc.die c.loc.cluster c.loc.core
      let writes := fun (off size : Nat) (xs : List (Nat × Nat)) (s : State) (c : Ctx) (t : State) =>
        let at' := fun (x : Nat × Nat) => home c + off + size * x.1
        (∀ x ∈ xs, t.readN (at' x) size = x.2) ∧ (∀ q, (∀ x ∈ xs, q < at' x ∨ at' x + size ≤ q) → t.readByte q = s.readByte q)
        ∧ t = { s with mem := t.mem, badGranules := t.badGranules, badWords := t.badWords, ops := t.ops, cores := t.cores }
      let words := ws.map fun w => (w.1, w.2.toNat)
      Commits (.tileWrite y ws) pre (fun _ s c t => writes (0x400000 + 2048 * y) 4 words s c t ∧ t.cores = s.cores)
      ∧ Commits (.scaleWrite y bs) pre (fun _ s c t =>
          writes (0x408000 + 64 * y) 1 (bs.map fun b => (b.1, b.2.toNat)) s c t ∧ t.cores = s.cores)
      ∧ Commits (.accWrite y ws) pre (fun _ s c t => writes (0x480000 + 4096 * y) 4 words s c t
          ∧ t.core c.loc = (if ws = [] then s.core c.loc
              else { s.core c.loc with mirrored := setNth (s.core c.loc).mirrored y false })
          ∧ ∀ l, coreKey l ≠ coreKey c.loc → t.core l = s.core l)

/-- R162: RESB answers its status at once and binds or unbinds at commit, in the regions of its core and nowhere else. The status is 1
without a residency key; of a binding 3 where the region is not a multiple of 1,024 bytes, empty, not within the block's region or
overlaps a region of the block that is bound, 2 where four of the key are bound, else 0, with the region from the place that the
block's begins at plus the offset and of the size given added; of an unbinding 4 where no region of the block has the offset and
size, else 0, and that region alone is gone. Every other status changes no region. That the answer is given at the instruction, with the
run's earlier ones counted in, is the model's reading, log entry 16; which status goes first, and that an offset of 0 is one that may be
bound, is its choice, log entry 97. -/
def Obligations.ResidencyBinding : Prop :=
  (∀ f : Fields, Performs (.resb f) Env.any (fun v => v.onceOut
    ((v.status (BitVec.ofNat 64 (v.s.resb v.c (f.m.getLsbD 0) (v.rd64 f.a v.low) (v.rd64 f.b v.low) v.regionsSoFar).1)).also
      [.resb (f.m.getLsbD 0) (v.rd64 f.a v.low) (v.rd64 f.b v.low)])))
  ∧ (∀ (un : Bool) (off n : W64), Commits (.resb un off n) (fun s _ => Table.wf Core.reset s.cores = true) fun _ s c t =>
      let k := s.core c.loc
      t.core c.loc = { k with regions := (s.resb c un off n k.regions).2 } ∧ (∀ l, coreKey l ≠ coreKey c.loc → t.core l = s.core l)
      ∧ t = { s with cores := t.cores })
  ∧ (∀ (s : State) (c : Ctx) (b : Block) (l : Launch) (g : Gang) (un : Bool) (off n : W64) (rs : List Region),
      s.block? c.block = some b → s.launch? c.launch = some l → s.gang? c.gang = some g →
      s.resb c un off n rs = resbRegions l.record.key g.linear b un off n rs)
  ∧ ∀ (key gang : Nat) (b : Block) (un : Bool) (off n : W64) (rs : List Region),
      let r := resbRegions key gang b un off n rs
      let mine := fun (x : Region) => x ∈ rs ∧ x.key = key ∧ x.gang = gang ∧ x.block = b.index
      let named := fun (x : Region) => mine x ∧ x.off = off.toNat ∧ x.size = n.toNat
      let fits := off.toNat % 1024 = 0 ∧ n.toNat % 1024 = 0 ∧ n.toNat ≠ 0 ∧ off.toNat + n.toNat ≤ b.size
        ∧ ∀ x, mine x → x.off + x.size ≤ off.toNat ∨ off.toNat + n.toNat ≤ x.off
      let four := 4 ≤ (rs.filter fun x => x.key == key).length
      (r.1 = 1 ↔ key = 0) ∧ (r.1 ≠ 0 → r.2 = rs)
      ∧ (key ≠ 0 → un = false →
          (r.1 = 3 ↔ ¬ fits) ∧ (r.1 = 2 ↔ fits ∧ four) ∧ (r.1 = 0 ↔ fits ∧ ¬ four)
          ∧ (r.1 = 0 → r.2 = rs ++ [{ launch := b.launch, key := key, off := off.toNat, size := n.toNat, gang := gang, block := b.index
                                      base := b.base + off.toNat }]))
      ∧ (key ≠ 0 → un = true →
          (r.1 = 4 ↔ ∀ x, ¬ named x) ∧ (r.1 = 0 ↔ ∃ x, named x)
          ∧ (r.1 = 0 → ∃ before x after, rs = before ++ x :: after ∧ r.2 = before ++ after ∧ named x ∧ ∀ y ∈ before, ¬ named y))

/-! Ordering, tokens, barriers (08_ordering.md, 09_tokens_barriers.md). -/

/-- R180, R181, R190 to R195, R200: FENCE acts where some lane's guard is true, FENCE.K and the instructions on tokens act once, in the
lowest lane; waits leave their mask and limit for commit, TKQ answers the tokens at issue. At commit TKCLR frees the done and poisoned
tokens of its mask and no other, TKPSN waits while its token is pending and else poisons it with a new record, FENCE changes nothing, and
BSYNC makes the lanes of a lane warp wait. That no agent acts between issue and commit is the model's choice, log entry 7. -/
def Obligations.TokenInstructions : Prop :=
  ∀ f : Fields,
    let mask := fun (v : Env) => if v.isImm then v.imm else (v.rd64 f.a v.low).setWidth 32
    Performs (.fence f) Env.any (fun v => v.someOut (Out.effect [.fence f.sub.val]))
    ∧ Performs (.fencek f) Env.any (fun v => v.dispatchesRA 2 .none v.lowG .fencek)
    ∧ Performs (.waitk f) Env.any (fun v => v.onceOut (Out.effect [.wait (.waitk (mask v) f.d v.r.pc) v.r.lanes]))
    ∧ Performs (.twaitk f) Env.any (fun v => v.onceOut (Out.effect
        [.wait (.twaitk (mask v) (Fin.ofNat 8 f.d.byte) ((v.rd64 f.b v.low).setWidth 32).toNat v.r.pc) v.r.lanes]))
    ∧ Performs (.tkq f) Env.any (fun v => v.onceOut (v.status (
        if f.m.getLsbD 5 then (match v.c.rdTok v.token with | .poisoned r => BitVec.ofNat 64 r | _ => 0xFFFFFFFFFFFFFFFF)
        else BitVec.ofNat 64 ((List.range 32).map fun k => (v.c.rdTok k).code * 4 ^ k).sum)))
    ∧ Performs (.tkclr f) Env.any (fun v => v.onceOut (Out.effect [.tkclr (mask v)]))
    ∧ Performs (.tkpsn f) Env.any (fun v => v.onceOut (Out.effect [.tkpsn f.d.byte (mask v)]))
    ∧ Performs (.bsync f) Env.any (fun v => v.onceOut (Out.effect [.wait (.bsync (Fin.ofNat 4 f.d.byte)) v.r.lanes]))
    ∧ (∀ n : Nat, CommitsTo (.fence n) State.anyCtx fun _ s _ => s)
    ∧ (∀ m : W32, Commits (.tkclr m) State.anyCtx fun _ s c t => ∃ g : Ctx → Ctx, t = s.updCtx c.id g
        ∧ ∀ x : Ctx, g x = { x with tok := (g x).tok, lanes := (g x).lanes }
          ∧ (g x).lanes.map (fun y => { y with met := [] }) = x.lanes.map (fun y => { y with met := [] })
          ∧ (Table.wf .free x.tok = true → ∀ k, (g x).rdTok k =
              if m.getLsbD k = true ∧ (x.rdTok k).isPending = false then .free else x.rdTok k))
    ∧ (∀ (k : Nat) (value : W32),
        CommitsTo (.tkpsn k value) (fun _ c => (c.rdTok k).isPending = false) (fun e s c =>
          let r := s.newRecord (whoOf c) (recordBytes 0x6C c.kind.code k 0 0x0F c.loc 0 e.pc 0 (value.setWidth 64))
          r.1.updCtx c.id fun x => x.wrTok k (.poisoned r.2))
        ∧ ∀ (s : State) (c : Ctx) (e : Eff), e.act = .tkpsn k value → (c.rdTok k).isPending = true → s.performAct c e = none)
    ∧ ∀ (n : Fin 4) (ls : List Nat), Commits (.wait (.bsync n) ls) (fun s c => s.ctx? c.id = some c) fun _ s c t =>
        ∃ g : Ctx → Ctx, t = s.updCtx c.id g ∧ ∀ x : Ctx, g x = { x with lanes := (g x).lanes }
          ∧ ∀ l < x.lanes.length, (g x).lane l = if c.kind = .lane ∧ l ∈ ls then { x.lane l with st := .waiting (.bsync n) } else x.lane l

/-- R199 to R201, R203: the barrier instructions and MONWAIT, whose object is checked before commit: aligned, in reach,
with the rights it needs, else they trap with its address in TVAL; before that, a count of 0 of PBINIT, a count at or above 2^24
and bytes at or above 2^48 are the illegal-operand trap. R198: what an arrival leaves in the object, and which waits on it end and how;
R199: what PBINIT leaves; R200: the arrival that PBARR and TKARR make at commit, TKARR by what its token is then. That these counts are
checked before the address is the model's choice, log entry 107, and that MONWAIT takes the low 32 bits of its limit its reading, log
entry 71. -/
def Obligations.BarrierInstructions : Prop :=
  (∀ f : Fields,
    let base := fun (v : Env) => v.rd64 f.a v.low
    let n := fun (v : Env) => if v.isImm then v.imm.setWidth 64 else v.rd64 f.b v.low
    let bytes := fun (v : Env) => v.rd64 f.c v.low
    let sp := nbits f.m.toNat 1 0
    let check := fun (t : AccessType) (v : Env) => v.s.preCheck (whoOf v.c) t false sp 32 (v.place1 (base v) 0)
    let passes := fun (t : AccessType) (v : Env) => check t v = none
    let initOk := fun (v : Env) => v.rd64 f.b v.low ≠ 0 ∧ (v.rd64 f.b v.low).toNat < 2 ^ 24 ∧ (bytes v).toNat < 2 ^ 48
    let arrOk := fun (v : Env) => (bytes v).toNat < 2 ^ 48 ∧ (n v).toNat < 2 ^ 24
    Performs (.pbinit f) (fun v => v.lowG = true →
        initOk v ∧ passes .write v ∧ v.placeOk (nbits f.m.toNat 4 2) (base v) = true)
      (fun v => v.onceOut (Out.effect [.pbinit (nbits f.m.toNat 4 2) sp (base v) (v.rd64 f.b v.low) (bytes v)]))
    ∧ Performs (.pbarr f) (fun v => v.lowG = true → arrOk v ∧ passes .rmw v)
      (fun v => v.onceOut (Out.effect [.pbarr (f.sub = 1) sp (base v) (n v) (bytes v)]))
    ∧ Performs (.tkarr f) (fun v => v.lowG = true → (n v).toNat < 2 ^ 48 ∧ passes .rmw v)
      (fun v => v.onceOut (Out.effect [.tkarr (f.sub = 1) f.d.byte sp (base v) (n v)]))
    ∧ Performs (.pbwait f) Env.any (fun v => v.dispatches false false 0 .none v.lowG
        (.pbwait (f.m.getLsbD 7) ((n v).setWidth 32) f.d.byte (base v)))
    ∧ (let wide := f.m.getLsbD 0
      let msp := nbits f.m.toNat 2 1
      let look := fun (v : Env) => v.s.preCheck (whoOf v.c) .read false msp (if wide then 8 else 4) (v.place1 (base v) 0);
      Performs (.monwait f) (fun v => v.lowG = true → look v = none)
        (fun v => v.onceOut (Out.effect [.wait (.monwait wide msp (base v).toNat f.d (v.rd64 f.b v.low)
          ((bytes v).setWidth 32).toNat false v.r.pc) v.r.lanes]))
      ∧ Traps (.monwait f) (fun v => v.lowG = true ∧ look v ≠ none) (fun v => v.checkTrap (look v)))
    ∧ Traps (.pbarr f) (fun v => v.lowG = true ∧ ¬ arrOk v) (fun v => v.plainTrap 0x02)
    ∧ Traps (.tkarr f) (fun v => v.lowG = true ∧ 2 ^ 48 ≤ (n v).toNat) (fun v => v.plainTrap 0x02)
    ∧ Traps (.pbinit f) (fun v => v.lowG = true ∧ ¬ initOk v) (fun v => v.plainTrap 0x02)
    ∧ Traps (.pbarr f) (fun v => v.lowG = true ∧ arrOk v ∧ ¬ passes .rmw v) (fun v => v.checkTrap (check .rmw v))
    ∧ Traps (.tkarr f) (fun v => v.lowG = true ∧ (n v).toNat < 2 ^ 48 ∧ ¬ passes .rmw v) (fun v => v.checkTrap (check .rmw v))
    ∧ Traps (.pbinit f) (fun v => v.lowG = true ∧ initOk v ∧ ¬ passes .write v) (fun v => v.checkTrap (check .write v))
    ∧ Traps (.pbinit f) (fun v => v.lowG = true ∧ initOk v ∧ passes .write v ∧ v.placeOk (nbits f.m.toNat 4 2) (base v) = false)
        (fun v => { v.plainTrap 0x05 with fault := [v.low], tval := base v }))
  ∧ (∀ (s : State) (w : Who) (nm : Named) (sp pa : Nat) (addr : W64) (n b : Nat) (psn : Option Nat),
      s.badRead pa 32 = false → Memory.wf s.mem = true → (∀ r, psn = some r → r < 2 ^ 16) →
      let x := s.barrier pa
      let t := s.arrive w nm sp pa addr n b psn
      let excess := x.pendarr < n ∨ x.pendbytes < b
      let made := s.newRecord w (recordBytes nm.opc w.kind.code nm.token 0x10 5 w.loc 0 nm.pc addr (BitVec.ofNat 64 (n % 2 ^ 24)))
      let s1 := if excess ∧ x.psn = false then made.1 else s
      let bad := x.psn = true ∨ excess ∨ psn ≠ none
      let rec' := if x.psn = true then x.prec else if excess then made.2 else psn.getD x.prec
      let arr := x.pendarr - n
      let bytes := x.pendbytes - b
      let ends := arr = 0 ∧ bytes = 0
      (s.malformed sp pa x = true → t = s)
      ∧ (s.malformed sp pa x = false → Memory.wf s1.mem = true →
        t.barrier pa = (if ends then
            { x with phase := (x.phase + 1) % 2 ^ 32, lpsn := decide bad, lrec := rec', psn := false, prec := 0xFFFF
                     pendarr := x.exparr, pendbytes := x.expbytes }
          else { x with psn := decide bad, prec := rec', pendarr := arr, pendbytes := bytes })
        ∧ (∀ q, q < pa ∨ pa + 32 ≤ q → t.readByte q = s1.readByte q)
        ∧ ∀ o ∈ s1.ops, ∀ cur ph k at' p, o.cmd = .pbwait cur ph k at' → o.stage = .armed pa p →
            (if ends ∧ p = x.phase then { o with stage := .finished (if bad then .phasePoison rec' else .ok []) } else o) ∈ t.ops))
  ∧ (∀ (s : State) (w : Who) (nm : Named) (scope pa : Nat) (addr : W64) (arr bytes : Nat), Memory.wf s.mem = true →
      scope < 8 → arr < 2 ^ 24 → bytes < 2 ^ 48 →
      let x : Barrier := { phase := 0, lpsn := false, psn := false, scope := scope, exparr := arr, pendarr := arr, lrec := 0xFFFF
                           expbytes := bytes, prec := 0xFFFF, pendbytes := bytes, rsv := false }
      let t := s.barrierInit w nm scope pa addr arr bytes
      (s.armedWait pa = false → t.barrier pa = x ∧ ∀ q, q < pa ∨ pa + 32 ≤ q → t.readByte q = s.readByte q)
      ∧ ∀ o ∈ s.ops, ∀ cur ph k at' p, o.cmd = .pbwait cur ph k at' → o.stage = .armed pa p →
          { o with stage := .finished (.phasePoison ((s.wr pa x.bytes).newRecord w
            (recordBytes nm.opc w.kind.code nm.token 0x11 5 w.loc 0 nm.pc addr 0)).2) } ∈ t.ops)
  ∧ ∀ (rel : Bool) (k sp pa : Nat) (a n b : W64) (scope : Nat) (s1 : State),
      let reads := fun (t : AccessType) (s : State) (c : Ctx) => s.tryAccess (whoOf c) sp 32 a t false = (s1, .ok pa)
      let home := fun (e : Eff) (c : Ctx) => if relOf e.code = true then s1.hearRelease (some c.id) pa else s1
      CommitsTo (.pbarr rel sp a n b) (reads .rmw) (fun e _ c => (home e c).arrive (whoOf c) ⟨0x68, 0, e.pc⟩ sp pa a n.toNat b.toNat none)
      ∧ CommitsTo (.tkarr rel k sp a b) (fun s c => (c.rdTok k = .free ∨ c.rdTok k = .done) ∧ reads .rmw s c)
          (fun e _ c => (home e c).arrive (whoOf c) ⟨0x66, k, e.pc⟩ sp pa a 1 b.toNat none)
      ∧ (∀ r, CommitsTo (.tkarr rel k sp a b) (fun s c => c.rdTok k = .poisoned r ∧ reads .rmw s c)
          (fun e _ c => (home e c).arrive (whoOf c) ⟨0x66, k, e.pc⟩ sp pa a 1 b.toNat (some r)))
      ∧ (∀ op, CommitsTo (.tkarr rel k sp a b) (fun _ c => c.rdTok k = .pending op) (fun e s c =>
          { s with lates := s.lates ++ [{ op := op, outcome := none, ctx := c.id, launch := c.launch, gang := c.gang, block := c.block
                                          kind := c.kind, loc := c.loc, pc := e.pc, rel := rel, k := k, space := sp, base := a, bytes := b
                                          holdPage := none }] }))
      ∧ CommitsTo (.pbinit scope sp a n b) (fun s c => reads .write s c ∧ s1.barrierPlace (· == (whoOf c).gang) sp pa scope = true)
          (fun e _ c => s1.barrierInit (whoOf c) ⟨0x67, 0, e.pc⟩ scope pa a (n.toNat % 2 ^ 24) (b.toNat % 2 ^ 48))

/-- R28, R33, R185: the dispatch of a token-producing instruction waits, with no effect at all, while its token is pending
or its engine's queue is full; otherwise, with a precondition still pending, its token is pending on a new operation that
records how each precondition stood, no poisoned state of the token is met any more, and nothing else changes. -/
def Obligations.DispatchMakesPending : Prop :=
  ∀ (s : State) (c : Ctx) (pc : W64) (k : Nat) (pres : List Nat) (opc : Nat) (rel acq : Bool) (scope : Nat) (d : Dst) (cmd : Cmd),
    (((c.rdTok k).isPending = true ∨ s.queueFull c cmd = true) → s.dispatch c pc k pres opc rel acq scope d cmd = none)
    ∧ (s.ctx? c.id = some c → (c.rdTok k).isPending = false → s.queueFull c cmd = false → s.cmdSession c.launch cmd = none →
        (∀ o ∈ s.ops, o.id < s.nextId) → (∃ j ∈ pres, (c.rdTok j).isPending = true) → (∀ m q x, cmd ≠ .matrix m q x) →
        s.dispatch c pc k pres opc rel acq scope d cmd = some { s with
          nextId := s.nextId + 1
          ops := s.ops ++ [{
            id := s.nextId, ctx := c.id, launch := c.launch, gang := c.gang, block := c.block, kind := c.kind, loc := c.loc
            token := k, opc := opc, pc := pc, rel := rel, acq := acq, scope := scope, dst := d, cmd := cmd, stage := .waiting
            time := s.ns
            pre := pres.map fun j => (j, match c.rdTok j with
              | .pending op => Pre.on op
              | .poisoned r => Pre.poisoned r
              | _ => Pre.met) }]
          ctxs := s.ctxs.map fun x => if x.id = c.id then (x.forgetMet [k]).wrTok k (.pending s.nextId) else x })

/-! Atomics (10_atomics.md). -/

/-- R211 to R214: ATOM, CAS and FATOM dispatch the read-modify-writes of the lanes whose guard is true onto their token, ATOMU that of
the lowest lane, with the type, space and offset of X0; RED and FRED whose checks pass leave theirs for commit, and trap before it
otherwise. That a uniform form's e operands are read in the lowest lane (R27) is the model's reading beside R211, log entry 62. -/
def Obligations.AtomicInstructions : Prop :=
  ∀ f : Fields,
    let ty := nbits f.x 7 5
    let sp := nbits f.x 4 3
    let acc := fun (v : Env) (n l : Nat) => v.cell n l ((BitVec.ofNat 16 (nbits f.x 31 16)).signExtend 64)
      (v.rd (n == 8) f.c (v.readLane l), 0) (v.rd (n == 8) (Reg.ofByte (nbits f.x 15 8)) (v.readLane l))
    let sends := fun (r : Rmw) (ls : Env → List Nat) (v : Env) => v.dispatchesRA 2 (v.dst (r.bytes / 4) 1) (!(ls v).isEmpty)
      (.access (.rmw r) sp r.bytes ((ls v).map (acc v r.bytes)))
    let check := fun (r : Rmw) (v : Env) => v.s.preCheck (whoOf v.c) .rmw true sp r.bytes (v.parts.map (acc v r.bytes))
    Performs (.atom f) Env.any (sends (.int f.sub.val ty) Env.parts)
    ∧ Performs (.cas f) Env.any (sends (.cas ty) Env.parts)
    ∧ Performs (.fatom f) Env.any (sends (.flt f.sub.val ty) Env.parts)
    ∧ Performs (.atomu f) Env.any (sends (.int f.sub.val ty) fun v => if v.lowG then [v.low] else [])
    ∧ ∀ p ∈ [(Instr.red, Rmw.int f.sub.val ty), (.fred, .flt f.sub.val ty)],
        Performs (p.1 f) (fun v => check p.2 v = none)
          (fun v => Out.effect [.reduce p.2 sp p.2.bytes (v.parts.map (acc v p.2.bytes))])
        ∧ Traps (p.1 f) (fun v => check p.2 v ≠ none) (fun v => v.checkTrap (check p.2 v))

/-- R211, R212, R214 at the home: an integer atomic on 32-bit words gives the old value and leaves the sum, the lesser, the greater,
the AND, OR, XOR or the operand itself; CAS leaves the new value where the old one equals the comparand and writes nothing
otherwise. The same at every type's width, the lesser and the greater by the type's signedness. A float atomic gives the pattern that
stood there and leaves the rounded sum, or the lesser or the greater, each half of a packed type by itself. Bytes outside the element
keep what they hold. -/
def Obligations.AtomicsAtHome : Prop :=
  (∀ (s : State) (pa : Nat) (x y : W64) (pc : W64) (lane : Nat), s.badRead pa 4 = false → Memory.wf s.mem = true →
    let old := BitVec.ofNat 32 (s.readN pa 4)
    let a := x.setWidth 32
    let new := fun (op : Nat) => match op with
      | 0 => old + a
      | 1 => if old.toNat < a.toNat then old else a
      | 2 => if old.toNat < a.toNat then a else old
      | 3 => old &&& a
      | 4 => old ||| a
      | 5 => old ^^^ a
      | _ => a
    (∀ op ≤ 6, (s.rmwAt (.int op 0) pa x y pc lane).2 = some (old.setWidth 64)
      ∧ (s.rmwAt (.int op 0) pa x y pc lane).1.readN pa 4 = (new op).toNat
      ∧ ∀ q, q < pa ∨ pa + 4 ≤ q → (s.rmwAt (.int op 0) pa x y pc lane).1.readByte q = s.readByte q)
    ∧ (old = a → (s.rmwAt (.cas 0) pa x y pc lane).2 = some (old.setWidth 64)
        ∧ (s.rmwAt (.cas 0) pa x y pc lane).1.readN pa 4 = (y.setWidth 32).toNat)
    ∧ (old ≠ a → s.rmwAt (.cas 0) pa x y pc lane = (s, some (old.setWidth 64))))
  ∧ (∀ (s : State) (pa ty : Nat) (x y : W64) (pc : W64) (lane : Nat), ty ≤ 3 → s.badRead pa (tyBits ty / 8) = false →
    Memory.wf s.mem = true →
    let n := tyBits ty
    let old := s.readN pa (n / 8)
    let a := x.toNat % 2 ^ n
    let num := fun (z : Nat) => if tySigned ty = true ∧ 2 ^ (n - 1) ≤ z then (z : Int) - 2 ^ n else z
    let new := fun (op : Nat) => match op with
      | 0 => (old + a) % 2 ^ n
      | 1 => if num old < num a then old else a
      | 2 => if num old < num a then a else old
      | 3 => old &&& a
      | 4 => old ||| a
      | 5 => old ^^^ a
      | _ => a
    (∀ op ≤ 6, let r := s.rmwAt (.int op ty) pa x y pc lane
      r.2 = some (BitVec.ofNat 64 old) ∧ r.1.readN pa (n / 8) = new op
        ∧ ∀ q, q < pa ∨ pa + n / 8 ≤ q → r.1.readByte q = s.readByte q)
    ∧ let r := s.rmwAt (.cas ty) pa x y pc lane
      r.2 = some (BitVec.ofNat 64 old) ∧ (old = a → r.1.readN pa (n / 8) = y.toNat % 2 ^ n) ∧ (old ≠ a → r.1 = s)
        ∧ ∀ q, q < pa ∨ pa + n / 8 ≤ q → r.1.readByte q = s.readByte q)
  ∧ ∀ (s : State) (pa op : Nat) (x y : W64) (pc : W64) (lane : Nat), op ≤ 4 → s.badRead pa 4 = false → Memory.wf s.mem = true →
    let old := s.readN pa 4
    let a := x.toNat % 2 ^ 32
    let new := fun (ct u v : Nat) => if op = 0 then farith 0 0 ct u v 0 else fminmax (op == 2 || op == 4) (decide (3 ≤ op)) ct u v
    ∀ ty ∈ [0, 3, 4],
      let r := s.rmwAt (.flt op ty) pa x y pc lane
      r.2 = some (BitVec.ofNat 64 old) ∧ (∀ q, q < pa ∨ pa + 4 ≤ q → r.1.readByte q = s.readByte q)
      ∧ (ty = 0 → r.1.readN pa 4 = new 0 old a)
      ∧ (ty ≠ 0 → r.1.readN pa 4 = new (ty - 2) (old % 2 ^ 16) (a % 2 ^ 16) + 2 ^ 16 * new (ty - 2) (old / 2 ^ 16) (a / 2 ^ 16))

/-! Matrix, grammar, spawn, copy, fabric, encoder and system instructions (11_matrix.md to 17_system.md). -/

/-- R224, R234 to R243: the sequencer's commands capture their operands at issue and are dispatched onto their token; MXSET
names cores where the gang has a block, and at commit the core mask is those; MXQ answers the core mask, the sequence number, the
commands pending, the full latches. -/
def Obligations.MatrixInstructions : Prop :=
  ∀ f : Fields,
    let a := fun (v : Env) => v.rd64 f.a v.low
    let b := fun (v : Env) => v.rd64 f.b v.low
    let c := fun (v : Env) => v.rd64 f.c v.low
    let sends := fun (m : Env → MCmd) (v : Env) => v.dispatchesRA 2 .none v.lowG (.matrix 0 0 (m v))
    let mma := fun (steps : Nat) (sw : Env → W64) (v : Env) => MCmd.mma (f.sub.val % 2 == 1) (f.sub.val / 2 % 2 == 1)
      (nbits f.x 5 3) (nbits f.x 8 6) steps f.d.byte f.a.byte (b v) (sw v)
    let drain := fun (add : Bool) (v : Env) => MCmd.acdrain add (nbits f.x 7 6) (nbits f.x 5 3) (nbits f.x 9 8) f.d.byte (a v) (b v) (c v)
    let cores := fun (v : Env) => if v.isImm then v.imm.setWidth 64 else a v
    let named := fun (v : Env) => (cores v).toNat < 2 ^ 24 ∧
      ∀ n < 24, (cores v).getLsbD n = true → (v.s.gangBlock v.c.gang n).isSome = true
    Performs (.mma f) Env.any (sends (mma 1 fun _ => 0)) ∧ Performs (.mmas f) Env.any (sends (mma (nbits f.x 14 9 + 1) c))
    ∧ Performs (.aczero f) Env.any (sends fun _ => .aczero f.d.byte)
    ∧ Performs (.acdrain f) Env.any (sends (drain false)) ∧ Performs (.acdrainAdd f) Env.any (sends (drain true))
    ∧ Performs (.acload f) Env.any (sends fun v => .acload (nbits f.x 5 3) (nbits f.x 9 8) f.d.byte (a v) (b v) (c v))
    ∧ Performs (.mxset f) (fun v => v.lowG = true → named v) (fun v => v.onceOut (Out.effect [.mxset (cores v)]))
    ∧ Traps (.mxset f) (fun v => v.lowG = true ∧ ¬ named v) (fun v => v.plainTrap 0x02)
    ∧ (∀ m : W64, CommitsTo (.mxset m) State.anyCtx fun _ s c => s.updCtx c.id fun x => { x with coreMask := m.toNat % 2 ^ 24 })
    ∧ Performs (.mxq f) Env.any (fun v => v.onceOut (v.status (match f.ty with
        | 0 => BitVec.ofNat 64 v.c.coreMask
        | 1 => v.c.seqNo.setWidth 64
        | 2 => BitVec.ofNat 64 (v.s.ops.filter fun o => o.ctx == v.c.id && (match o.cmd with | .matrix _ _ _ => true | _ => false)).length
        | _ => maskOf ((List.range 24).filter fun n => (v.s.core ⟨v.c.loc.die, v.c.loc.cluster, n⟩).latch.isSome))))

/-- R258 to R262: GBIND, GMV, GMVA and GRVRD dispatch their command with the addresses, spaces and batch width their operands
and X0 give; GABORT acts at commit. -/
def Obligations.GrammarInstructions : Prop :=
  ∀ f : Fields,
    let a := fun (v : Env) => v.rd64 f.a v.low
    let b := fun (v : Env) => v.rd64 f.b v.low
    let c := fun (v : Env) => v.rd64 f.c v.low
    let sends := fun (g : Env → GCmd) (v : Env) => v.dispatchesRA 2 .none v.lowG (.grammar (g v))
    let mv := fun (add : Bool) (v : Env) => GCmd.mv add (f.m.getLsbD 7) (f.x.testBit 12) (2 ^ nbits f.x 5 3) (nbits f.x 9 8) (nbits f.x 11 10)
      (a v) (b v) (c v)
    Performs (.gbind f) Env.any (sends fun v => .bind (f.x.testBit 12) (a v) (b v))
    ∧ Performs (.gmv f) Env.any (sends (mv false)) ∧ Performs (.gmva f) Env.any (sends (mv true))
    ∧ Performs (.grvrd f) Env.any (sends fun v => .grvrd (f.m.getLsbD 7) (nbits f.x 4 3) (a v) (b v) (c v))
    ∧ Performs (.gabort f) Env.any (fun v => v.onceOut (Out.effect [.gabort]))

/-- R271 to R275, R283, R284, R289, R290: a SPAWN whose entries are valid offers one entry per lane of a generation below 255
as far as there is room, first on chip and then spilled, writes its predicate true in exactly the lanes it reserved for, and
leaves the entries for commit; an entry above 63 or not valid is the spawn-entry trap in those lanes. The join counters of SPAWN,
JCINIT and JCADD are checked before commit. That a v index is 32 bits wide and an s index 64 is the model's reading, log entry 46, and so
is that the reservation is answered at the instruction, log entry 16. -/
def Obligations.SpawnInstructions : Prop :=
  ∀ f : Fields,
    let bad := fun (v : Env) => v.parts.filter fun l => decide (63 < v.spawnIdx l) || (v.s.spawnTarget (whoOf v.c) (v.spawnIdx l)).isNone
    let young := fun (v : Env) => v.parts.filter fun l => decide ((v.c.lane l).gen < 255)
    let room := fun (v : Env) => v.s.spawnRoom v.c.launch (clusterKey v.c.loc) (young v).length v.r.spawned.1 v.r.spawned.2
    let reqs := fun (v : Env) => (((young v).take (room v).1).map fun l => v.offer l true)
      ++ ((((young v).drop (room v).1).take (room v).2).map fun l => v.offer l false)
    let joins := fun (v : Env) => (v.parts.filter fun l => v.rd64 f.c l != 0).map fun l =>
      ({ lane := l, addr := (v.rd64 f.c l).toNat, x := (1, 0), y := 0 } : Acc)
    let jsp := if f.m.getLsbD 0 then 3 else 0
    let check := fun (v : Env) => v.s.preCheck (whoOf v.c) .rmw true jsp 8 (joins v)
    let value := fun (v : Env) => if v.isImm then v.imm.signExtend 64 else v.rd64 f.b v.low
    let at' := fun (v : Env) (x : W64) => v.place1 (v.rd64 f.a v.low) x
    PerformsLooking (.spawn f) (fun v => bad v = [] ∧ check v = none) (fun v => v.someOut { Out.nil with
        held := v.parts.map fun l => Held.p f.d.byte l ((reqs v).any fun r => r.lane == l)
        acts := [.spawn (f.m.getLsbD 0) (reqs v) (v.parts.filter fun l => decide (255 ≤ (v.c.lane l).gen)).length
          ((young v).length - (reqs v).length)] })
    ∧ TrapsLooking (.spawn f) (fun v => bad v ≠ []) (fun v => { v.plainTrap 0x0A with fault := bad v })
    ∧ TrapsLooking (.spawn f) (fun v => bad v = [] ∧ check v ≠ none) (fun v => v.checkTrap (check v))
    ∧ (let accs := fun (v : Env) => if v.lowG then at' v (value v) else []
      let init := fun (v : Env) => v.s.preCheck (whoOf v.c) .write false jsp 8 (accs v)
      let add := fun (v : Env) => v.s.preCheck (whoOf v.c) .rmw true jsp 8 (accs v)
      Performs (.jcinit f) (fun v => init v = none) (fun v => Out.effect [.store jsp 8 (accs v)])
      ∧ Performs (.jcadd f) (fun v => add v = none) (fun v => Out.effect [.reduce (.int 0 2) jsp 8 (accs v)])
      ∧ Traps (.jcinit f) (fun v => init v ≠ none) (fun v => v.checkTrap (init v))
      ∧ Traps (.jcadd f) (fun v => add v ≠ none) (fun v => v.checkTrap (add v)))
    ∧ Performs (.jcwait f) Env.any (fun v => v.dispatches false false 0 .none v.lowG
        (.jcwait (if f.m.getLsbD 7 then 3 else 0) (v.rd64 f.a v.low)))
    ∧ Performs (.launchg f) Env.any (fun v => v.dispatchesRA 2 .none v.lowG (.launchg (v.rd64 f.a v.low) (v.rd64 f.b v.low)))
    ∧ Performs (.spq f) Env.any (fun v => v.onceOut (v.status (BitVec.ofNat 64 (v.s.spawnQuery v.c f.ty))))

/-- R293 to R304, R308, R311: copies, ring operations, the bit reader and prefix decoding dispatch their command; RINIT's
descriptor is checked before commit, and one that is malformed is the illegal-operand trap. That the lowest lane's guard decides for every
lane of SRD's uniform form is the model's reading, log entry 62. -/
def Obligations.CopyAndRingInstructions : Prop :=
  ∀ f : Fields,
    let a := fun (v : Env) => v.rd64 f.a v.low
    let b := fun (v : Env) => v.rd64 f.b v.low
    let c := fun (v : Env) => v.rd64 f.c v.low
    let rsp := if f.ext.x0?.isSome then nbits f.x 4 3 else 1
    let sends := fun (g : Env → CCmd) (v : Env) => v.dispatchesRA 2 .none v.lowG (.copy (g v))
    let racq := fun (cons : Bool) (v : Env) => v.dispatchesRA 2 (v.dst 1 1) v.lowG (.racq cons rsp (a v))
    let rrel := fun (free last : Bool) (n : Env → W64) (v : Env) => v.dispatchesRA 2 .none v.lowG (.rrel free last rsp (a v) (b v) (n v))
    let sp := nbits f.m.toNat 1 0
    Performs (.cpy f) Env.any (sends fun v => v.copyCmd false) ∧ Performs (.cpyRing f) Env.any (sends fun v => v.copyCmd true)
    ∧ Performs (.cpygGather f) Env.any (sends fun v => v.gatherCmd false) ∧ Performs (.cpygScatter f) Env.any (sends fun v => v.gatherCmd true)
    ∧ Performs (.racqProd f) Env.any (racq false) ∧ Performs (.racqCons f) Env.any (racq true)
    ∧ Performs (.rrelPub f) Env.any (rrel false false c) ∧ Performs (.rrelPubLast f) Env.any (rrel false true c)
    ∧ Performs (.rrelFree f) Env.any (rrel true false fun _ => 0)
    ∧ Performs (.srd f) Env.any (fun v => v.dispatches false false 0 (v.dst 1 1) (!v.takers.isEmpty)
        (.access .srd (f.m.getLsbD 7).toNat 1 (v.takers.map fun l =>
          let p := (v.rdWhole f.b (v.readLane l)).toNat
          { lane := l, addr := (v.rd64 f.a l).toNat + p / 8, x := (0, 0), y := BitVec.ofNat 64 (p % 8) })))
    ∧ Performs (.hdec f) Env.any (fun v => v.dispatchesRA 2 (v.dst 1 1) (!v.parts.isEmpty)
        (.copy (.hdec (f.m.getLsbD 7) (a v) (b v) v.parts)))
    ∧ (let reached := fun (v : Env) (pa : Nat) => v.s.preCheck (whoOf v.c) .rmw false sp 64 (v.place1 (a v) 0) = none
        ∧ (v.s.ringAt (whoOf v.c) sp (a v)).2 = .ok pa
      let good := fun (v : Env) (pa : Nat) => bits (c v) 31 24 = 0 ∧ bits (c v) 63 41 = 0
        ∧ v.s.ringMalformed (whoOf v.c) (ringOf pa (b v) (c v)) = false;
      Performs (.rinit f) (fun v => v.lowG = true → ∃ pa, reached v pa ∧ good v pa)
        (fun v => v.onceOut (Out.effect [.rinit sp (a v) (b v) (c v)]))
      ∧ Traps (.rinit f) (fun v => v.lowG = true ∧ ∃ pa, reached v pa ∧ ¬ good v pa) (fun v => v.plainTrap 0x02)
      ∧ Traps (.rinit f) (fun v => v.lowG = true ∧ v.s.preCheck (whoOf v.c) .rmw false sp 64 (v.place1 (a v) 0) ≠ none)
        (fun v => v.checkTrap (v.s.preCheck (whoOf v.c) .rmw false sp 64 (v.place1 (a v) 0))))

/-- R305 to R307, R309: SBIND answers its status and binds where it is 0; the SCTL forms answer the slot's status word or a
counter as the run's earlier instructions leave it, and DLEN and STOP act at commit; SEMIT writes, packed, the elements of
its lanes up to the declared length, and answers their bytes, after their checks; at commit its counters rise by the elements offered and
written. A slot that is stopped has its lanes exited at its run boundary. That the answers are those of the state the run will
commit to is the model's reading, log entry 16, and so is that SCTL answers once the slot has ended and then changes nothing, log
entry 27. -/
def Obligations.StreamInstructions : Prop :=
  ∀ f : Fields,
    let a := fun (v : Env) => if v.isImm then v.imm.setWidth 64 else v.rd64 f.a v.low
    let st := fun (v : Env) => v.s.sbindStatus v.c (v.rd64 f.a v.low) v.r.binds
    let bound := fun (v : Env) => v.r.binds || v.s.sctlBound v.c
    let live := fun (v : Env) => v.r.binds || (match v.s.block? v.c.block with | some b => v.s.slotBound b | none => false)
    let ctl := fun (x : Env → W64) (acts : Env → List Act) (v : Env) => v.onceOut (if bound v then (v.status (x v)).also (if live v then acts v else [])
      else v.status 0)
    let w := 2 ^ nbits f.m.toNat 1 0
    let sp := nbits f.m.toNat 3 2
    let k := fun (v : Env) => v.parts.length
    let kept := fun (v : Env) => if v.slotStat.dset then min (k v) (v.slotStat.dlen.toNat - v.slotStat.elen.toNat) else k v
    let accs := fun (v : Env) => ((List.range (kept v)).zip v.parts).map fun q =>
      ({ lane := q.2, addr := (v.rd64 f.a v.low + BitVec.ofNat 64 (q.1 * w)).toNat
         x := (if w = 8 then v.rd64 f.b (v.readLane q.2) else (v.rd32 f.b (v.readLane q.2)).setWidth 64, 0), y := 0 } : Acc)
    PerformsLooking (.sbind f) Env.any (fun v => v.onceOut ((v.status (BitVec.ofNat 64 (st v))).also
        (if st v = 0 then [.sbind (v.rd64 f.a v.low) (v.rd64 f.b v.low)] else [])))
    ∧ Performs (.sctlStat f) Env.any (ctl (fun v => v.slotStat.word (live v)) fun _ => [])
    ∧ Performs (.sctlDlen f) Env.any (ctl (fun v => v.slotStat.dlen) fun v => [.sctl 1 (a v)])
    ∧ Performs (.sctlYlen f) Env.any (ctl (fun v => v.slotStat.ylen) fun _ => [])
    ∧ Performs (.sctlElen f) Env.any (ctl (fun v => v.slotStat.elen) fun _ => [])
    ∧ Performs (.sctlStop f) Env.any (ctl (fun v => v.slotStat.word (live v)) fun v => [.sctl 4 (a v)])
    ∧ Performs (.semit f) (fun v => v.s.preCheck (whoOf v.c) .write false sp w (accs v) = none)
        (fun v => v.someOut ((v.status (BitVec.ofNat 64 (kept v * w))).also [.semit sp w (accs v) (k v)]))
    ∧ Traps (.semit f) (fun v => v.s.preCheck (whoOf v.c) .write false sp w (accs v) ≠ none)
        (fun v => v.checkTrap (v.s.preCheck (whoOf v.c) .write false sp w (accs v)))
    ∧ (∀ (b : Block) (x : W64),
        let bound := fun (yes : Bool) (s : State) (c : Ctx) => s.block? c.block = some b ∧ s.slotBound b = yes
        CommitsTo (.sctl 1 x) (bound true) (fun _ s _ => s.updBlock b.id fun y => { y with stat := { y.stat with dlen := x, dset := true } })
        ∧ (∀ i, b.slotCtx = some i → Commits (.sctl 4 x) (bound true) fun _ s c t => ∃ g : Ctx → Ctx,
            t = (s.updBlock b.id fun y => { y with stat := { y.stat with stopped := true } }).updCtx i g
            ∧ ∀ z : Ctx, (i = c.id ∨ z.commitQ ≠ [] → g z = { z with stopReq := true })
              ∧ (i ≠ c.id → z.commitQ = [] → z.lanes.length = z.width → g z = { z with
                  m := [], stopReq := false, lanes := z.lanes.map fun y => { y with st := .exited, halted := false, deferred := none } }))
        ∧ ∀ sel, CommitsTo (.sctl sel x) (bound false) fun _ s _ => s)
    ∧ ∀ (space size n : Nat) (as : List Acc) (s s1 : State) (c : Ctx) (e : Eff), e.act = .semit space size as n → s.unheld c →
        s.commitWrite c none space size e.pc as e.code (.store space size) = some s1 →
        s.performAct c e = some (s1.updBlock c.block fun y => { y with stat := { y.stat with
          ylen := y.stat.ylen + BitVec.ofNat 64 n, elen := y.stat.elen + BitVec.ofNat 64 as.length } })

/-- R321 to R333, R182: remote loads, stores, atomics, bulk and multicast copies, collectives and the fabric fence dispatch
their command with the peer pair that X0 names; RST and RATOM are sent with no active lane too; COLLCFG answers the former
share and sets one of 1 to 16, at commit that of the issuing die alone. That the lowest lane's guard decides for every lane of RLD's, RST's and RATOM's uniform form is the model's
reading, log entry 62, and COLLCFG's answer at the instruction log entry 16. -/
def Obligations.FabricInstructions : Prop :=
  ∀ f : Fields,
    let ty := nbits f.x 5 3
    let n := fTyBytes ty
    let pair := fun (v : Env) => match Reg.ofByte (nbits f.x 15 8) with
      | .s r => (v.c.rdS r.val, v.c.rdS (r.val + 1))
      | _ => ((0 : W64), (0 : W64))
    let accs := fun (d : Reg) (v : Env) => v.takers.map fun l =>
      v.cell n l ((BitVec.ofNat 16 (nbits f.x 31 16)).signExtend 64) (v.rd (n == 8) d (v.readLane l), 0) 0
    let sends := fun (d : Env → Dst) (active : Env → Bool) (g : Env → FCmd) (v : Env) => v.dispatchesRA 3 (d v) (active v) (.fabric (g v))
    let none' := fun (_ : Env) => Dst.none
    let share := fun (v : Env) => (if v.isImm then v.imm.setWidth 64 else v.rd64 f.a v.low).toNat
    Performs (.rld f) Env.any (sends (fun v => v.dst (n / 4) 1) (fun v => !v.takers.isEmpty) fun v => .rld ty (pair v).1 (pair v).2 (accs .zero v))
    ∧ Performs (.rst f) Env.any (sends none' (fun _ => true) fun v => .rst ty (pair v).1 (pair v).2 (accs f.d v))
    ∧ Performs (.ratom f) Env.any (sends (fun v => v.dst (n / 4) 1) (fun _ => true) fun v => .ratom f.sub.val ty (pair v).1 (pair v).2 (accs f.c v))
    ∧ Performs (.rcpy f) Env.any (sends none' Env.lowG fun v => .rcpy (nbits f.x 7 6) (pair v).1 (pair v).2 (v.rd64 f.a v.low)
        (v.rd64 f.b v.low) (v.rd64 f.c v.low))
    ∧ Performs (.rstm f) Env.any (sends none' Env.lowG fun v => .rstm (nbits f.x 7 6) (pair v).1 (pair v).2 (v.rd64 f.a v.low)
        (v.rd64 f.b v.low) (v.rd64 f.c v.low) [])
    ∧ (∀ p ∈ [(Instr.collAr, 0), (.collRs, 1), (.collAg, 2)],
        Performs (p.1 f) Env.any (sends none' Env.lowG fun v => .coll p.2 (v.rd64 f.a v.low) []))
    ∧ Performs (.rfence f) Env.any (fun v => v.dispatchesRA 3 .none v.lowG .rfence)
    ∧ Performs (.collcfg f) (fun v => v.lowG = true → 1 ≤ share v ∧ share v ≤ 16)
        (fun v => v.onceOut ((v.status (BitVec.ofNat 64 v.shareNow)).also [.collcfg (share v)]))
    ∧ Traps (.collcfg f) (fun v => v.lowG = true ∧ (share v = 0 ∨ 16 < share v)) (fun v => v.plainTrap 0x02)
    ∧ ∀ k : Nat, CommitsTo (.collcfg k) State.anyCtx fun _ s c =>
        s.updLaunch c.launch fun l => { l with share := setNth l.share c.loc.die k }

/-- R343 to R347: VCFG, VCFG.CLOSE and VENC dispatch their command; VQRY answers the free units of the die or what a session
of the launch holds, 0 for no session. That VENC ignores bits 63:32 of its second output register, and its fourth, is the model's reading,
log entry 45. -/
def Obligations.EncoderInstructions : Prop :=
  ∀ f : Fields,
    let a := fun (v : Env) => v.rd64 f.a v.low
    let out := fun (v : Env) (i : Nat) => match f.c with | .s n => v.c.rdS (n.val + i) | _ => (0 : W64)
    Performs (.vcfg f) Env.any (fun v => v.dispatchesRA 2 (v.dst 1 1) v.lowG (.vcfg false (a v)))
    ∧ Performs (.vcfgClose f) Env.any (fun v => v.dispatchesRA 2 (v.dst 1 1) v.lowG (.vcfg true (a v)))
    ∧ Performs (.venc f) Env.any (fun v => v.dispatchesRA 2 (v.dst 1 1) v.lowG
        (.venc (f.m.getLsbD 7) (f.x.testBit 3) (nbits f.x 5 4) (a v) (v.rd64 f.b v.low) (out v 0) ((out v 1).setWidth 32 |>.setWidth 64) (out v 2)))
    ∧ Performs (.vqry f) Env.any (fun v => v.onceOut (v.status (
        if f.ty = 0 then BitVec.ofNat 64 (v.s.freeUnits v.c.loc.die)
        else match v.s.session? v.c.launch (a v).toNat with
          | none => 0
          | some x => if f.ty = 1 then BitVec.ofNat 64 x.queue.length else if f.ty = 2 then BitVec.ofNat 64 x.frames else x.bytes)))

/-- R355 to R358, R361 to R364: TRAP takes the software trap with its code and operand, resuming after it; BKPT halts its lanes
where the launch has the debug right and is the debug trap otherwise; HALT halts them at commit, or leaves the debug trap for
the lanes' next run; MFSR, PCNT and CLOCK answer their register, counter or clock; MTSR and TMARK act at commit; a bit MTSR
may not write is the illegal-operand trap. Which register each number of Table 17.2 names, with the fields of DBGST, CNTBANK and CAP0;
what the commit of MTSR leaves in each of the registers that it may write; that lanes halt, or carry the debug trap, by the right as it is
at the commit. -/
def Obligations.SystemInstructions : Prop :=
  (∀ f : Fields,
    let m := f.m.toNat
    let x := fun (v : Env) => if v.isImm then v.imm.setWidth 64 else v.rd64 f.a v.low
    let after := fun (v : Env) => v.s.pastPads v.c.loc v.next
    let mayWrite := fun (n : Nat) => if n = 4 then (0x00FFFFFFFFFFFFFC : W64) else if n = 8 then 1 else if n = 9 then 0x1FFFFFFFF else 7
    Traps (.trap f) (fun v => v.parts ≠ [])
      (fun v => { v.plainTrap 0x0F with detail := m, fault := v.parts, tepc := after v, tval := v.rd64 f.a v.low })
    ∧ Performs (.trap f) (fun v => v.parts = []) (fun _ => Out.nil)
    ∧ Performs (.bkpt f) (fun v => v.parts = [] ∨ v.s.debugRight v.c.launch = true) 
      (fun v => v.someOut (Out.effect [.haltLanes v.parts v.pc (after v) m]))
    ∧ Traps (.bkpt f) (fun v => v.parts ≠ [] ∧ v.s.debugRight v.c.launch = false)
      (fun v => { v.plainTrap 0x0E with detail := m, fault := v.parts, tepc := after v })
    ∧ Performs (.haltL f) Env.any (fun v => v.someOut (Out.effect
        [if v.s.debugRight v.c.launch then .haltLanes v.parts v.pc (after v) 0 else .haltTrap v.parts v.pc (after v) 0]))
    ∧ Performs (.mfsr f) (fun v => ¬ (v.c.kind = .seq ∧ m ∈ [0x10, 0x11, 0x12]))
        (fun v => v.onceOut (v.status (if 0x40 ≤ m then v.s.capReg (m - 0x40) else v.s.sysReg v.c m)))
    ∧ Traps (.mfsr f) (fun v => v.c.kind = .seq ∧ m ∈ [0x10, 0x11, 0x12]) (fun v => v.plainTrap 0x01)
    ∧ Performs (.mtsr f) (fun v => v.lowG = true → x v &&& ~~~(mayWrite m) = 0) (fun v => v.onceOut (Out.effect [.mtsr m (x v)]))
    ∧ Traps (.mtsr f) (fun v => v.lowG = true ∧ x v &&& ~~~(mayWrite m) ≠ 0) (fun v => v.plainTrap 0x02)
    ∧ Performs (.tmark f) Env.any (fun v => v.onceOut (Out.effect [.tmark m (x v)]))
    ∧ Performs (.pcnt f) Env.any (fun v => v.onceOut (v.status (v.counter f.ty)))
    ∧ Performs (.clock f) Env.any (fun v => v.onceOut (v.status (
        if f.m.getLsbD 0 then BitVec.ofNat 64 (Table.get v.s.cyc (clusterKey v.c.loc) 0) else BitVec.ofNat 64 v.s.ns))))
  ∧ (∀ (s : State) (c : Ctx),
      let r := s.sysReg c
      r 0x00 = c.sr.tcause ∧ r 0x01 = c.sr.tlanes ∧ r 0x02 = c.sr.tfault ∧ r 0x03 = c.sr.taddr ∧ r 0x04 = c.sr.tepc ∧ r 0x05 = c.sr.tval
      ∧ r 0x06 = c.sr.trec ∧ r 0x07 = c.sr.prbase ∧ r 0x08 = c.sr.pmode ∧ r 0x09 = c.sr.pstat ∧ r 0x0A = c.sr.trctl ∧ r 0x0B = c.sr.stctl
      ∧ ((r 0x0C).getLsbD 0 = s.debugRight c.launch ∧ (r 0x0C).getLsbD 1 = c.sr.dbgRev ∧ bits (r 0x0C) 63 2 = 0)
      ∧ (bankOf (s.banksAt c.loc) c.launch = none → r 0x0D = 0)
      ∧ (∀ b, bankOf (s.banksAt c.loc) c.launch = some b → b < 16 → bits (r 0x0D) 3 0 = b ∧ (r 0x0D).getLsbD 4 = true ∧ bits (r 0x0D) 63 5 = 0)
      ∧ r 0x0E = c.sr.tentry ∧ r 0x10 = (s.stat c).pscause ∧ r 0x11 = (s.stat c).psaddr ∧ r 0x12 = (s.stat c).pslanes
      ∧ (s.cap 0 < 16 → s.cap 1 < 16 → s.cap 5 < 2048 → s.cap 4 < 1024 →
          bits (s.capReg 0) 3 0 = s.cap 0 ∧ bits (s.capReg 0) 7 4 = 0 ∧ bits (s.capReg 0) 11 8 = s.cap 1 ∧ bits (s.capReg 0) 42 12 = 0
          ∧ bits (s.capReg 0) 53 43 = s.cap 5 ∧ bits (s.capReg 0) 63 54 = s.cap 4)
      ∧ (∀ i, 4 ≤ i → s.capReg i = 0))
  ∧ (∀ (n : Nat) (x : W64), CommitsTo (.mtsr n x) State.anyCtx fun _ s c => s.updCtx c.id fun y => { y with
      sr := { y.sr with
        tepc := if n = 4 then x else y.sr.tepc, pmode := if n = 8 then x else y.sr.pmode
        pstat := if n = 9 then x else y.sr.pstat, trctl := if n = 10 then x else y.sr.trctl }
      traceSync := y.traceSync || (decide (n = 10) && x.getLsbD 0 && !y.sr.trctl.getLsbD 0) })
  ∧ (∀ (tag : Nat) (x : W64), CommitsTo (.tmark tag x) (fun _ c => c.sr.trctl.getLsbD 2 = false) fun _ s _ => s)
  ∧ ∀ (ls : List Nat) (pc next : W64) (detail : Nat), ∀ a ∈ [Act.haltLanes ls pc next detail, .haltTrap ls pc next detail],
      Commits a State.anyCtx fun _ s c t => ∃ g : Ctx → Ctx, t = s.updCtx c.id g ∧ ∀ x : Ctx, g x = { x with lanes := (g x).lanes }
        ∧ ∀ l < x.lanes.length, (g x).lane l =
          if l ∉ ls then x.lane l
          else if s.debugRight c.launch = true then { x.lane l with halted := true }
          else { x.lane l with deferred := some { cause := 0x0E, detail := detail, psn := false, token := 0, taddr := pc, tepc := next
                                                  tval := 0, trec := 0xFFFF } }

/-- R360: ERET executed in the handler by a run of exactly the lanes of TLANES that have not exited completes, and returns at
its commit; executed by any other lanes, or outside the handler, it is the illegal-instruction trap. What the return does: those
lanes are runnable at TEPC (past pads there, R16), TCAUSE loses its INH bit, and nothing else of the context changes but what a
lane keeps of the poisoned tokens that its next run would meet. That pads at TEPC are skipped is the model's reading, log entry 58. -/
def Obligations.ReturnFromHandler : Prop :=
  (∀ f : Fields,
    Performs (.eret f) (fun v => v.lowG = true → v.c.eretLegal v.r.lanes = true) (fun v => v.onceOut (Out.effect [.eret]))
    ∧ Traps (.eret f) (fun v => v.lowG = true ∧ v.c.eretLegal v.r.lanes = false) (fun v => v.plainTrap 0x01))
  ∧ (∀ (c : Ctx) (ls : List Nat), c.width ≤ 64 → (∀ l ∈ ls, l < c.width) →
      (c.eretLegal ls = true ↔ c.sr.tcause.getLsbD 31 = true
        ∧ ∀ l < c.width, l ∈ ls ↔ c.sr.tlanes.getLsbD l = true ∧ (c.lane l).st ≠ .exited))
  ∧ (∀ (s : State) (c : Ctx) (pc : W64) (code : Nat), s.behindLog c = false → s.behindGated c = false →
      s.performAct c { pc := pc, code := code, act := .eret } = some { s with
        ctxs := s.ctxs.map fun x => if x.id = c.id then x.eret (s.pastPads x.loc x.sr.tepc) else x })
  ∧ ∀ (c : Ctx) (pc : W64), c.lanes.length = c.width →
      c.eret pc = { c with
        sr := { c.sr with tcause := c.sr.tcause &&& ~~~0x80000000#64 }
        lanes := (List.range c.width).map fun l => if c.sr.tlanes.getLsbD l ∧ (c.lane l).st ≠ .exited then
          { c.lane l with pc := pc, fell := true, st := .runnable, met := (c.lane l).met.filter fun m => m.1 == c.sr.tepc }
          else c.lane l }

/-! Commit (02_formats.md R33). -/

/-- R33: at the commit of a run without effects its held writes are made together, the last in program order winning; the
lanes of the run stand at their new addresses (where they transferred, else after the run); nothing else of the machine
changes but counters, trace records and what completing masks and barriers release. Here with no counter, no trace and no
lane parked or at a barrier, and no register in error, the next state is written out. -/
def Obligations.CommitOfRegisters : Prop :=
  ∀ (s : State) (c : Ctx) (r : Run) (l : Launch),
    s.ctx? c.id = some c → s.launch? c.launch = some l → l.record.cs = false → r.effs = [] → s.badVregs = [] →
    c.traceSync = false → c.stopReq = false → (∀ x ∈ s.ctxs, x.id = c.id → x = c) →
    (∀ x ∈ s.ctxs, x.block = c.block → ∀ y ∈ x.lanes, y.st = .runnable ∨ y.st = .exited) →
    s.commitRun c r = { s with run := none, ctxs := s.ctxs.map fun x =>
      if x.id = c.id then { (x.putAll r.held).movePcs r with commitQ := [] } else x }

/-- R33, R26: after held writes, a v or s register, a predicate but p7, or a mask reads as the last write to it in program
order, and as before where none was made; a predicate write to p7 is discarded. -/
def Obligations.LastWriteWins : Prop :=
  ∀ (c : Ctx) (hs : List Held) (n l : Nat), l < 64 → Table.wf 0 c.v = true → Table.wf 0 c.s = true → Table.wf 0 c.p = true →
    Table.wf 0 c.m = true →
    (c.putAll hs).rdV n l = ((hs.reverse.findSome? fun h => match h with
        | .v n' l' x => if 64 * n' + l' = 64 * n + l then some x else none
        | _ => none).getD (c.rdV n l))
    ∧ (c.putAll hs).rdS n = ((hs.reverse.findSome? fun h => match h with | .s n' x => if n' = n then some x else none | _ => none).getD (c.rdS n))
    ∧ ((∀ h ∈ hs, match h with | .p _ l' _ => l' < 64 | _ => True) →
        (c.putAll hs).rdP n l = (if n = 7 then true else
          (hs.reverse.findSome? fun h => match h with | .p n' l' x => if n' = n ∧ l' = l then some x else none | _ => none).getD (c.rdP n l)))
    ∧ (c.putAll hs).rdM n = ((hs.reverse.findSome? fun h => match h with
        | .m n' x => if n' = n then some (x &&& c.widthMask) else none
        | _ => none).getD (c.rdM n))
    ∧ (c.putAll hs).lanes = c.lanes ∧ (c.putAll hs).tok = c.tok ∧ (c.putAll hs).sr = c.sr

/-- R33, R34, the rule over all instructions of the opcode map: while a run goes on, executing an instruction changes nothing
of the machine but the open run itself, which only gains held writes and effects, and the counters of a launch that counts; every
effect waits for the commit. An instruction that leaves no run open committed its run or trapped, and a trap discards all that the run
held: of an untraced warp with a handler only the trapping lanes and the registers of Table 17.3 change; that those lanes go past pads
at the handler's entry (R16) is the model's reading, log entry 58. (In a state with
no uncorrectable register and no uncorrectable word, and the tables of cores and clusters in their canonical form.) -/
def Obligations.NoEffectBeforeCommit : Prop :=
  ∀ (i : Instr) (s t : State) (v : Env), s.envOf i = some v → s.badVregs = [] → s.badWords = [] → s.badGranules = [] →
    Table.wf Core.reset s.cores = true → Table.wf Cluster.reset s.clusters = true → exec i s = .next t →
    let counted := fun (u : State) =>
      (∀ loc, u.core loc = { s.core loc with banks := (u.core loc).banks })
      ∧ ∀ k, u.cluster k = { s.cluster k with seqBanks := (u.cluster k).seqBanks }
    (t.run.isSome = true →
      (∃ r, t.run = some r ∧ r.ctx = v.r.ctx ∧ r.lanes = v.r.lanes ∧ r.first = v.r.first ∧ r.count = v.r.count + 1
        ∧ v.r.held <+: r.held ∧ v.r.effs <+: r.effs)
      ∧ t = { s with run := t.run, cores := t.cores, clusters := t.clusters } ∧ counted t)
    ∧ (t.run = none → (∃ o, v.endsRun = true ∧ t = v.counted.commitRun v.c (v.grow o)) ∨ ∃ x, t = v.counted.trapTo v.c.id x)
    ∧ ∀ x : TrapInfo, v.c.kind = .lane → v.c.inh = false → v.c.sr.tentry ≠ 0 → s.traced v.c = false →
        let u := v.counted.trapTo v.c.id x
        u = { s with
          run := none, cores := u.cores, clusters := u.clusters
          ctxs := s.ctxs.map fun y => if y.id = v.c.id then y.enterHandler x (s.pastPads y.loc y.sr.tentry) else y } ∧ counted u

/-! Memory. -/

/-- Reading back what was written, little-endian, and nothing else changed: an element of n bytes reads as the number written,
modulo 2^(8 n), and every byte outside it as before. Memory keeps its canonical form under every write of bytes, and a list in
that form that reads the same everywhere is the same list. -/
def Obligations.MemoryReadsBack : Prop :=
  ∀ (s : State) (pa n x : Nat) (bs : List Byte), Memory.wf s.mem = true →
    (s.wrN pa n x).readN pa n = x % 2 ^ (8 * n)
    ∧ (∀ q, q < pa ∨ pa + n ≤ q → (s.wrN pa n x).readByte q = s.readByte q)
    ∧ Memory.wf (s.wr pa bs).mem = true
    ∧ ∀ m : List Host.Cell, Memory.wf m = true → (∀ a, Table.get m a unlistedByte = s.readByte a) → m = s.mem

/-- Every step of the machine, an instruction or an act between runs, keeps memory in canonical form, from every state. -/
def Obligations.StepKeepsMemoryForm : Prop :=
  ∀ s t : State, Memory.wf s.mem = true → step s = .next t → Memory.wf t.mem = true

/-- What reset leaves: no access checking, no lock, translation off, 4,000 A, clocks at 1,200 MHz, no launch, no context, no
queue enabled; memory lists nothing and has its canonical form. That there is no launch, context or operation at reset is the model's
reading, log entry 5; that an unlisted byte reads 0 is its choice, log entry 4. -/
def Obligations.ResetState : Prop :=
  (∀ die ≤ 1, (State.reset.reg die 0x100000) = 0 ∧ State.reset.reg die 0x19FFF8 = 0)
  ∧ State.reset.reg 0 0x160100 = 4000
  ∧ (∀ i < 16, State.reset.reg 0 (0x160000 + 8 * i) = BitVec.ofNat 64 (1200 + 1200 * 2 ^ 16))
  ∧ (∀ q < 64, State.reset.reg 0 (0x140000 + 0x20 * q + 8) = 0)
  ∧ State.reset.launches = [] ∧ State.reset.ctxs = [] ∧ State.reset.ops = [] ∧ State.reset.run = none
  ∧ Memory.wf State.reset.mem = true

/-! Events (95_what_each_step_holds.md): each is possible between runs where its conditions hold, and leaves what its rule gives;
what follows every event (`State.quiesce`) then follows. -/

/-- An event of the dies is not possible while a run is open, nor while the dies are held in reset or in recovery mode; a
device reset always is (R33, R396, R397). A step between runs is the run or the event that the agenda names. The next group of a warp
is that of the next higher lowest lane after the one that issued last, or else that of its lowest lane (R55, R56). Of a core, eight warps
at most are active (R386); the run that begins is that of the oldest ready one of them, or of a warp of width 16 beside it where it is of width 16
too; in their place, that of the ready warp that most runs have passed, where one run more ahead of the ready warps passed so often would
exceed the 128 of R389 for one of them; of a cluster's sequencer contexts, that of the oldest ready one (R222). That no agent acts while a run is open is the model's reading, log entry 7; when
R389's bound overrides R386, and the agenda, which lets any order of the agents come about, are its choices, log entry 8; so is that
the first group of a context which has issued none is that of its lowest lane, log entry 2. -/
def Obligations.EventsComeBetweenRuns : Prop :=
  ∀ (i : Instr) (s : State), i.view = none →
    (s.run.isSome = true → exec i s = .fault .notEnabled ∨ i = .deviceReset)
    ∧ ((s.tripped = true ∨ s.recovery = true) →
        exec i s = .fault .notEnabled ∨ i = .deviceReset ∨ (∃ tj, i = .thermalTrip tj) ∨ (∃ m, i = .pldmFirmwareUpdate m)
          ∨ (∃ n, i = .pldmMonitoring n) ∨ i = .spdm)
    ∧ exec .deviceReset s = .next s.deviceReset
    ∧ (s.run = none → s.tripped = false → s.recovery = false → ∀ (rest : List Turn),
        let s0 := { s.tick with agenda := rest }
        (∀ cid, s.agenda = .run cid :: rest → step s = .next ((s0.schedule cid).getD s0.leaveActive).track)
        ∧ (∀ j t, s.agenda = .event j :: rest → exec j s0 = .next t → step s = .next t.track))
    ∧ (∀ (c : Ctx) (ls : List Nat), ls.Pairwise (· < ·) → ls ≠ [] →
        let lowest := fun l => l ∈ ls ∧ ∀ x ∈ ls, (c.lane x).pc = (c.lane l).pc → l ≤ x
        ∃ l, lowest l ∧ c.nextGroup ls = ls.filter (fun x => (c.lane x).pc == (c.lane l).pc)
          ∧ (c.last = none → ∀ x ∈ ls, l ≤ x)
          ∧ ∀ k, c.last = some k → (k < l → ∀ x, lowest x → k < x → l ≤ x) ∧ (l ≤ k → (∀ x, lowest x → x ≤ k) ∧ ∀ x ∈ ls, l ≤ x))
    ∧ (∀ rdy : List Ctx, let limit := fun (x : Ctx) => 128 < x.passed + (rdy.filter fun y => decide (x.passed ≤ y.passed)).length
        (overdue rdy = none ↔ ∀ x ∈ rdy, ¬ limit x)
        ∧ ∀ x, overdue rdy = some x → x ∈ rdy ∧ (∃ y ∈ rdy, limit y) ∧ ∀ y ∈ rdy, y.passed ≤ x.passed)
    ∧ (∀ (l : Loc) (rdy : List Ctx) (x : Ctx), Table.wf Core.reset s.cores = true → (s.core l).active.length ≤ 8 →
        ((s.refreshActive l).core l).active.length ≤ 8
        ∧ ((s.letIn l rdy x).core l).active.length ≤ 8 ∧ x.id ∈ ((s.letIn l rdy x).core l).active)
    ∧ ∀ c : Ctx, s.ctx? c.id = some c →
        (c.kind = .seq →
          let older := ∃ x ∈ s.ctxs, x.kind = .seq ∧ clusterKey x.loc = clusterKey c.loc ∧ x.behind < c.behind ∧ s.ready x = true
          (older → s.schedule c.id = none) ∧ (¬ older → s.schedule c.id = s.beginRun c.id))
        ∧ (c.kind ≠ .seq →
          let s1 := s.refreshActive c.loc
          let rdy := (s1.warpsAt c.loc).filter s1.ready
          let chosen := fun x => x ∈ rdy ∧ x.id ∈ (s1.core c.loc).active
          (∀ x, overdue rdy = some x → s.schedule c.id = (s1.letIn c.loc rdy x).beginRun x.id)
          ∧ (overdue rdy = none →
            (∀ t, s.schedule c.id = some t → s1.beginRun c.id = some t ∧ ∃ x, chosen x ∧ (∀ y, chosen y → x.behind ≤ y.behind)
              ∧ (x.id = c.id ∨ x.width = 16 ∧ c.width = 16 ∧ ∃ y, chosen y ∧ y.id = c.id))
            ∧ ∀ x, chosen x → (∀ y, chosen y → y ≠ x → x.behind < y.behind) →
              (x.id = c.id ∨ x.width = 16 ∧ c.width = 16 ∧ ∃ y, chosen y ∧ y.id = c.id) → s.schedule c.id = s1.beginRun c.id))

/-- R149, R150, R152 to R157: an access whose page no TLB holds walks the four levels, to a page's leaf or a large page's: a table entry
that is not valid is a page not present, one that R148 rules out or a leaf without the right a violation, and then nothing changes; a leaf
that admits the access gives the address, has its read or write heat raised by 1 up to 3, and is cached. INVAL takes the page's leaves, or
all, from a die's TLB; RESUME releases what is held on a page, and answers its
notices where nothing is; RESUME with REJECT ends it; a notice that waited is posted when the ring has room; the first entry
of a side log whose pages are present is performed. A write of INVAL or RESUME that the access tables deny does nothing
(R400). The model's choices: that `Firmware` admits it where either the table of master 18 or that of master 21 does, log entry 17; that
a leaf that a walk found stays cached, log entry 10; that tables are read wherever they point, log entry 74. -/
def Obligations.PageEvents : Prop :=
  (∀ die vpn : Nat, die ≤ 1 →
    Firmware (.invalPage die vpn) die 0x100008 State.any (fun s => (s.setReg die 0x100008 (BitVec.ofNat 64 (vpn * 2 ^ 16))).setDie die
        { s.die die with tlb := (s.die die).tlb.filter fun t => t.page != (if t.large then vpn / 1024 else vpn) })
    ∧ Firmware (.invalAll die) die 0x100008 State.any (fun s =>
        (s.setReg die 0x100008 ((s.reg die 0x100008 &&& 0xFFFFFFFFFF0000) ||| 2)).setDie die { s.die die with tlb := [] })
    ∧ Firmware (.resume die vpn) die 0x100010 State.any (fun s => s.resumePage die vpn)
    ∧ Firmware (.resume die vpn) die 0x100010 (fun s => (∀ o ∈ s.ops, o.waitsFor vpn = false) ∧ s.heldMonitors vpn = []
          ∧ (∀ l ∈ s.lates, l.holdPage ≠ some vpn) ∧ ∀ c ∈ s.ctxs, ∀ x ∈ c.lanes, ∀ h, x.fetchHold = some h → h.2 ≠ vpn)
        (fun s => s.answerPage die vpn false)
    ∧ Firmware (.resumeReject die vpn) die 0x100010 State.any (fun s => s.rejectPage die vpn)
    ∧ ∀ n rest, Happens (.noticeRepost die) (fun s => (s.die die).unposted = n :: rest ∧ s.noticeRoom die = true)
        (fun s => (s.setDie die { s.die die with unposted := rest }).pushNotice die (BitVec.ofNat 64 (n.1 * 2 ^ 16 + n.2.1)) n.2.2))
  ∧ (∀ (c : Ctx) (l : Loc) (e : LogEntry) (rest : List (Loc × LogEntry)),
      Happens (.sideLogReplay c.id) (fun s => s.ctx? c.id = some c ∧ s.logOf c = (l, e) :: rest ∧ c.preempted = false
          ∧ s.holdsAccess c = false ∧ s.gatedBefore c.id e.seq = false ∧ (∀ v ∈ e.act.pages, (v, 2) ∉ (s.die c.loc.die).posted)
          ∧ ∀ a ∈ e.act.addresses, (s.tlbHit c.loc.die (s.logWho l e).units a).isSome = true)
        (fun s => ((s.dropLog l e).replayEntry l e).sweep))
  ∧ ∀ (s : State) (w : Who) (va size : Nat) (t : AccessType), t ≠ .probe → (s.reg w.die 0x100000).getLsbD 0 = true →
      s.tlbHit w.die w.units va = none → s.badGranules = [] → s.badWords = [] → Table.wf Die.reset s.dies = true →
      Memory.wf s.mem = true →
      let at' := fun (up : W64) (k : Nat) => bits up 51 13 * 8192 + 8 * nbits va (25 + 10 * k) (16 + 10 * k)
      let entry := fun (up : W64) (k : Nat) => BitVec.ofNat 64 (s.readN (at' up k) 8)
      let e1 := entry (s.reg w.die 0x100000) 3
      let e2 := entry e1 2
      let e3 := entry e2 1
      let e4 := entry e3 0
      let table := fun (e : W64) => e.getLsbD 0 = true ∧ e.getLsbD 1 = false
      let leaf := fun (e : W64) => e.getLsbD 0 = true ∧ e.getLsbD 1 = true
      let ends := fun (ea : Nat) (e : W64) (large : Bool) =>
        let may := (t.reads = true → e.getLsbD 2 = true) ∧ (t.writes = true → e.getLsbD 3 = true) ∧ (t = .fetch → e.getLsbD 4 = true)
        let lo := if t.writes = true then 10 else 8
        (¬ may → s.translate w va size t = (s, .violation))
        ∧ (may → (∃ st, s.place (leafPa e large va) = .hbm st) → (s.reg 0 0x19FFF8).getLsbD 0 = false →
            (s.reg 1 0x19FFF8).getLsbD 0 = false → e.getLsbD 12 = false →
            ∃ u : State, s.translate w va size t = (u, .ok (leafPa e large va))
              ∧ u.readN ea 8 = (if nbits e.toNat (lo + 1) lo = 3 then e.toNat else e.toNat + 2 ^ lo)
              ∧ (∀ q, q < ea ∨ ea + 8 ≤ q → u.readByte q = s.readByte q)
              ∧ u.tlbHit w.die w.units va = some (.leaf ea e large)
              ∧ u = { s.setDie w.die { s.die w.die with tlb := (u.die w.die).tlb } with mem := u.mem })
      (table e1 → table e2 → table e3 → leaf e4 → ends (at' e3 0) e4 false)
      ∧ (table e1 → table e2 → leaf e3 → bits e3 25 16 = 0 → ends (at' e2 1) e3 true)
      ∧ (e1.getLsbD 0 = false ∨ table e1 ∧ (e2.getLsbD 0 = false ∨ table e2 ∧ (e3.getLsbD 0 = false ∨ table e3 ∧ e4.getLsbD 0 = false)) →
          s.translate w va size t = (s, .absent))
      ∧ (leaf e1 ∨ table e1 ∧ (leaf e2 ∨ table e2 ∧ (leaf e3 ∧ bits e3 25 16 ≠ 0 ∨ table e3 ∧ table e4)) →
          s.translate w va size t = (s, .violation))

/-- R184 to R189, R191, R192, R200, R203: a finished operation completes into its token (a successful one alone in the machine leaves
its destination written, its token done, and nothing else changed; one skipped for a poisoned precondition, its token poisoned with
the same index); a failure writes its record in the launch's area, where NEXT is incremented, or gets index 0xFFFF; a wait ends once no
token of its mask is pending, its
lanes runnable; where a token of it is poisoned, the poison status has it, and in trap mode its lanes carry the trap, taken at the
entry of their next run; its time limit ends it with false; a monitor is read again at its home; a late arrival is made. That lanes of a
group that carry the same trap take it as one is the model's reading, log entry 43; what a trap carries whose record was dropped, its
choice, log entry 38. -/
def Obligations.TokenEvents : Prop :=
  (∀ (o : Op) (r : Result), Happens (.tokenComplete o.id) (fun s => s.op? o.id = some o ∧ o.stage = .finished r
      ∧ s.waitsAtEntry o = none) (fun s => s.completeOp o r))
  ∧ (∀ (s : State) (o : Op) (ws : List (Nat × Nat × W64)), s.between → s.ops = [o] → o.stage = .finished (.ok ws) →
      (∀ c ∈ s.ctxs, c.commitQ = [] ∧ c.saved = false) → s.lates = [] → s.badVregs = [] → (∀ l ∈ s.launches, l.dying = false) →
      (s.cluster (clusterKey o.loc)).hold = none →
      exec (.tokenComplete o.id) s = .next { s with
        ops := []
        ctxs := s.ctxs.map fun c => if c.id = o.ctx ∧ c.rdTok o.token = .pending o.id then
          (c.putResult o.dst ws).wrTok o.token .done else c })
  ∧ (∀ (c : Ctx) (lane : Nat) (mask : W32) (dst : Reg) (pc : W64),
      Happens (.tokenWaitEnd c.id lane) (fun s => s.ctx? c.id = some c ∧ c.saved = false
          ∧ (c.lane lane).st = .waiting (.waitk mask dst pc) ∧ c.toksWhere mask TokSt.isPending = [] ∧ c.poisonedIn mask = [])
        (fun s => s.updCtx c.id fun x => (x.updLanes (c.waitGroup (.waitk mask dst pc)) fun _ y => { y with st := .runnable }).putWait dst 0))
  ∧ (∀ (c : Ctx) (lane : Nat) (mask : W32) (dst : Fin 8) (dl : Nat) (pc : W64),
      let ls := c.waitGroup (.twaitk mask dst dl pc)
      let ends := fun (b : Bool) (s : State) => s.updCtx c.id fun x =>
        ls.foldl (fun x l => x.wrP dst.val l b) (x.updLanes ls fun _ y => { y with st := .runnable })
      let waits := fun (s : State) => s.ctx? c.id = some c ∧ c.saved = false ∧ (c.lane lane).st = .waiting (.twaitk mask dst dl pc)
      Happens (.tokenWaitEnd c.id lane) (fun s => waits s ∧ c.toksWhere mask TokSt.isPending = [] ∧ c.poisonedIn mask = []) (ends true)
      ∧ Happens (.twaitkTimeout c.id lane) (fun s => waits s ∧ dl ≤ s.ns ∧ c.toksWhere mask TokSt.isPending ≠ []) (ends false))
  ∧ (∀ (c : Ctx) (lane : Nat) (wide : Bool) (sp a dl : Nat) (d : Reg) (e pc x : W64) (s1 : State),
      let w := Wait.monwait wide sp a d e dl false pc
      let waits := fun (s : State) => s.ctx? c.id = some c ∧ c.saved = false ∧ (c.lane lane).st = .waiting w
      Happens (.monwaitWake c.id lane) waits (fun s => s.monStep c.id (c.waitGroup w) w)
      ∧ Happens (.monitorRecheck c.id lane) waits (fun s => s.monStep c.id (c.waitGroup w) w)
      ∧ Happens (.monwaitTimeout c.id lane) (fun s => waits s ∧ dl ≠ 0 ∧ dl ≤ s.ns ∧ s.monRead c wide sp a pc lane = (s1, .value x))
        (fun _ => s1.monReturn c.id (c.waitGroup w) d x))
  ∧ (∀ (i : Nat) (l : Late) (psn : Option Nat) (s1 : State),
      Happens (.tkarrDeferredArrival i) (fun s => s.lates[i]? = some l ∧ l.outcome = some psn ∧ l.holdPage = none
          ∧ s.arriveAt l.who ⟨0x66, l.k, l.pc⟩ l.rel none l.space l.base 1 l.bytes psn = (s1, false))
        (fun _ => { s1 with lates := s1.lates.erase l }))
  ∧ (∀ (s : State) (o : Op) (x : Nat), s.op? o.id = some o → o.stage = .waiting → o.resolved = true → o.prePoison = some x → o.cmd ≠ .rfence →
      s.advanceOp o.id = (s.finishOp o.id (.skipped x)).unqueue o.id)
  ∧ (∀ (s : State) (o : Op) (x : Nat), s.between → s.ops = [o] → o.stage = .finished (.skipped x) → s.waitsAtEntry o = none →
      (∀ c ∈ s.ctxs, c.commitQ = [] ∧ c.saved = false) → s.lates = [] → (∀ l ∈ s.launches, l.dying = false) →
      (s.cluster (clusterKey o.loc)).hold = none →
      exec (.tokenComplete o.id) s = .next { s with
        ops := []
        ctxs := s.ctxs.map fun c => if c.id = o.ctx ∧ c.rdTok o.token = .pending o.id then c.wrTok o.token (.poisoned x) else c })
  ∧ (∀ (s : State) (o : Op) (l : Launch) (cause detail lane : Nat) (addr aux : W64), s.launch? o.launch = some l →
      let out := s.outcome o (.fail cause detail lane addr aux)
      let head := s.reach o.who l.record.poison 12 .rmw
      ((∀ pa, head.2 ≠ .ok pa) → out = (head.1, some 0xFFFF))
      ∧ ∀ pa, head.2 = .ok pa →
        let s1 := head.1
        (s1.atomicPlace pa = false → out = (s1, some 0xFFFF))
        ∧ (s1.atomicPlace pa = true → s1.badRead pa 12 = true → out = (s1.countUnc pa, some 0xFFFF))
        ∧ (s1.atomicPlace pa = true → s1.badRead pa 12 = false → Memory.wf s1.mem = true →
          let next := s1.readN pa 4
          let cap := s1.readN (pa + 4) 4
          let rec' := (s1.wrN pa 4 (next + 1)).reach o.who (l.record.poison + 32 + 32 * next) 32 .write
          (cap ≤ next ∨ 65535 ≤ next → out.2 = some 0xFFFF ∧ out.1.readN pa 4 = (next + 1) % 2 ^ 32
            ∧ out.1.readN (pa + 8) 4 = min (s1.readN (pa + 8) 4 + 1) 0xFFFFFFFF
            ∧ ∀ q, (q < pa ∨ pa + 4 ≤ q) → (q < pa + 8 ∨ pa + 12 ≤ q) → out.1.readByte q = s1.readByte q)
          ∧ (next < cap → next < 65535 → (∀ rpa, rec'.2 ≠ .ok rpa) →
            out = (rec'.1.wrN (pa + 8) 4 (min (rec'.1.readN (pa + 8) 4 + 1) 0xFFFFFFFF), some 0xFFFF))
          ∧ ∀ rpa, next < cap → next < 65535 → rec'.2 = .ok rpa → Memory.wf rec'.1.mem = true →
            o.opc < 256 → o.token < 32 → detail < 256 → cause < 256 → lane < 64 → o.loc.core < 32 → o.loc.cluster < 16 → o.loc.die < 2 →
            out.2 = some next ∧ (∀ q, q < rpa ∨ rpa + 32 ≤ q → out.1.readByte q = rec'.1.readByte q)
            ∧ (let w := out.1.readN rpa 4
              nbits w 31 24 = o.opc ∧ nbits w 23 21 = o.kind.code ∧ nbits w 20 16 = o.token ∧ nbits w 15 8 = detail ∧ nbits w 7 0 = cause)
            ∧ (let w := out.1.readN (rpa + 4) 4
              nbits w 31 18 = 0 ∧ nbits w 17 13 = o.loc.core ∧ nbits w 12 9 = o.loc.cluster ∧ nbits w 8 8 = o.loc.die ∧ nbits w 7 6 = 0
              ∧ nbits w 5 0 = lane)
            ∧ out.1.readN (rpa + 8) 8 = o.pc.toNat ∧ out.1.readN (rpa + 16) 8 = addr.toNat ∧ out.1.readN (rpa + 24) 8 = aux.toNat))
  ∧ (∀ (c : Ctx) (lane : Nat) (mask : W32) (dst : Reg) (d : Fin 8) (dl : Nat) (pc : W64),
      let ps := c.poisonedIn mask
      let ls := c.waitGroup (.waitk mask dst pc)
      let ls' := c.waitGroup (.twaitk mask d dl pc)
      let ends := fun (w : Wait) (s : State) => s.ctx? c.id = some c ∧ c.saved = false ∧ (c.lane lane).st = .waiting w
        ∧ c.toksWhere mask TokSt.isPending = []
      Happens (.tokenWaitEnd c.id lane) (ends (.waitk mask dst pc)) (fun s => (s.updCtx c.id fun x =>
        (x.updLanes ls fun _ y => { y with st := .runnable }).putWait dst (maskOf ps)).poisonWait c.id ls ps pc)
      ∧ Happens (.tokenWaitEnd c.id lane) (ends (.twaitk mask d dl pc)) (fun s => (s.updCtx c.id fun x =>
        ls'.foldl (fun x l => x.wrP d.val l true) (x.updLanes ls' fun _ y => { y with st := .runnable })).poisonWait c.id ls' ps pc))
  ∧ (∀ (s : State) (c : Ctx) (ls : List Nat) (k : Nat) (ps : List Nat) (pc : W64) (idx : Nat), s.ctx? c.id = some c → c.rdTok k = .poisoned idx →
      let marks := fun (cause detail : Nat) => s.updCtx c.id fun z =>
        let seen := { z with sr := { z.sr with pstat := z.sr.pstat ||| maskOf (k :: ps) ||| 0x100000000 } }
        let trap := fun (tepc : W64) => some
          { cause := cause, detail := detail, psn := true, token := k, taddr := pc, tepc := tepc, tval := 0, trec := idx }
        if z.sr.pmode.getLsbD 0 then seen else seen.updLanes ls fun _ y => { y with deferred := trap y.pc }
      (idx = 0xFFFF → s.poisonWait c.id ls (k :: ps) pc = marks 0x0F 0)
      ∧ ∀ pa, idx ≠ 0xFFFF → s.quietRead (whoOf c) (c.sr.prbase.toNat + 32 + 32 * idx) 32 = some pa →
        s.poisonWait c.id ls (k :: ps) pc = marks (s.readN pa 1) (s.readN (pa + 1) 1))
  ∧ ∀ (s : State) (c : Ctx) (l : Nat) (rest : List Nat) (d : Deferred), s.run = none → s.ctx? c.id = some c → c.ended = false →
      c.saved = false → c.commitQ = [] → (∀ x ∈ s.launches, x.dying = false) → c.nextGroup c.fetchable = l :: rest →
      (∀ x ∈ l :: rest, (c.lane x).fell = false) → s.atBreak c (l :: rest) (c.lane l).pc = [] → (c.lane l).deferred = some d →
      s.beginRun c.id = some ((s.updCtx c.id fun z =>
          { z.updLanes (l :: rest) (fun _ y => if y.deferred = some d then { y with deferred := none } else y) with last := some l }).trapTo c.id
        { cause := d.cause, detail := d.detail, psn := d.psn, token := d.token, lanes := l :: rest, fault := l :: rest
          taddr := d.taddr, tepc := d.tepc, tval := d.tval, trec := d.trec })

/-- R73, R75, R161, R218, R270 to R287, R365 to R368, R382: ends of warps, successors, relaunched blocks, failed reductions; and the Lens: an entry is
eligible once its SPAWN's additions have been performed, a full bin forms a warp, an old or idle one is flushed, spilled
entries come back, child warps are admitted, join-waiting warps evicted and restored. A context that is saved keeps every register, token
and lane, and its image holds them as Table 17.6 lays them out; a gang is saved at run boundaries alone, all its contexts with it and no
other; a block's image has its header and its region; what is restored goes on with what it held. What a child whose entry is no longer
valid does is the model's choice, log entry 29; that a successor waits where its warp slots were taken, log entry 80; that the
header's count of warps is modulo 16, log entry 81; that what goes on is the context in the state and not its image, log entry 50. That an
exited lane has PC 0 in an image is its reading, log entry 91. -/
def Obligations.BlockAndLensEvents : Prop :=
  (∀ cid : Nat, Leaves (.warpEnd cid) (fun s => ∃ c, s.ctx? cid = some c ∧ s.canEnd c = true ∧ (∀ l < c.width, (c.lane l).jc = 0))
      (fun _ t => ∀ x, t.ctx? cid = some x → x.ended = true))
  ∧ (∀ (b : Block) (l : Launch) (e : Nat) (arg : W64), Leaves (.successorStart b.id)
      (fun s => s.block? b.id = some b ∧ s.launch? b.launch = some l ∧ b.succSlot = some (e, arg) ∧ b.killed = false
        ∧ s.blockOver b = true ∧ (s.spawnTarget (lensWho b.launch (clusterKey b.loc)) e).isSome = true
        ∧ (let held := s.ctxs.filter fun c => c.block == b.id && c.kind != .seq && s.resident b.loc c
          let n := if b.child = true then 1 else l.record.warps
          (s.coreLoad b.loc).1 - held.length + n ≤ 48
            ∧ (s.coreLoad b.loc).2 - held.foldl (fun n c => n + c.width * c.vregs * 4) 0 + n * l.record.warpBytes ≤ 524288))
      (fun _ t => ∀ c ∈ t.ctxs, c.block = b.id → c.kind ≠ .seq → c.rdS 16 = arg ∧ c.ended = false))
  ∧ (∀ (l : Launch) (g : Gang) (core gid idx base : Nat) (rest : List (Nat × Nat)),
      Happens (.blockRelaunch l.id core) (fun s => s.launch? l.id = some l ∧ l.relaunchQ = (gid, idx) :: rest ∧ s.gang? gid = some g
          ∧ g.saved = false ∧ l.dying = false ∧ (locOf core).die = g.die ∧ (locOf core).cluster = g.cluster ∧ (locOf core).core < 24
          ∧ (∀ b ∈ s.blocks, b.gang = gid → b.loc ≠ locOf core ∧ b.index ≠ idx)
          ∧ s.restorable (clusterKey (locOf core)) = false ∧ s.firstFormed (clusterKey (locOf core)) = none
          ∧ (∀ f ∈ (s.cluster (clusterKey (locOf core))).formed, f.launch ≠ l.id)
          ∧ s.energyOk (clusterKey (locOf core)) (s.weight l.record.energy * l.record.warps) 0 = true
          ∧ s.admits l g.linear idx (locOf core) = some base)
        (fun s => (s.updLaunch l.id fun x => { x with relaunchQ := rest }).startBlock l gid g.linear idx (locOf core) base true))
  ∧ (∀ (i : Nat) (r : RedFail) (b : Block), r.block ≠ 0 →
      let left := fun (s : State) => ({ s with redFails := s.redFails.filter fun x => x.block != r.block } : State)
      Happens (.reductionHomeFailure i) (fun s => s.redFails[i]? = some r ∧ s.block? r.block = some b)
        (fun s => ((left s).killUnc r.block r.pc r.lane r.addr).sweep)
      ∧ Happens (.reductionHomeFailure i) (fun s => s.redFails[i]? = some r ∧ s.block? r.block = none ∧ s.ctx? r.ctx = none)
        (fun s => (((left s).noteKill r.launch 0x0B r.pc r.lane r.loc r.addr).afterUnc r.launch r.gang r.index r.relaunched r.child).sweep))
  ∧ (∀ (i : Nat) (r : RedFail) (c : Ctx), r.block = 0 → c.kind = .seq → c.ended = false →
      Happens (.reductionHomeFailure i) (fun s => s.redFails[i]? = some r ∧ s.block? 0 = none ∧ s.ctx? r.ctx = some c)
        (fun s => (({ s with redFails := s.redFails.filter fun x => x.ctx != r.ctx } : State).killGang c 0x0B r.pc r.lane r.addr).sweep))
  ∧ (∀ (ck id : Nat), Happens (.spawnEntryEligible id)
      (fun s => (s.clusterKeys.find? fun k => (s.cluster k).spawnQ.any fun e => e.id == id && e.added && e.eligible.isNone) = some ck)
      (fun s => s.setCluster ck { s.cluster ck with spawnQ := (s.cluster ck).spawnQ.map fun e =>
        if e.id = id then { e with eligible := some (Table.get s.cyc ck 0) } else e }))
  ∧ (∀ (l : Launch) (ck e : Nat),
      Happens (.fullWarp ck l.id e) (fun s => s.launch? l.id = some l ∧ l.record.lanes ≤ (s.bin ck l.id e).length)
        (fun s => s.formWarp ck l.id e ((s.bin ck l.id e).take l.record.lanes))
      ∧ Happens (.ageFlush ck l.id e) (fun s => s.launch? l.id = some l
          ∧ ∃ x, (s.bin ck l.id e).head? = some x ∧ ∃ t, x.eligible = some t ∧ t + 256 ≤ Table.get s.cyc ck 0)
        (fun s => s.flushBin ck l.id e l.record.lanes ((s.bin ck l.id e).length + 1)))
  ∧ (∀ (s : State) (ck lid e : Nat) (x : Spawned), Table.wf Cluster.reset s.clusters = true → x ∈ s.bin ck lid e →
      let t := s.formWarp ck lid e [x]
      (t.cluster ck).formed = (s.cluster ck).formed ++ [{ launch := lid, entry := e, members := [x] }]
      ∧ ∀ y ∈ (t.cluster ck).spawnQ, y.id ≠ x.id)
  ∧ (∀ ck : Nat, Happens (.idleFlush ck) (fun s => s.admissible ck = false ∧ (∃ e ∈ (s.cluster ck).spawnQ, e.eligible.isSome = true)
        ∧ ∀ c ∈ s.ctxs, c.kind ≠ .seq → clusterKey c.loc = ck → c.saved = false → c.ended = false →
            ∀ l < c.width, (c.lane l).st ≠ .runnable ∨ (c.lane l).halted = true)
      (fun s => (s.idleFlush ck).getD s))
  ∧ (∀ (l : Launch) (ck : Nat) (bs : List Byte) (s1 : State), Happens (.spillReturn ck l.id)
      (fun s => s.launch? l.id = some l ∧ l.spilled ck ≠ 0 ∧ s.heldEntries l.id ck < l.record.quota ∧ s.heldAll ck < 4096
        ∧ s.rdVa (lensWho l.id ck) (l.spillPart ck + 64 + 32 * (Table.get l.spillHead ck 0 % l.record.spillN)) 32 = (s1, some bs))
      (fun s =>
        let head := Table.get l.spillHead ck 0
        let l1 := { l with spillHead := Table.set l.spillHead ck ((head + 1) % 2 ^ 32) 0, voided := l.voided.filter fun p => p != (ck, head) }
        let e := spilledEntry bs s1.nextId l.id ck (!s.spawnPending l.id ck head) head
        let s2 : State := { s1.setCluster ck { s1.cluster ck with
          spawnQ := if (ck, head) ∈ l.voided then (s1.cluster ck).spawnQ else (s1.cluster ck).spawnQ ++ [e] } with nextId := s1.nextId + 1 }
        (s2.updLaunch l.id fun _ => l1).writeSpillHeader l1 ck (l.spilled ck)))
  ∧ (∀ (l : Launch) (f : Formed) (rest : List Formed) (ck core : Nat), Happens (.childWarpAdmit ck core)
      (fun s => clusterKey (locOf core) = ck ∧ (locOf core).core < 24 ∧ (s.cluster ck).formed = f :: rest ∧ s.launch? f.launch = some l
        ∧ s.childFits l (locOf core) = true ∧ s.restorable ck = false)
      (fun s => s.startChild l ck f (locOf core)))
  ∧ (∀ (c : Ctx) (l : Launch) (ck va : Nat), Happens (.eviction ck l.id)
      (fun s => s.launch? l.id = some l ∧ s.ctxs = [c] ∧ c.launch = l.id ∧ clusterKey c.loc = ck ∧ s.joinWaiting c = true
        ∧ c.waitSince ≠ 0 ∧ c.waitSince + 4096 ≤ Table.get s.cyc ck 0 + 1
        ∧ Table.get (s.cluster ck).evictSince l.id 0 ≠ 0 ∧ Table.get (s.cluster ck).evictSince l.id 0 + 4096 ≤ Table.get s.cyc ck 0 + 1
        ∧ s.childrenStuck l ck = true ∧ s.contextSlot l ck = some va ∧ ∀ b ∈ s.blocks, b.slotCtx = none)
      (fun s => ((s.saveCtx c (true, va)).charge ck 0 c.cost).updBlock c.block fun b => { b with cost := b.cost - c.cost }))
  ∧ (∀ (c : Ctx) (core : Nat), Leaves (.evictedWarpRestore c.id core) (fun s => s.ctx? c.id = some c ∧ s.canRestore c (locOf core) = true)
      (fun _ t => ∀ x, t.ctx? c.id = some x → x.saved = false ∧ x.image = none))
  ∧ (∀ (s : State) (c : Ctx) (pa : Nat), s.ctx? c.id = some c → c.width ≤ 64 → c.vregs ≤ 160 → Memory.wf s.mem = true →
      let t := s.saveCtx c (false, pa)
      t.ctx? c.id = some { c with saved := true, image := some (false, pa), waitSince := 0 }
      ∧ (∀ x ∈ s.ctxs, x.id ≠ c.id → x ∈ t.ctxs)
      ∧ t.readN pa 1 = c.kind.imageCode ∧ t.readN (pa + 1) 1 = c.width ∧ t.readN (pa + 2) 1 = c.vregs ∧ t.readN (pa + 3) 1 = 1
      ∧ (∀ l < 64, t.readN (pa + 0x20 + 8 * l) 8 = if (c.lane l).st = .exited then 0 else (c.lane l).pc.toNat)
      ∧ (∀ n < 64, t.readN (pa + 0x260 + 8 * n) 8 = (c.rdS n).toNat) ∧ (∀ n < 8, t.readN (pa + 0x498 + 8 * n) 8 = (c.rdM n).toNat)
      ∧ (∀ k < 32, t.readN (pa + 0x4D8 + 4 * k) 2 = (c.rdTok k).code)
      ∧ (∀ n < c.vregs, ∀ l < c.width, t.readN (pa + 0x1000 + 4 * (n * c.width + l)) 4 = (c.rdV n l).toNat)
      ∧ ∀ q, q < pa ∨ pa + s.savedSize c ≤ q → t.readByte q = s.readByte q)
  ∧ (∀ (s : State) (g : Gang), s.savable g = true → ∀ c ∈ s.ctxs, c.gang = g.id → c.ended = false →
      c.commitQ = [] ∧ ∀ x ∈ c.lanes, x.deferred = none)
  ∧ (∀ (s : State) (g : Gang) (at' : Nat) (c : Ctx), c ∈ s.ctxs → (s.ctxs.map fun x => x.id).Nodup →
      let mine := (c.kind = .seq ∧ c.gang = g.id) ∨ (c.kind ≠ .seq ∧ ∃ b ∈ s.gangBlocks g, b.id = c.block)
      ∃ d, (s.saveGang g at').ctx? c.id = some d ∧ d.v = c.v ∧ d.s = c.s ∧ d.p = c.p ∧ d.m = c.m ∧ d.tok = c.tok ∧ d.sr = c.sr
        ∧ d.lanes = c.lanes ∧ (¬ mine → d = c)
        ∧ (mine → c.kind ≠ .seq → c.saved = false → c.ended = false → d.saved = true ∧ ∃ pa, d.image = some (false, pa)))
  ∧ (∀ (s : State) (b : Block) (at' : Nat), b.holds = false → at' + s.blockImage b ≤ b.start ∨ b.start + b.size ≤ at' →
      Memory.wf s.mem = true → (∀ c ∈ s.ctxs, c.width ≤ 64 ∧ c.vregs ≤ 160) → (s.ctxs.map fun x => x.id).Nodup →
      let t := s.saveBlock b at'
      let cs := s.savedCtxs b
      let slot := if cs.any (fun c => c.kind == .slot) = true then 1 else 0
      t.readN at' 8 = (cs.length - slot) % 16 + 16 * slot
      ∧ (∀ i < b.size, t.readByte (at' + 4096 + i) = s.readByte (b.start + i))
      ∧ ∀ q, q < at' ∨ at' + s.blockImage b ≤ q → t.readByte q = s.readByte q)
  ∧ ∀ (s : State) (l : Launch) (g : Gang) (b : Block) (at' : Nat) (c : Ctx), c ∈ s.ctxs → (s.ctxs.map fun x => x.id).Nodup →
      (s.blocks.map fun x => x.id).Nodup → b ∈ s.gangBlocks g → b.saved = some at' → b.id = c.block → c.gang = g.id → c.kind ≠ .seq →
      c.preempted = true → c.ended = false → (∀ x ∈ s.ctxs, x.gang = g.id → x.monitors = []) → (∀ x ∈ c.lanes, x.fetchHold = none) →
      ∃ d, (s.loadGang l g).ctx? c.id = some d ∧ d.saved = false ∧ d.image = none ∧ d.v = c.v ∧ d.s = c.s ∧ d.p = c.p ∧ d.m = c.m
        ∧ d.tok = c.tok ∧ d.sr = c.sr ∧ d.lanes = c.lanes

/-- R226, R249, R257, R292, R301, R331, R345: each engine starts the command that is next in its order once that command's
preconditions are done, a matrix unit on each core of the command's mask; the grammar engine's hold ends at its limit; the
first waiting claim of a ring that has room is granted; a VENC or a CLOSE of a handle that was not open fails (R348). What ACZERO leaves on a core: zeros in the accumulator and its shadow, its mirrored bit set
(R237). What an MMA leaves on a core, in two acts, where its checks pass (R230, R235): each element of the accumulator with its groups
added in increasing K, each exactly and with one rounding, and nothing else of memory changed. What ACLOAD leaves (R240): the tile
converted to FP32, in the accumulator and its shadow, the mirrored bit set. What ACDRAIN leaves (R233, R238, R239): the accumulator's
elements converted, or added with one rounding, at the places that the tile's addresses gave, and nothing else of memory changed; where the
shadow of a mirrored accumulator differs it fails and writes nothing. What a CPY outside rings moves (R294, R295, R297): where its shape
keeps the rules and its bytes can be reached, each byte of the source to its place in the destination and nothing else, else it fails with
DETAIL 0x60 and writes nothing. What a granted claim does (R301): the slot word and the descriptor with one counter advanced. What the
rules of a grammar give (R254): every rule's sums in the rule-value file; and a GMV or GMVA (R260): the value of each row's rule in y or
added to it. What a VENC gives (R346): its result word, and the session's counters. When within its start an engine performs its accesses is the model's
choice, log entries 18 and 24. -/
def Obligations.EngineEvents : Prop :=
  (∀ (o : Op) (e : CCmd), e.ring? = none → o.cmd = .copy e →
      Happens (.copyEngineStart o.id) (fun s => s.op? o.id = some o ∧ s.ops = [o] ∧ o.copyReady = true) (fun s => s.performCopyCmd o e))
  ∧ (∀ (o : Op) (mask seq n : Nat) (m : MCmd), o.cmd = .matrix mask seq m → n < 24 →
      Happens (.matrixCommandPerform ⟨o.id, n⟩) (fun s => s.op? o.id = some o ∧ o.stage = .waiting ∧ mask.testBit n = true
          ∧ o.resolved = true ∧ o.prePoison = none ∧ s.inTurn o = true ∧ s.matrixTurn o n = true)
        (fun s => s.performMatrix o seq m n)
      ∧ ∀ (ws : List MWork) (bad : Option (Nat × Nat × Nat × W64)) (w : MWork),
        Happens (.matrixCommandPerform ⟨o.id, n⟩) (fun s => s.op? o.id = some o ∧ o.stage = .cores ws bad ∧ w ∈ ws ∧ w.core = n
            ∧ w.page = none ∧ o.resolved = true ∧ o.prePoison = none ∧ s.inTurn o = true ∧ s.matrixTurn o n = true)
          (fun s => s.performMatrix o seq m n))
  ∧ (∀ o : Op, Happens (.grammarCommandStart o.id) (fun s => s.op? o.id = some o ∧ s.grammarReady o = true
        ∧ s.grammarBusy (clusterKey o.loc) = false
        ∧ ∀ x ∈ s.ops, clusterKey x.loc = clusterKey o.loc → x.id < o.id → s.grammarReady x = false)
      (fun s => (s.keepRead o.loc false).performGrammar o))
  ∧ (∀ (k t : Nat) (h : GHold), k < 16 → Happens (.grammarHoldBreak k)
      (fun s => (s.cluster k).hold = some h ∧ h.since = some t ∧ t + 65536 ≤ Table.get s.cyc k 0)
      (fun s => s.setCluster k { s.cluster k with hold := none, broken := (s.cluster k).broken ++ [h.ctx] }))
  ∧ (∀ (o : Op) (cons : Bool) (sp pa : Nat) (base slot : W64) (g : Ring), o.cmd = .racq cons sp base →
      Happens (.ringClaimGrant o.id) (fun s => s.ops = [o] ∧ o.stage = .armed pa (if cons then 1 else 0)
          ∧ (s.cluster (clusterKey o.loc)).claims = [o.id] ∧ s.badRead pa 64 = false
          ∧ s.ringMalformed o.who (s.ring pa) = false ∧ s.claim (s.ring pa) cons = some (g, slot)
          ∧ s.ringPermits (o.who.as 2) pa 64 true true = true ∧ (cons = true → s.badRead (g.countPa (bits slot 15 0)) 4 = false
            ∧ s.ringPermits (o.who.as 2) (g.countPa (bits slot 15 0)) 4 true false = true))
        (fun s => ((s.setCluster (clusterKey o.loc) { s.cluster (clusterKey o.loc) with claims := [] }).wr pa g.bytes).finishOp o.id
          (.ok [(0, 0, slot)])))
  ∧ (∀ o : Op, Happens (.encoderCommandStart o.id) (fun s => s.op? o.id = some o ∧ o.isEncoder = true ∧ o.stage = .waiting
        ∧ o.resolved = true ∧ o.prePoison = none ∧ s.inTurn o = true ∧ ∀ x ∈ s.sessions, o.id ∉ x.queue)
      (fun s => let t := s.performEncoder o; if (t.op? o.id).any (fun x => x.over) = true then t.unqueue o.id else t))
  ∧ (∀ (s : State) (o : Op), (∀ x ∈ s.sessions, o.id ∉ x.queue) →
      ((∃ a, o.cmd = .vcfg true a) ∨ ∃ key bsp h y buf cap bar, o.cmd = .venc key false bsp h y buf cap bar) →
      s.performEncoder o = s.finishOp o.id (.fail 5 0x82 0 0 0))
  ∧ (∀ (o : Op) (rest : List Op), Happens (.collectiveEngineStart o.loc.die) (fun s => s.ops = o :: rest ∧ o.loc.die ≤ 1
        ∧ o.isColl = true ∧ o.stage = .waiting ∧ o.resolved = true ∧ o.prePoison = none ∧ s.inTurn o = true ∧ s.fenceFree o = true)
      (fun s => s.performColl o))
  ∧ (∀ (s : State) (o : Op) (seq c n w : Nat) (b : Block), s.matrixBlock o.gang n = some b → c < 8 → w < 1024 →
      Memory.wf s.mem = true → Table.wf Core.reset s.cores = true → (s.core b.loc).mirrored.length = 8 →
      Table.wf 0 (s.core b.loc).shadow = true →
      let r := s.matrixOn o seq (.aczero c) (MWork.fresh n)
      let t := r.1
      r.2 = .done ∧ t.readN (accPa b.loc c + 4 * w) 4 = 0
        ∧ Table.get (t.core b.loc).shadow (1024 * c + w) 0 = 0 ∧ nth (t.core b.loc).mirrored c false = true)
  ∧ (∀ (s : State) (o : Op) (seq c n y at' bt i j : Nat) (keep : Bool) (bw : W64) (b : Block),
      s.matrixBlock o.gang n = some b → (s.core b.loc).latch = none → s.badGranules = [] → s.badWords = [] → Memory.wf s.mem = true →
      c < 8 → y < 16 → i < 32 → j < 32 → at' ≤ 4 → mFamily at' = mFamily bt →
      bits bw 62 51 = 0 → bits bw 31 19 = 0 → bits bw 18 0 % 64 = 0 → bits bw 18 0 + 2048 ≤ b.size →
      (bw.getLsbD 63 = true → bits bw 50 32 % 64 = 0 ∧ bits bw 50 32 + 64 ≤ b.size) →
      ∃ w1, s.matrixOn o seq (.mma keep false at' bt 1 c y bw 0) (MWork.fresh n) = (s, .more w1) ∧
      (let r := s.matrixOn o seq (.mma keep false at' bt 1 c y bw 0) w1
      let k := if at' ≤ 1 then 32 else 64
      let g := if at' ≤ 1 then 8 else if at' ≤ 3 then 16 else 32
      let e := if at' ≤ 1 then 2 else 1
      let home := mapBase b.loc.die b.loc.cluster b.loc.core + b.base
      let product := fun q => mProduct at' bt (s.readN (tilePa b.loc y + 64 * i + e * q) e) (s.readN (home + bits bw 18 0 + 64 * j + e * q) e)
      let scaleA := fun q => s.readN (scalePa b.loc y + 2 * i + q / 32) 1
      let scaleB := fun q => if bw.getLsbD 63 = true then s.readN (home + bits bw 50 32 + 2 * j + q / 32) 1 else 127
      let group := fun (acc x : Nat) => fenc 0 0 (fsum [fdec 0 acc,
        ((fsum ((List.range g).map fun q => product (g * x + q)) false).scaleE8 (scaleA (g * x))).scaleE8 (scaleB (g * x))] false)
      let cell := accPa b.loc c + 4 * (32 * i + j)
      r.2 = .done ∧ r.1.readN cell 4 = (List.range (k / g)).foldl group (s.readN cell 4)
        ∧ ∀ q, q < accPa b.loc c ∨ accPa b.loc c + 4096 ≤ q → r.1.readByte q = s.readByte q))
  ∧ (∀ (s s1 : State) (o : Op) (seq c n it sp w : Nat) (base pitch cstr : W64) (b : Block) (pas : List Nat),
      s.matrixBlock o.gang n = some b → c < 8 → w < 1024 → it ≤ 2 → tileAligned (32 * oBytes it) base pitch cstr = true →
      s.tileCheck (o.mWho b sp) sp .read false (tileParts (32 * oBytes it) base pitch cstr b.loc.core) none = (s1, .ok pas) →
      (∀ pa ∈ pas, s1.badRead pa 32 = false) → Memory.wf s1.mem = true → Table.wf Core.reset s1.cores = true →
      Table.wf 0 (s1.core b.loc).shadow = true → (s1.core b.loc).mirrored.length = 8 →
      let r := s.matrixOn o seq (.acload it sp c base pitch cstr) (MWork.fresh n)
      let e := oBytes it
      let x := fcvt 0 0 (oType it) (s1.readN (nth pas (w / (32 / e)) 0 + e * (w % (32 / e))) e)
      r.2 = .done ∧ r.1.readN (accPa b.loc c + 4 * w) 4 = x ∧ Table.get (r.1.core b.loc).shadow (1024 * c + w) 0 = BitVec.ofNat 32 x
        ∧ nth (r.1.core b.loc).mirrored c false = true
        ∧ ∀ q, q < accPa b.loc c ∨ accPa b.loc c + 4096 ≤ q → r.1.readByte q = s1.readByte q)
  ∧ (∀ (s s1 : State) (o : Op) (seq c n ot sp rm : Nat) (add : Bool) (base pitch cstr : W64) (b : Block) (pas : List Nat) (l : Launch),
      s.matrixBlock o.gang n = some b → c < 8 → ot ≤ 5 → tileAligned (32 * oBytes ot) base pitch cstr = true →
      s.badRead (accPa b.loc c) 4096 = false →
      let r := s.matrixOn o seq (.acdrain add rm ot sp c base pitch cstr) (MWork.fresh n)
      let e := oBytes ot
      let differs := nth (s.core b.loc).mirrored c true = true ∧ s.accWords b.loc c ≠ (s.core b.loc).shadowWords c
      (differs → r.2 = .fail (6, 0, 0) ∧ r.1.mem = s.mem)
      ∧ (¬ differs →
          s.tileCheck (o.mWho b sp) sp (if add then .rmw else .write) add (tileParts (32 * e) base pitch cstr b.loc.core) none = (s1, .ok pas) →
          (∀ pa ∈ pas, pa % 32 = 0 ∧ (add = true → s1.badRead pa 32 = false)) → pas.Nodup → Memory.wf s1.mem = true →
          s1.launch? o.launch = some l → l.record.ts = false →
          r.2 = .done
          ∧ (∀ w < 1024,
              let pa := nth pas (w / (32 / e)) 0 + e * (w % (32 / e))
              let x := s1.readN (accPa b.loc c + 4 * w) 4
              r.1.readN pa e = (if add = true then fenc (oType ot) rm (FVal.add rm (fdec (oType ot) (s1.readN pa e)) (fdec 0 x))
                else fcvt rm (oType ot) 0 x) % 2 ^ (8 * e))
          ∧ ∀ q, (∀ pa ∈ pas, q < pa ∨ pa + 32 ≤ q) → r.1.readByte q = s1.readByte q))
  ∧ (∀ (s : State) (o : Op) (dsp ssp dst src rb n planes sp dp sps dps : Nat) (f g : Nat → Nat),
      let cmd := CCmd.cpy false dsp ssp dst src rb n planes sp dp sps dps false
      let inside := fun (z y x : Nat) => z < planes ∧ y < n ∧ x < rb
      let out := fun (z y x : Nat) => src + (z * sps + y * sp) + x
      let into := fun (z y x : Nat) => dst + (z * dps + y * dp) + x
      let shape := (2 ≤ n → rb ≤ dp) ∧ (2 ≤ planes → n * dp ≤ dps)
        ∧ (dsp = ssp → planes * n * rb = 0 ∨ src + (planes - 1) * sps + (n - 1) * sp + rb ≤ dst
          ∨ dst + (planes - 1) * dps + (n - 1) * dp + rb ≤ src)
      let same := fun (u : State) => u = { s with mem := u.mem, badGranules := u.badGranules, badWords := u.badWords, ops := u.ops }
      (¬ shape → s.performCopyCmd o cmd = s.finishOp o.id (.fail 2 0x60 0 0 0))
      ∧ (shape → Memory.wf s.mem = true →
        (∀ z y x, inside z y x → out z y x < 2 ^ 64 ∧ into z y x < 2 ^ 64 ∧ s.badRead (f (out z y x)) 1 = false
          ∧ (ssp = 3 → s.wordWindow (f (out z y x)) = false) ∧ (dsp = 3 → s.wordWindow (g (into z y x)) = false)
          ∧ ∀ u, same u → u.tryAccess (o.who.as 2) ssp 1 (BitVec.ofNat 64 (out z y x)) .read false = (u, .ok (f (out z y x)))
            ∧ u.tryAccess (o.who.as 2) dsp 1 (BitVec.ofNat 64 (into z y x)) .write false = (u, .ok (g (into z y x)))) →
        (∀ z y x, inside z y (x + 1) →
          ((out z y x + 1) % 32 ≠ 0 → f (out z y x + 1) = f (out z y x) + 1)
          ∧ ((into z y x + 1) % 32 ≠ 0 → g (into z y x + 1) = g (into z y x) + 1)) →
        (∀ z y x z' y' x', inside z y x → inside z' y' x' → g (into z y x) ≠ f (out z' y' x')
          ∧ (g (into z y x) = g (into z' y' x') → z = z' ∧ y = y' ∧ x = x')) →
        ∃ u, s.performCopyCmd o cmd = u.finishOp o.id (.ok []) ∧ same u
          ∧ (∀ z y x, inside z y x → u.readByte (g (into z y x)) = s.readByte (f (out z y x)))
          ∧ ∀ q, (∀ z y x, inside z y x → q ≠ g (into z y x)) → u.readByte q = s.readByte q))
  ∧ (∀ (s : State) (g : Ring) (cons : Bool), g.pclaim < 2 ^ 16 → g.cclaim < 2 ^ 16 → g.slotBytes < 2 ^ 24 → 1 ≤ g.nslots → g.nslots ≤ 256 →
      let q := if cons = true then g.cclaim else g.pclaim
      let room := if cons = true then g.cclaim ≠ g.ppub else (g.pclaim + 2 ^ 16 - g.cfree % 2 ^ 16) % 2 ^ 16 < g.nslots
      let word := s.readN (g.countPa (q % g.nslots)) 4
      (¬ room → s.claim g cons = none)
      ∧ (room → ∃ slot, s.claim g cons = some (if cons = true then { g with cclaim := (q + 1) % 2 ^ 16 } else { g with pclaim := (q + 1) % 2 ^ 16 }, slot)
          ∧ bits slot 63 48 = q ∧ bits slot 47 41 = 0 ∧ bits slot 40 40 = (if cons = true then word / 2 ^ 31 else 0)
          ∧ bits slot 39 16 = (if cons = true then word % 2 ^ 24 else g.slotBytes) ∧ bits slot 15 0 = q % g.nslots)
      ∧ (Memory.wf s.mem = true → -2 ^ 31 ≤ g.slotBase → g.slotBase < 2 ^ 31 → g.ppub < 2 ^ 16 → g.cfree < 2 ^ 16 → g.prec < 2 ^ 16 →
          g.rmask < 2 ^ 256 → g.rsv = false →
          (s.wr g.pa g.bytes).ring g.pa = g ∧ ∀ q, q < g.pa ∨ g.pa + 64 ≤ q → (s.wr g.pa g.bytes).readByte q = s.readByte q))
  ∧ (let plus := fun (x : Nat) => if x = 0x80000000 then 0 else x
    let sum := fun (a t : Nat) => plus (fenc 0 0 (fsum [fdec 0 a, fdec 0 t] false))
    (∀ (s : State) (w : Who) (l : Loc) (h : GHead) (bw : Nat) (x : Nat → Nat → Nat) (pc : W64) (rs : List (Nat × List Nat)) (f : Nat → Nat),
      let words := rs.flatMap fun r => (r.2.length + 2 ^ 16 * r.1) :: r.2
      let same := fun (u : State) => u = { s with
        mem := u.mem, badGranules := u.badGranules, badWords := u.badWords, ops := u.ops, clusters := u.clusters }
      let term := fun (it b : Nat) => plus (fenc 0 0
        ((fdec (match h.vt with | 0 => 2 | 1 => 3 | 2 => 4 | _ => 5) (nbits it 15 0)).mul (fdec 0 (x (nbits it 30 16) b))))
      h.nrules = rs.length → h.ruleBytes = 4 * words.length → h.nrules * bw ≤ 131072 → (s.cluster (clusterKey l)).gkept = [] →
      s.badGranules = [] → s.badWords = [] → Memory.wf s.mem = true → Table.wf Cluster.reset s.clusters = true →
      (∀ i < words.length, h.rules + 4 * i < 2 ^ 64 ∧ s.readN (f i) 4 = nth words i 0 ∧ (f i + 4 ≤ rvPa l 0 ∨ rvPa l 131072 ≤ f i)
        ∧ ∀ u, same u → u.tryAccess w 0 4 (BitVec.ofNat 64 (h.rules + 4 * i)) .read false = (u, .ok (f i))) →
      (∀ i r, rs[i]? = some r → 1 ≤ r.2.length ∧ r.2.length ≤ 4096 ∧ 1 ≤ r.1 ∧ r.1 ≤ 64
        ∧ ∀ it ∈ r.2, it < 2 ^ 32 ∧ (it.testBit 31 = false → nbits it 30 16 < h.ncols)
          ∧ (it.testBit 31 = true → nbits it 30 0 < i ∧ ∀ q, rs[nbits it 30 0]? = some q → q.1 + 1 ≤ r.1)) →
      ∃ t, Eng.rules w l h bw x pc 0 h.nrules h.rules [] s = (.ok (rs.map Prod.fst), t) ∧ same t
        ∧ (∀ q, q < rvPa l 0 ∨ rvPa l (h.nrules * bw) ≤ q → t.readByte q = s.readByte q)
        ∧ ∀ r d its b, rs[r]? = some (d, its) → b < bw →
          let rv := fun (k : Nat) => t.readN (rvPa l (k * bw + b)) 4
          let terms := its.map fun it => if it.testBit 31 = true then rv (nbits it 30 0) else term it b % 2 ^ 32
          rv r = (terms.tail.foldl sum (terms.headD 0)) % 2 ^ 32)
    ∧ ∀ (s s1 s2 s3 s4 s5 s6 s7 : State) (w : Who) (l : Loc) (add dglb : Bool) (bw xsp ysp dsc x y dpa : Nat) (pc : W64) (bs : List Byte)
        (pas ys : List (Nat × Nat)) (xs ds rows : List Nat),
      let h := gHead bs 48
      let at' := fun (i b : Nat) => (nth ys (i * bw + b) (0, 0)).2
      Eng.gDesc w dglb dsc .read s = (.ok dpa, s1) → Eng.block l dpa dsc 16 pc s1 = (.ok bs, s2) →
      leNat ((bs.drop 0x30).take 4) = 1 → h.bad = none → h.nrules * bw ≤ 131072 → x % 4 = 0 → y % 4 = 0 →
      (s2.cluster (clusterKey l)).gkept = [] → Eng.xRange w xsp x (h.ncols * bw) s2 = (.ok pas, s3) →
      Eng.yRange w ysp add y (h.nrows * bw) s3 = (.ok ys, s4) →
      Eng.collect pas (fun q => Eng.once l (Eng.get q.2 4 q.1 0 pc)) s4 = (.ok xs, s5) →
      Eng.rules w l h bw (fun c b => nth xs (c * bw + b) 0) pc 0 h.nrules h.rules [] s5 = (.ok ds, s6) →
      Eng.rowTable w l h pc s6 = (.ok rows, s7) → Memory.wf s7.mem = true → s7.badGranules = [] → s7.badWords = [] →
      (∀ e ∈ rows, e.testBit 31 = true ∨ nbits e 30 0 < h.nrules) →
      (∀ i b, i < rows.length → b < bw → (at' i b + 4 ≤ rvPa l 0 ∨ rvPa l 131072 ≤ at' i b)
        ∧ ∀ j c, j < rows.length → c < bw → i ≠ j ∨ b ≠ c → at' i b + 4 ≤ at' j c ∨ at' j c + 4 ≤ at' i b) →
      ∃ t, Eng.gmv w l add dglb bw xsp ysp dsc x y pc s = (.ok h.nrules, t)
        ∧ (∀ i b, i < rows.length → b < bw →
          let e := nth rows i 0
          let rv := s7.readN (rvPa l (nbits e 30 0 * bw + b)) 4
          let old := s7.readN (at' i b) 4
          t.readN (at' i b) 4 = if e.testBit 31 = true then (if add = true then old else 0)
            else if add = true then sum old rv % 2 ^ 32 else rv)
        ∧ ∀ q, (∀ i b, i < rows.length → b < bw → q < at' i b ∨ at' i b + 4 ≤ q) → t.readByte q = s7.readByte q)
  ∧ ∀ (s s1 : State) (o : Op) (w : Who) (x : Session) (key : Bool) (y buf cap : Nat) (f : Coded), x.coded = none →
      Eng.codeFrame o w x key y s = (.ok f, s1) →
      let n := f.stream.length
      (f.key = true ↔ key = true ∨ x.frames = 0 ∨ x.gop ≤ x.sinceKey ∨ x.dropped = true)
      ∧ (cap < n → Eng.encode o w x key y buf cap s
          = (.error (.fail 5 0x83 0 0), s1.updSession x.handle fun z => { z with dropped := true }))
      ∧ (n ≤ cap → Eng.encode o w x key y buf cap s =
          match Eng.sendFrame w x.handle buf f (s1.updSession x.handle fun z => { z with coded := some f }) with
          | (.error stop, s2) => (.error stop, s2)
          | (.ok _, s2) => (.ok (n + 2 ^ 32 * bitOf f.key + 2 ^ 40 * f.qp), s2.updSession x.handle fun z => { z with
              frames := z.frames + 1, bytes := z.bytes + BitVec.ofNat 64 n, sinceKey := if f.key = true then 1 else z.sinceKey + 1
              dropped := false, sizes := z.sizes ++ [n], coded := none }))

/-- R317 to R332, R403: a peer's request is performed and answered, none on a dead connection; the acknowledgement of a command
to one target ends it; a staged multicast payload is committed; retransmissions are counted; a connection without progress
for 1,000,000 ns is dead, its command fails with DETAIL 0x75 and CONNDEAD counts; CONNRESET, if the access table admits it,
makes a dead one none; a
collective sends, receives and times out; a module of the die link goes out of service. How a peer's
answers come in and go out, and that CONNRESET's write is admitted where either the table of master 18 or that of master 21 admits it,
are the model's choices, log entries 22 and 17. -/
def Obligations.FabricEvents : Prop :=
  (∀ (port : Nat) (p : Packet) (s1 : State),
      let here := fun (s : State) (e : Option (Nat × Nat)) => port < 16 ∧ (s.cap 3).testBit port = true ∧ p.peer < 1024
        ∧ s.connect (port / 8) p.peer = (s1, e)
      Happens (.fabricPacketArrival port p) (fun s => here s none) (fun _ =>
        let r := s1.performRequest (port / 8) port p.peer p.req
        { r.1 with answers := r.1.answers ++ replyWords r.2 })
      ∧ ∀ c d, Happens (.fabricPacketArrival port p) (fun s => here s (some (c, d)))
          (fun _ => { s1 with answers := s1.answers ++ replyWords (.fail c d 0 0) }))
  ∧ (∀ (o : Op) (c : FCmd) (peer : Nat) (q : Request) (r : Reply), (∀ op a x, c ≠ .coll op a x) → (∀ a b x y z w m, c ≠ .rstm a b x y z w m) →
      o.cmd = .fabric c →
      Happens (.fabricAck o.id r) (fun s => s.op? o.id = some o ∧ o.stage = .sent ∧ peer ≠ s.podNumber ∧ replyFits r q = true
          ∧ (s.outbox.find? fun e => e.1 == o.id) = some (o.id, peer, q))
        (fun s => (({ s with outbox := s.outbox.filter fun e => e.1 != o.id } : State).progress o.loc.die peer).endFabric o c r))
  ∧ (∀ (i : Nat) (x : Staged), Happens (.rstmCommitMessage i) (fun s => (s.die 0).staged[i]? = some x)
      (fun s =>
        let r := (s.setDie 0 { s.die 0 with staged := (s.die 0).staged.erase x }).performStaged x
        { r.1 with answers := r.1.answers ++ replyWords r.2 }))
  ∧ (∀ (die peer : Nat) (c : Conn), die ≤ 1 → c.dead = false →
      Happens (.fabricRetransmit die peer) (fun s => s.conn? die peer = some c ∧ s.outstanding die peer = true ∧ peer ≠ s.podNumber)
        (fun s => s.setDie die { s.die die with
          conns := Table.set (s.die die).conns peer { c with retx := min (c.retx + 1) 0xFFFFFFFF } Conn.absent })
      ∧ ∀ (o : Op) (q : Request) (f : FCmd), o.loc.die = die → o.cmd = .fabric f → (∀ op a x, f ≠ .coll op a x) →
          (∀ a b x y z w m, f ≠ .rstm a b x y z w m) →
          Happens (.connectionDead die peer) (fun s => s.conn? die peer = some c ∧ peer ≠ s.podNumber ∧ c.since + 1000000 ≤ s.ns
              ∧ s.ops = [o] ∧ s.outbox = [(o.id, peer, q)])
            (fun s => ({ ((s.setDie die { s.die die with
                conns := Table.set (s.die die).conns peer { c with dead := true } Conn.absent }).bumpReg die 0x1C0028) with outbox := [] } : State).finishOp
              o.id (.fail 0x0C 0x75 0 0 0)))
  ∧ (∀ die peer : Nat, die ≤ 1 →
      Firmware (.connreset die peer) die 0x1C0020 (fun s => ∃ c, s.conn? die peer = some c ∧ c.dead = true)
        (fun s => s.setDie die { s.die die with conns := (s.die die).conns.filter fun c => c.1 != peer })
      ∧ Happens (.connreset die peer) (fun s => ∀ c, s.conn? die peer = some c → c.dead = false) (fun s => s))
  ∧ (∀ (die n : Nat) (o : Op) (c : Coll) (s1 : State), die ≤ 1 → n < 2 * c.steps →
      let now := fun (s : State) => s.collRunning die = some (o, c, n)
      Happens (.collSend die) (fun s => now s ∧ n % 2 = 0 ∧ Eng.collSend o c (n / 2) s = (.ok true, s1))
        (fun _ => (s1.updOp o.id fun x => { x with stage := .running (n + 1) }).collSettle o.id)
      ∧ Happens (.collReceive die) (fun s => now s ∧ n % 2 = 1 ∧ Eng.collReceive o c (n / 2) s = (.ok true, s1))
        (fun s => (s1.updOp o.id fun x => { x with stage := .running (n + 1), time := s.ns }).collSettle o.id)
      ∧ Happens (.collTimeout die) (fun s => now s ∧ o.time + 1000 * (if c.timeout = 0 then 1000 else c.timeout) < s.ns)
        (fun s => s.collFail o 0x0C 0x78 0 (n / 2)))
  ∧ ∀ die m : Nat, die ≤ 1 → m < 48 → Happens (.dieLinkModuleFail die m) (fun s => (s.reg die 0x1E0018).getLsbD m = false)
      (fun s => s.setReg die 0x1E0018 (s.reg die 0x1E0018 ||| BitVec.ofNat 64 (2 ^ m)))

/-- R377 to R393: the queues, the copy of a record that is not refused, an evaluation (of a machine with nothing to place it
changes nothing, and of one with one launch whose one gang fits it starts that gang), where a gang fits (R7 to R9: distinct cores of one
cluster, each with the warp slots, the registers and the scratchpad that its block takes, the files free where it has a sequencer), what
its start leaves (R10, R384: its blocks, its contexts with their registers, the cost on its island), completion and the chimneys, cancels and keys; the first two words of a completion record. A
write of the Hearth that fails is dropped, and firmware writes where either the table of master 18 or that of master 21 admits it:
the model's choices, log entries 28 and 17. -/
def Obligations.HearthEvents : Prop :=
  (∀ (q st : Nat) (record : List Byte), q < 64 → record.length = 256 →
      let slot := fun (s : State) => bits (s.reg 0 (qReg q 0)) 51 8 * 256 + 256 * s.qTail q
      let open' := fun (s : State) => (s.reg 0 (qReg q 1)).getLsbD 17 = false ∧ (s.qTail q + 1) % s.qSize q < s.qSize q
        ∧ s.place (slot s) = .hbm st
      Happens (.launchQueueAppend q record) (fun s => open' s ∧ s.tablesPermit (masterWho 18 0) (slot s) 256 false true = true
          ∧ (s.wr (slot s) record).firmwareMay 0 (qReg q 3) true = true)
        (fun s => (s.wr (slot s) record).setReg 0 (qReg q 3) (BitVec.ofNat 64 ((s.qTail q + 1) % s.qSize q)))
      ∧ Happens (.launchQueueAppend q record) (fun s => open' s ∧ s.tablesPermit (masterWho 18 0) (slot s) 256 false true = false
          ∧ s.firmwareMay 0 (qReg q 3) true = false) (fun s => s))
  ∧ (∀ (q : Nat) (value : W64), q < 64 →
      Firmware (.qctlWrite q value) 0 (qReg q 1) (fun s => (s.reg 0 (qReg q 1)).getLsbD 16 = false) (fun s => s.setReg 0 (qReg q 1) (value &&& 0x7FFFF))
      ∧ Firmware (.qctlWrite q value) 0 (qReg q 1) (fun s => (s.reg 0 (qReg q 1)).getLsbD 16 = true)
        (fun s => ({ (s.setReg 0 (qReg q 2) 0).setReg 0 (qReg q 3) 0 with copied := s.copied.filter fun p => p.1 != q } : State).setReg 0
          (qReg q 1) (value &&& 0x7FFFF)))
  ∧ (∀ q : Nat, q < 64 →
      let slot := fun (s : State) => bits (s.reg 0 (qReg q 0)) 51 8 * 256 + 256 * s.qHead q
      Happens (.launchCopy q) (fun s => s.qEnabled q = true ∧ s.qHead q ≠ s.qTail q ∧ s.launches.length < 256
          ∧ (q, s.qHead q) ∉ s.copied ∧ s.badRead (slot s) 256 = false
          ∧ s.refuses (s.readBytes (slot s) 256) = false)
        (fun s => { s.setReg 0 (qReg q 2) (BitVec.ofNat 64 ((s.qHead q + 1) % s.qSize q)) with
          nextId := s.nextId + 1
          launches := s.launches ++ [launchOf s.nextId q s.ns (recordOf (s.readBytes (slot s) 256)) 0] }))
  ∧ (∀ place : List Nat, Happens (.hearthEvaluation place) State.any (fun s => s.evaluate place)
      ∧ (∀ s : State, s.launches = [] → s.gangs = [] → s.blocks = [] → s.ctxs = [] → (∀ k, (s.cluster k).formed = []) → s.evaluate place = s)
      ∧ ∀ (s : State) (l : Launch) (ck : Nat) (ps : List (Loc × Nat)), s.launches = [l] → s.gangs = [] → s.blocks = [] → s.ctxs = [] →
          (∀ k, (s.cluster k).formed = []) → l.record.gangs = 1 → l.nextGang = 0 → s.mayAdmit l = true →
          s.findGang l 0 place (s.clusterOrder place) = some (ck, ps) → s.evaluate place = s.startGang l 0 ck ps)
  ∧ (∀ (s : State) (l : Launch) (lin ck : Nat) (pref cks : List Nat) (ps : List (Loc × Nat)), s.findGang l lin pref cks = some (ck, ps) →
      ck ∈ cks ∧ ps.length = l.record.blocks ∧ (ps.map Prod.fst).Nodup ∧ (l.record.hasSeq = true → (s.freeSeq ck).isSome = true)
      ∧ ∀ (i : Nat) (c : Loc) (b : Nat), ps[i]? = some (c, b) → clusterKey c = ck ∧ c.core < 24 ∧ s.admits l lin i c = some b)
  ∧ (∀ (s : State) (l : Launch) (lin idx b : Nat) (c : Loc), s.admits l lin idx c = some b →
      (s.coreLoad c).1 + l.record.warps ≤ 48 ∧ (s.coreLoad c).2 + l.record.warps * l.record.warpBytes ≤ 524288
      ∧ b + l.record.spBytes ≤ 524288 ∧ (l.record.hasSeq = true → (s.core c).holder = none)
      ∧ ∀ x ∈ s.blocks, x.loc = c → x.saved = none → x.size = 0 ∨ b + l.record.spBytes ≤ x.base ∨ x.base + x.size ≤ b)
  ∧ (∀ (s : State) (l : Launch) (lin ck : Nat) (ps : List (Loc × Nat)), (∀ x ∈ s.launches, x.id = l.id → x = l) →
      let t := s.startGang l lin ck ps
      let r := l.record
      ∃ (g : Gang) (bs : List Block) (cs : List Ctx), t.gangs = s.gangs ++ [g] ∧ t.blocks = s.blocks ++ bs ∧ t.ctxs = s.ctxs ++ cs
        ∧ (g.launch = l.id ∧ g.linear = lin ∧ g.die = ck / 8 ∧ g.cluster = ck % 8 ∧ g.saved = false)
        ∧ bs.length = ps.length
        ∧ (∀ (i : Nat) (b : Block) (p : Loc × Nat), bs[i]? = some b → ps[i]? = some p →
            b.launch = l.id ∧ b.gang = g.id ∧ b.index = i ∧ b.loc = p.1 ∧ b.base = p.2 ∧ b.size = r.spBytes ∧ b.killed = false
            ∧ b.child = false ∧ b.saved = none ∧ b.succSlot = none ∧ b.holds = r.hasSeq
            ∧ (cs.filter fun c => c.kind == .lane && c.block == b.id).length = r.warps)
        ∧ (∀ c ∈ cs, c.gang = g.id ∧ c.launch = l.id ∧ c.v = [] ∧ c.p = [] ∧ c.m = [] ∧ c.tok = [] ∧ c.s = argTable r.args ∧ c.ended = false
            ∧ c.sr = { SysRegs.start r with dbgRev := l.rev } ∧ c.lanes.length = c.width
            ∧ (c.kind = .seq ∧ r.hasSeq = true ∧ c.width = 1 ∧ c.loc = ⟨ck / 8, ck % 8, 24⟩
                ∧ (∃ u : State, (c.lane 0).pc = u.pastPads c.loc (r.entry r.seqOff)) ∧ (c.lane 0).st = .runnable
              ∨ c.kind = .lane ∧ c.width = r.lanes ∧ c.vregs = r.vregs ∧ (∃ b ∈ bs, c.block = b.id ∧ c.loc = b.loc)
                ∧ ∃ u : State, ∀ j < c.width, (c.lane j).pc = u.pastPads c.loc (BitVec.ofNat 64 r.lane) ∧ (c.lane j).st = .runnable))
        ∧ (cs.filter fun c => c.kind == .seq).length = (if r.hasSeq = true then 1 else 0)
        ∧ (∀ x ∈ t.launches, x.id = l.id → x.nextGang = lin + 1 ∧ x.started = true)
        ∧ (l.started = true → r.energy < 8 → ck < 16 → (s.regs.map Prod.fst).Pairwise (· < ·) → (∀ p ∈ ps, clusterKey p.1 = ck) →
            s.used ck + ps.length * (s.weight r.energy * r.warps) < 2 ^ 32 →
            t.used ck = s.used ck + ps.length * (s.weight r.energy * r.warps)))
  ∧ (∀ l : Launch, Happens (.launchComplete l.id) (fun s => s.launch? l.id = some l ∧ s.launchOver l = true)
      (fun s => (if l.started = true ∧ l.record.result ≠ 0 then (s.forget l).hearthWrite l.record.result l.resultBytes
        else s.forget l).deliver l.id))
  ∧ (∀ (c : Nat) (l : Launch) (rest : List Nat), Happens (.chimneyHeldRelease c) (fun s => s.heldRecs = l.id :: rest
        ∧ s.launch? l.id = some l ∧ s.chimneyOf l = c ∧ s.cRoom c = true) (fun s => (s.writeCompletion l c).releaseKeys))
  ∧ (∀ c : Nat, c < 16 → Happens (.chimneyTimeTrigger c) (fun s => s.timeDue c = true) (fun s => s.raiseChimney c))
  ∧ (∀ tag : W64, Firmware (.hcancel tag) 0 0x140C20 State.any (fun s => s.cancel tag))
  ∧ (∀ key : W32, Firmware (.hkeyfree key) 0 0x140C28 State.any (fun s =>
      if key = 0 then s else ({ s with freeKeys := s.freeKeys ++ [key.toNat] } : State).releaseKeys))
  ∧ ∀ (l : Launch) (now : Nat), l.status < 2 ^ 8 →
      (l.completion now).length = 32 ∧ leNat ((l.completion now).take 8) = l.record.tag.toNat
      ∧ leNat (((l.completion now).drop 8).take 8) / 2 ^ 56 = l.status

/-- R369 to R372, R394 to R405, R158 to R160: debug operations set their registers and are performed, refused (status 2) under no valid
grant; a revoked launch has no halted lane and DBGST.REV; ACCTL locks the tables, which then keep every write out; clocks,
limits, samples; a trip, at 110 °C also by a sample, holds the dies in reset; a reset boots the image of an update whose every
stage verifies, and is recovery mode where one does not; the management port answers, with the digests of the verified stages;
registers are read and written by a master that the table admits, and left alone by one that it does not; application
cores read, write and swap; soft errors are counted or mark the granule, the word or the register that they hit, and an instruction
that reads a marked register, or word of its files, kills its block; a write that covers a granule or a word whole clears its mark, and
one that does not leaves it. That a debug operation completes at once, how the
application cores answer and which master firmware's writes come from, the form of an image and of what the port answers,
where errors count, the cap of a sample above the limit, that a change of a grant's tag revokes it, and that what a HALT may
release is tested after it, are the model's choices, log entries 70, 17, 21, 33, 52, 72 and 78; that an error in a core's array does
harm at the next read alone, and which lanes' reads of a register count, are its readings, log entries 64 and 51. -/
def Obligations.DebugAndDeviceEvents : Prop :=
  (∀ dop mask buf arg : W64,
      (∀ p ∈ [(Instr.debugHalt, 0), (.debugResume, 1), (.debugStep, 2), (.bpset, 3), (.bpclr, 4), (.debugRead, 5), (.debugWrite, 6),
          (.debugSample, 7)],
        Happens (p.1 dop mask buf arg) (fun s => bits dop 31 28 = p.2
            ∧ ∀ off ∈ [0x200080, 0x200088, 0x200090, 0x200098, 0x2000A0], s.firmwareMay 0 off true = true) (fun s =>
          ((((s.setReg 0 0x200080 (dop &&& 0xF7FFFF83)).setReg 0 0x200088 mask).setReg 0 0x200090 (buf &&& 0xFFFFFFFFFFFC0)).setReg 0
            0x200098 arg).debugGo)
        ∧ Happens (p.1 dop mask buf arg) (fun s => bits dop 31 28 = p.2
            ∧ ∀ off ∈ [0x200080, 0x200088, 0x200090, 0x200098, 0x2000A0], s.firmwareMay 0 off true = false) (fun s => s))
      ∧ (∀ s : State, (s.reg 0 0x200040).getLsbD (bits dop 26 24) = false → s.debugPerform dop mask buf arg = (s, 2))
      ∧ ∀ (s : State) (c : Ctx), (s.reg 0 0x200040).getLsbD (bits dop 26 24) = true → bits dop 31 28 = 0 → s.debugTarget dop arg = some c →
          s.debugPerform dop mask buf arg =
            ((s.updCtx c.id fun x => x.updLanes (c.debugLanes mask) fun _ y => { y with halted := true, stepping := false }).afterDebug c.id, 0))
  ∧ (∀ (g : Nat) (tag : W64), g ≤ 7 →
      let tagged := fun (s : State) => s.regrant (0x200000 + 8 * g) tag
      Happens (.debugGrant g tag) (fun s => s.firmwareMay 0 (0x200000 + 8 * g) true = true ∧ (tagged s).firmwareMay 0 0x200040 true = true)
        (fun s => (tagged s).regrant 0x200040 (((tagged s).reg 0 0x200040 ||| BitVec.ofNat 64 (2 ^ g)) &&& 0xFF))
      ∧ Happens (.debugGrant g tag) (fun s => s.firmwareMay 0 (0x200000 + 8 * g) true = false ∧ s.firmwareMay 0 0x200040 true = false)
        (fun s => s)
      ∧ Firmware (.debugRevoke g) 0 0x200040 State.any (fun s =>
        s.regrant 0x200040 ((s.reg 0 0x200040 &&& ~~~BitVec.ofNat 64 (2 ^ g)) &&& 0xFF)))
  ∧ (∀ (s : State) (lid : Nat), ∀ c ∈ (s.revoke lid).ctxs, c.launch = lid → c.ended = false →
      c.sr.dbgRev = true ∧ ∀ x ∈ c.lanes, x.halted = false ∧ x.stepping = false)
  ∧ (∀ die : Nat, die ≤ 1 →
      Firmware (.acctlEnable die) die 0x19FFF8 State.any (fun s => s.setReg die 0x19FFF8 (s.reg die 0x19FFF8 ||| 1))
      ∧ Firmware (.acctlLock die) die 0x19FFF8 State.any (fun s => s.setReg die 0x19FFF8 (s.reg die 0x19FFF8 ||| 2))
      ∧ Happens (.acsync die) (fun s => s.firmwareMay die 0x19FFF0 false = true) (fun s => s.answer [s.mgmtRead die 0x19FFF0])
      ∧ Happens (.acsync die) (fun s => s.firmwareMay die 0x19FFF0 false = false) (fun s => s)
      ∧ ∀ (s : State) (off : Nat) (v : W64), (s.reg die 0x19FFF8).getLsbD 1 = true → 0x180000 ≤ off → off < 0x193000 →
          s.mgmtWrite die off v = s)
  ∧ (∀ v : W64, Firmware (.cap0Write v) 0 0x1A0000 State.any (fun s =>
      if ((List.range 64).any fun q => (s.reg 0 (qReg q 1)).getLsbD 16) = true ∨ bits v 53 43 = 0 ∨ 1024 < bits v 53 43 ∨ bits v 53 43 ≤ bits v 63 54 then s
      else { s with caps := Table.set (Table.set s.caps 4 (bits v 63 54) (capReset 4)) 5 (bits v 53 43) (capReset 5) }))
  ∧ (∀ (i : Nat) (v : W64), i < 16 →
      Firmware (.islclkWrite i v) 0 (0x160000 + 8 * i) State.any (fun s =>
        if 600 ≤ bits v 10 0 ∧ bits v 10 0 ≤ 1500 ∧ bits v 10 0 % 25 = 0 then s.setClock i (bits v 10 0) (s.eff i) else s)
      ∧ Happens (.clockChangeEffect i) (fun s => s.eff i ≠ min (s.freq i) (s.islCap i))
        (fun s => s.setClock i (s.freq i) (min (s.freq i) (s.islCap i))))
  ∧ (∀ v : W64, Firmware (.pwrlimWrite v) 0 0x160100 State.any (fun s => s.setReg 0 0x160100 (BitVec.ofNat 64 (max 1000 (min 4000 (bits v 15 0))))))
  ∧ (∀ amps tj watts : Nat, Happens (.currentSample amps tj watts) State.any (fun s => s.currentSample amps tj watts)
      ∧ ∀ s : State, (tj < 110 → bits (s.reg 0 0x160100) 15 0 < amps → Table.wf 1500 s.islCaps = true →
          ∀ i < 16, (s.currentSample amps tj watts).islCap i = max 600 (min (s.islCap i) (s.freq i) - 100))
        ∧ (110 ≤ tj → (s.currentSample amps tj watts).tripped = true ∧ (s.currentSample amps tj watts).launches = []))
  ∧ (∀ (s : State) (tj : Nat), s.run = none → 110 ≤ tj → ∃ t, exec (.thermalTrip tj) s = .next t ∧ t.tripped = true ∧ t.launches = []
      ∧ t.ctxs = [] ∧ t.ops = [] ∧ t.mem = s.mem)
  ∧ (∀ (s : State) (img : Image), s.run = none → exec (.pldmFirmwareUpdate img) s = .next { s with newImage := some img })
  ∧ (∀ (s : State) (img : Image), s.newImage = some img →
      (img.stages ≠ [] → (∀ x ∈ img.stages, s.stageOk x = true) →
        exec .deviceReset s = .next { s.restart with installed := some img, verified := img.stages, newImage := none })
      ∧ ∀ pre x post, img.stages = pre ++ x :: post → (∀ y ∈ pre, s.stageOk y = true) → s.stageOk x = false →
        exec .deviceReset s = .next { s.restart with recovery := true, verified := pre })
  ∧ (∀ (s : State) (x : FwStage), s.stageOk x = true ↔
      shake256 x.key 64 = s.fusedKey ∧ s.version ≤ x.version ∧ ed448Verifies x.key (leBytes 8 x.version ++ x.code) x.signature = true)
  ∧ (∀ s : State, s.run = none →
      (∀ n < 16, exec (.pldmMonitoring n) s = .next (s.answer [BitVec.ofNat 64 (s.eff n)]))
      ∧ exec (.pldmMonitoring 16) s = .next (s.answer [BitVec.ofNat 64 (bits (s.reg 0 0x160108) 47 40)])
      ∧ exec (.pldmMonitoring 17) s = .next (s.answer [BitVec.ofNat 64 (bits (s.reg 0 0x160108) 39 24)])
      ∧ exec (.pldmMonitoring 18) s = .next (s.answer [BitVec.ofNat 64 (bits (s.reg 0 0x160108) 15 0)])
      ∧ (let bs := s.measurements ++ Config.certChain ++ Config.identitySign s.measurements
        exec .spdm s = .next (s.answer (wordsOf ((bs.length + 7) / 8) bs)))
      ∧ (s.installed ≠ none → (∀ d ≤ 1, (s.reg d 0x19FFF8).getLsbD 1 = false) →
        s.measurements = s.verified.flatMap fun x => shake256 (leBytes 8 x.version ++ x.code) 64))
  ∧ (∀ (master die off : Nat) (v : W64), die ≤ 1 → (master = 18 ∨ master = 21) → off < 2 ^ 24 →
      Happens (.registerWrite master die off v) State.any (fun s =>
        if s.mgmtAdmits master die off false true = true then s.mgmtWrite die off v else s))
  ∧ (∀ die off size : Nat, die ≤ 1 → off < 2 ^ 24 → (size = 1 ∨ size = 2 ∨ size = 4 ∨ size = 8) → off % size = 0 →
      Happens (.applicationCoreAccess (.ctrlRead die off size)) State.any (fun s =>
        if s.mgmtAdmits 21 die off true false = true then s.answer [s.mgmtPart die off size] else s)
      ∧ ∀ pa, Happens (.applicationCoreAccess (.read pa size)) (fun s => s.appPlace pa size true false = some (.mgmt die))
        (fun s => s.answer [s.mgmtPart die (pa % 2 ^ 24) size]))
  ∧ (∀ (pa size st : Nat) (v : W64),
      let at' := fun (s : State) (rd wr : Bool) => s.appPlace pa size rd wr = some (.hbm st) ∧ (rd = true → s.badRead pa size = false)
      Happens (.applicationCoreAccess (.read pa size)) (fun s => at' s true false) (fun s => s.answer [BitVec.ofNat 64 (s.readN pa size)])
      ∧ Happens (.applicationCoreAccess (.write pa size v)) (fun s => at' s false true) (fun s => s.wrN pa size v.toNat)
      ∧ ∀ p ∈ [(AppAccess.amoAdd pa size v, fun x => x + v.toNat), (.amoSwap pa size v, fun _ => v.toNat),
            (.amoAnd pa size v, fun x => x &&& v.toNat), (.amoOr pa size v, fun x => x ||| v.toNat), (.amoXor pa size v, fun x => x ^^^ v.toNat),
            (.amoMin pa size false v, fun x => pickN false false size x v.toNat), (.amoMin pa size true v, fun x => pickN false true size x v.toNat),
            (.amoMax pa size false v, fun x => pickN true false size x v.toNat), (.amoMax pa size true v, fun x => pickN true true size x v.toNat)],
          Happens (.applicationCoreAccess p.1) (fun s => at' s true true ∧ (size = 4 ∨ size = 8))
            (fun s => (s.wrN pa size (p.2 (s.readN pa size) % 2 ^ (8 * size))).answer [BitVec.ofNat 64 (s.readN pa size)]))
  ∧ (∀ pa st : Nat,
      Happens (.softError (.memory pa) true) (fun s => s.place pa = .hbm st) (fun s => s.bumpReg (st / 4) 0x1E0000)
      ∧ Happens (.softError (.memory pa) false) (fun s => s.place pa = .hbm st)
          (fun s => { s with badGranules := Table.set s.badGranules (pa / 32) 1 0 })
      ∧ Happens (.softError (.l2 pa) true) (fun s => s.place pa = .hbm st) (fun s => s.bumpReg (s.errWhere pa).1 0x1E0000)
      ∧ Happens (.softError (.l2 pa) false) (fun s => s.place pa = .hbm st)
          (fun s => { s with badGranules := Table.set s.badGranules (pa / 32) 2 0 })
      ∧ ∀ die cl core : Nat, die ≤ 1 → core < 24 →
          Happens (.softError (.l1 die cl core pa) true) (fun s => cl < s.cap die) (fun s => s.bumpReg die 0x1E0000)
          ∧ Happens (.softError (.l1 die cl core pa) false) (fun s => cl < s.cap die) (fun s => s.countError die cl core 3 pa))
  ∧ (∀ a die cl u off w, Happens (.softError (.array a) true) (fun s => s.place a = .map die cl u off w) (fun s => s.bumpReg die 0x1E0000)
      ∧ Happens (.softError (.array a) false) (fun s => s.place a = .map die cl u off w)
          (fun s => { s with badWords := Table.set s.badWords (a / 4) true false }))
  ∧ (∀ (c : Ctx) (n l : Nat),
      let held := fun (s : State) => s.ctx? c.id = some c ∧ c.ended = false ∧ c.saved = false ∧ n < c.vregs ∧ l < c.width
      Happens (.softError (.vreg c.id n l) true) held (fun s => s.bumpReg c.loc.die 0x1E0000)
      ∧ Happens (.softError (.vreg c.id n l) false) held (fun s => { s with badVregs :=
          if (c.id, n, l) ∈ s.badVregs then s.badVregs else s.badVregs ++ [(c.id, n, l)] }))
  ∧ (∀ (s : State) (pa : Nat) (bs : List Byte), Table.wf false s.badWords = true → Table.wf 0 s.badGranules = true →
      (∀ w, Table.get (s.wr pa bs).badWords w false =
        if pa ≤ 4 * w ∧ 4 * w + 4 ≤ pa + bs.length then false else Table.get s.badWords w false)
      ∧ ∀ g, Table.get (s.wr pa bs).badGranules g 0 =
        if pa ≤ 32 * g ∧ 32 * g + 32 ≤ pa + bs.length then 0 else Table.get s.badGranules g 0)
  ∧ ∀ (i : Instr) (s : State) (v : Env), s.envOf i = some v → v.checkFails = none →
      (∀ l, v.badRegister = some l → exec i s = .next ((v.counted.countReg v.c.loc).killUnc v.c.block v.r.pc l 0))
      ∧ ∀ pa l, v.badRegister = none → v.badFile = some (pa, l) → exec i s = .next (v.counted.uncHit pa v.r.pc l)
end

