-- ==== Sys2Proof/Laws/State.lean ====
section
/-! SUPPORT. What each update of a state and of a context leaves in each field, one lemma a field, so that no proof unfolds a
record update. -/

namespace Sys2Proof.Machine

section writeByte
variable (s : State) (pa : Nat) (b : Byte)
@[simp] theorem State.writeByte_mem : (s.writeByte pa b).mem = Table.set s.mem pa b unlistedByte := rfl
@[simp] theorem State.writeByte_badGranules : (s.writeByte pa b).badGranules = s.badGranules := rfl
@[simp] theorem State.writeByte_badWords : (s.writeByte pa b).badWords = s.badWords := rfl
@[simp] theorem State.writeByte_badVregs : (s.writeByte pa b).badVregs = s.badVregs := rfl
@[simp] theorem State.writeByte_regs : (s.writeByte pa b).regs = s.regs := rfl
@[simp] theorem State.writeByte_caps : (s.writeByte pa b).caps = s.caps := rfl
@[simp] theorem State.writeByte_islCaps : (s.writeByte pa b).islCaps = s.islCaps := rfl
@[simp] theorem State.writeByte_rise : (s.writeByte pa b).rise = s.rise := rfl
@[simp] theorem State.writeByte_hot : (s.writeByte pa b).hot = s.hot := rfl
@[simp] theorem State.writeByte_halfRate : (s.writeByte pa b).halfRate = s.halfRate := rfl
@[simp] theorem State.writeByte_ns : (s.writeByte pa b).ns = s.ns := rfl
@[simp] theorem State.writeByte_cyc : (s.writeByte pa b).cyc = s.cyc := rfl
@[simp] theorem State.writeByte_ctxs : (s.writeByte pa b).ctxs = s.ctxs := rfl
@[simp] theorem State.writeByte_blocks : (s.writeByte pa b).blocks = s.blocks := rfl
@[simp] theorem State.writeByte_gangs : (s.writeByte pa b).gangs = s.gangs := rfl
@[simp] theorem State.writeByte_launches : (s.writeByte pa b).launches = s.launches := rfl
@[simp] theorem State.writeByte_cores : (s.writeByte pa b).cores = s.cores := rfl
@[simp] theorem State.writeByte_clusters : (s.writeByte pa b).clusters = s.clusters := rfl
@[simp] theorem State.writeByte_dies : (s.writeByte pa b).dies = s.dies := rfl
@[simp] theorem State.writeByte_ops : (s.writeByte pa b).ops = s.ops := rfl
@[simp] theorem State.writeByte_lates : (s.writeByte pa b).lates = s.lates := rfl
@[simp] theorem State.writeByte_redFails : (s.writeByte pa b).redFails = s.redFails := rfl
@[simp] theorem State.writeByte_sessions : (s.writeByte pa b).sessions = s.sessions := rfl
@[simp] theorem State.writeByte_heldRecs : (s.writeByte pa b).heldRecs = s.heldRecs := rfl
@[simp] theorem State.writeByte_chimneys : (s.writeByte pa b).chimneys = s.chimneys := rfl
@[simp] theorem State.writeByte_copied : (s.writeByte pa b).copied = s.copied := rfl
@[simp] theorem State.writeByte_lostKeys : (s.writeByte pa b).lostKeys = s.lostKeys := rfl
@[simp] theorem State.writeByte_freeKeys : (s.writeByte pa b).freeKeys = s.freeKeys := rfl
@[simp] theorem State.writeByte_irqs : (s.writeByte pa b).irqs = s.irqs := rfl
@[simp] theorem State.writeByte_outbox : (s.writeByte pa b).outbox = s.outbox := rfl
@[simp] theorem State.writeByte_answers : (s.writeByte pa b).answers = s.answers := rfl
@[simp] theorem State.writeByte_nextId : (s.writeByte pa b).nextId = s.nextId := rfl
@[simp] theorem State.writeByte_run : (s.writeByte pa b).run = s.run := rfl
@[simp] theorem State.writeByte_agenda : (s.writeByte pa b).agenda = s.agenda := rfl
@[simp] theorem State.writeByte_freeIdx : (s.writeByte pa b).freeIdx = s.freeIdx := rfl
@[simp] theorem State.writeByte_recovery : (s.writeByte pa b).recovery = s.recovery := rfl
@[simp] theorem State.writeByte_tripped : (s.writeByte pa b).tripped = s.tripped := rfl
@[simp] theorem State.writeByte_version : (s.writeByte pa b).version = s.version := rfl
@[simp] theorem State.writeByte_fusedKey : (s.writeByte pa b).fusedKey = s.fusedKey := rfl
@[simp] theorem State.writeByte_installed : (s.writeByte pa b).installed = s.installed := rfl
@[simp] theorem State.writeByte_verified : (s.writeByte pa b).verified = s.verified := rfl
@[simp] theorem State.writeByte_newImage : (s.writeByte pa b).newImage = s.newImage := rfl
end writeByte

section updCtx
variable (s : State) (id : Nat) (g : Ctx → Ctx)
@[simp] theorem State.updCtx_mem : (s.updCtx id g).mem = s.mem := rfl
@[simp] theorem State.updCtx_badGranules : (s.updCtx id g).badGranules = s.badGranules := rfl
@[simp] theorem State.updCtx_badWords : (s.updCtx id g).badWords = s.badWords := rfl
@[simp] theorem State.updCtx_badVregs : (s.updCtx id g).badVregs = s.badVregs := rfl
@[simp] theorem State.updCtx_regs : (s.updCtx id g).regs = s.regs := rfl
@[simp] theorem State.updCtx_caps : (s.updCtx id g).caps = s.caps := rfl
@[simp] theorem State.updCtx_islCaps : (s.updCtx id g).islCaps = s.islCaps := rfl
@[simp] theorem State.updCtx_rise : (s.updCtx id g).rise = s.rise := rfl
@[simp] theorem State.updCtx_hot : (s.updCtx id g).hot = s.hot := rfl
@[simp] theorem State.updCtx_halfRate : (s.updCtx id g).halfRate = s.halfRate := rfl
@[simp] theorem State.updCtx_ns : (s.updCtx id g).ns = s.ns := rfl
@[simp] theorem State.updCtx_cyc : (s.updCtx id g).cyc = s.cyc := rfl
@[simp] theorem State.updCtx_ctxs : (s.updCtx id g).ctxs = updWhere s.ctxs (fun c => c.id == id) g := rfl
@[simp] theorem State.updCtx_blocks : (s.updCtx id g).blocks = s.blocks := rfl
@[simp] theorem State.updCtx_gangs : (s.updCtx id g).gangs = s.gangs := rfl
@[simp] theorem State.updCtx_launches : (s.updCtx id g).launches = s.launches := rfl
@[simp] theorem State.updCtx_cores : (s.updCtx id g).cores = s.cores := rfl
@[simp] theorem State.updCtx_clusters : (s.updCtx id g).clusters = s.clusters := rfl
@[simp] theorem State.updCtx_dies : (s.updCtx id g).dies = s.dies := rfl
@[simp] theorem State.updCtx_ops : (s.updCtx id g).ops = s.ops := rfl
@[simp] theorem State.updCtx_lates : (s.updCtx id g).lates = s.lates := rfl
@[simp] theorem State.updCtx_redFails : (s.updCtx id g).redFails = s.redFails := rfl
@[simp] theorem State.updCtx_sessions : (s.updCtx id g).sessions = s.sessions := rfl
@[simp] theorem State.updCtx_heldRecs : (s.updCtx id g).heldRecs = s.heldRecs := rfl
@[simp] theorem State.updCtx_chimneys : (s.updCtx id g).chimneys = s.chimneys := rfl
@[simp] theorem State.updCtx_copied : (s.updCtx id g).copied = s.copied := rfl
@[simp] theorem State.updCtx_lostKeys : (s.updCtx id g).lostKeys = s.lostKeys := rfl
@[simp] theorem State.updCtx_freeKeys : (s.updCtx id g).freeKeys = s.freeKeys := rfl
@[simp] theorem State.updCtx_irqs : (s.updCtx id g).irqs = s.irqs := rfl
@[simp] theorem State.updCtx_outbox : (s.updCtx id g).outbox = s.outbox := rfl
@[simp] theorem State.updCtx_answers : (s.updCtx id g).answers = s.answers := rfl
@[simp] theorem State.updCtx_nextId : (s.updCtx id g).nextId = s.nextId := rfl
@[simp] theorem State.updCtx_run : (s.updCtx id g).run = s.run := rfl
@[simp] theorem State.updCtx_agenda : (s.updCtx id g).agenda = s.agenda := rfl
@[simp] theorem State.updCtx_freeIdx : (s.updCtx id g).freeIdx = s.freeIdx := rfl
@[simp] theorem State.updCtx_recovery : (s.updCtx id g).recovery = s.recovery := rfl
@[simp] theorem State.updCtx_tripped : (s.updCtx id g).tripped = s.tripped := rfl
@[simp] theorem State.updCtx_version : (s.updCtx id g).version = s.version := rfl
@[simp] theorem State.updCtx_fusedKey : (s.updCtx id g).fusedKey = s.fusedKey := rfl
@[simp] theorem State.updCtx_installed : (s.updCtx id g).installed = s.installed := rfl
@[simp] theorem State.updCtx_verified : (s.updCtx id g).verified = s.verified := rfl
@[simp] theorem State.updCtx_newImage : (s.updCtx id g).newImage = s.newImage := rfl
end updCtx

section updBlock
variable (s : State) (id : Nat) (g : Block → Block)
@[simp] theorem State.updBlock_mem : (s.updBlock id g).mem = s.mem := rfl
@[simp] theorem State.updBlock_badGranules : (s.updBlock id g).badGranules = s.badGranules := rfl
@[simp] theorem State.updBlock_badWords : (s.updBlock id g).badWords = s.badWords := rfl
@[simp] theorem State.updBlock_badVregs : (s.updBlock id g).badVregs = s.badVregs := rfl
@[simp] theorem State.updBlock_regs : (s.updBlock id g).regs = s.regs := rfl
@[simp] theorem State.updBlock_caps : (s.updBlock id g).caps = s.caps := rfl
@[simp] theorem State.updBlock_islCaps : (s.updBlock id g).islCaps = s.islCaps := rfl
@[simp] theorem State.updBlock_rise : (s.updBlock id g).rise = s.rise := rfl
@[simp] theorem State.updBlock_hot : (s.updBlock id g).hot = s.hot := rfl
@[simp] theorem State.updBlock_halfRate : (s.updBlock id g).halfRate = s.halfRate := rfl
@[simp] theorem State.updBlock_ns : (s.updBlock id g).ns = s.ns := rfl
@[simp] theorem State.updBlock_cyc : (s.updBlock id g).cyc = s.cyc := rfl
@[simp] theorem State.updBlock_ctxs : (s.updBlock id g).ctxs = s.ctxs := rfl
@[simp] theorem State.updBlock_blocks : (s.updBlock id g).blocks = updWhere s.blocks (fun b => b.id == id) g := rfl
@[simp] theorem State.updBlock_gangs : (s.updBlock id g).gangs = s.gangs := rfl
@[simp] theorem State.updBlock_launches : (s.updBlock id g).launches = s.launches := rfl
@[simp] theorem State.updBlock_cores : (s.updBlock id g).cores = s.cores := rfl
@[simp] theorem State.updBlock_clusters : (s.updBlock id g).clusters = s.clusters := rfl
@[simp] theorem State.updBlock_dies : (s.updBlock id g).dies = s.dies := rfl
@[simp] theorem State.updBlock_ops : (s.updBlock id g).ops = s.ops := rfl
@[simp] theorem State.updBlock_lates : (s.updBlock id g).lates = s.lates := rfl
@[simp] theorem State.updBlock_redFails : (s.updBlock id g).redFails = s.redFails := rfl
@[simp] theorem State.updBlock_sessions : (s.updBlock id g).sessions = s.sessions := rfl
@[simp] theorem State.updBlock_heldRecs : (s.updBlock id g).heldRecs = s.heldRecs := rfl
@[simp] theorem State.updBlock_chimneys : (s.updBlock id g).chimneys = s.chimneys := rfl
@[simp] theorem State.updBlock_copied : (s.updBlock id g).copied = s.copied := rfl
@[simp] theorem State.updBlock_lostKeys : (s.updBlock id g).lostKeys = s.lostKeys := rfl
@[simp] theorem State.updBlock_freeKeys : (s.updBlock id g).freeKeys = s.freeKeys := rfl
@[simp] theorem State.updBlock_irqs : (s.updBlock id g).irqs = s.irqs := rfl
@[simp] theorem State.updBlock_outbox : (s.updBlock id g).outbox = s.outbox := rfl
@[simp] theorem State.updBlock_answers : (s.updBlock id g).answers = s.answers := rfl
@[simp] theorem State.updBlock_nextId : (s.updBlock id g).nextId = s.nextId := rfl
@[simp] theorem State.updBlock_run : (s.updBlock id g).run = s.run := rfl
@[simp] theorem State.updBlock_agenda : (s.updBlock id g).agenda = s.agenda := rfl
@[simp] theorem State.updBlock_freeIdx : (s.updBlock id g).freeIdx = s.freeIdx := rfl
@[simp] theorem State.updBlock_recovery : (s.updBlock id g).recovery = s.recovery := rfl
@[simp] theorem State.updBlock_tripped : (s.updBlock id g).tripped = s.tripped := rfl
@[simp] theorem State.updBlock_version : (s.updBlock id g).version = s.version := rfl
@[simp] theorem State.updBlock_fusedKey : (s.updBlock id g).fusedKey = s.fusedKey := rfl
@[simp] theorem State.updBlock_installed : (s.updBlock id g).installed = s.installed := rfl
@[simp] theorem State.updBlock_verified : (s.updBlock id g).verified = s.verified := rfl
@[simp] theorem State.updBlock_newImage : (s.updBlock id g).newImage = s.newImage := rfl
end updBlock

section updGang
variable (s : State) (id : Nat) (g : Gang → Gang)
@[simp] theorem State.updGang_mem : (s.updGang id g).mem = s.mem := rfl
@[simp] theorem State.updGang_badGranules : (s.updGang id g).badGranules = s.badGranules := rfl
@[simp] theorem State.updGang_badWords : (s.updGang id g).badWords = s.badWords := rfl
@[simp] theorem State.updGang_badVregs : (s.updGang id g).badVregs = s.badVregs := rfl
@[simp] theorem State.updGang_regs : (s.updGang id g).regs = s.regs := rfl
@[simp] theorem State.updGang_caps : (s.updGang id g).caps = s.caps := rfl
@[simp] theorem State.updGang_islCaps : (s.updGang id g).islCaps = s.islCaps := rfl
@[simp] theorem State.updGang_rise : (s.updGang id g).rise = s.rise := rfl
@[simp] theorem State.updGang_hot : (s.updGang id g).hot = s.hot := rfl
@[simp] theorem State.updGang_halfRate : (s.updGang id g).halfRate = s.halfRate := rfl
@[simp] theorem State.updGang_ns : (s.updGang id g).ns = s.ns := rfl
@[simp] theorem State.updGang_cyc : (s.updGang id g).cyc = s.cyc := rfl
@[simp] theorem State.updGang_ctxs : (s.updGang id g).ctxs = s.ctxs := rfl
@[simp] theorem State.updGang_blocks : (s.updGang id g).blocks = s.blocks := rfl
@[simp] theorem State.updGang_gangs : (s.updGang id g).gangs = updWhere s.gangs (fun b => b.id == id) g := rfl
@[simp] theorem State.updGang_launches : (s.updGang id g).launches = s.launches := rfl
@[simp] theorem State.updGang_cores : (s.updGang id g).cores = s.cores := rfl
@[simp] theorem State.updGang_clusters : (s.updGang id g).clusters = s.clusters := rfl
@[simp] theorem State.updGang_dies : (s.updGang id g).dies = s.dies := rfl
@[simp] theorem State.updGang_ops : (s.updGang id g).ops = s.ops := rfl
@[simp] theorem State.updGang_lates : (s.updGang id g).lates = s.lates := rfl
@[simp] theorem State.updGang_redFails : (s.updGang id g).redFails = s.redFails := rfl
@[simp] theorem State.updGang_sessions : (s.updGang id g).sessions = s.sessions := rfl
@[simp] theorem State.updGang_heldRecs : (s.updGang id g).heldRecs = s.heldRecs := rfl
@[simp] theorem State.updGang_chimneys : (s.updGang id g).chimneys = s.chimneys := rfl
@[simp] theorem State.updGang_copied : (s.updGang id g).copied = s.copied := rfl
@[simp] theorem State.updGang_lostKeys : (s.updGang id g).lostKeys = s.lostKeys := rfl
@[simp] theorem State.updGang_freeKeys : (s.updGang id g).freeKeys = s.freeKeys := rfl
@[simp] theorem State.updGang_irqs : (s.updGang id g).irqs = s.irqs := rfl
@[simp] theorem State.updGang_outbox : (s.updGang id g).outbox = s.outbox := rfl
@[simp] theorem State.updGang_answers : (s.updGang id g).answers = s.answers := rfl
@[simp] theorem State.updGang_nextId : (s.updGang id g).nextId = s.nextId := rfl
@[simp] theorem State.updGang_run : (s.updGang id g).run = s.run := rfl
@[simp] theorem State.updGang_agenda : (s.updGang id g).agenda = s.agenda := rfl
@[simp] theorem State.updGang_freeIdx : (s.updGang id g).freeIdx = s.freeIdx := rfl
@[simp] theorem State.updGang_recovery : (s.updGang id g).recovery = s.recovery := rfl
@[simp] theorem State.updGang_tripped : (s.updGang id g).tripped = s.tripped := rfl
@[simp] theorem State.updGang_version : (s.updGang id g).version = s.version := rfl
@[simp] theorem State.updGang_fusedKey : (s.updGang id g).fusedKey = s.fusedKey := rfl
@[simp] theorem State.updGang_installed : (s.updGang id g).installed = s.installed := rfl
@[simp] theorem State.updGang_verified : (s.updGang id g).verified = s.verified := rfl
@[simp] theorem State.updGang_newImage : (s.updGang id g).newImage = s.newImage := rfl
end updGang

section updLaunch
variable (s : State) (id : Nat) (g : Launch → Launch)
@[simp] theorem State.updLaunch_mem : (s.updLaunch id g).mem = s.mem := rfl
@[simp] theorem State.updLaunch_badGranules : (s.updLaunch id g).badGranules = s.badGranules := rfl
@[simp] theorem State.updLaunch_badWords : (s.updLaunch id g).badWords = s.badWords := rfl
@[simp] theorem State.updLaunch_badVregs : (s.updLaunch id g).badVregs = s.badVregs := rfl
@[simp] theorem State.updLaunch_regs : (s.updLaunch id g).regs = s.regs := rfl
@[simp] theorem State.updLaunch_caps : (s.updLaunch id g).caps = s.caps := rfl
@[simp] theorem State.updLaunch_islCaps : (s.updLaunch id g).islCaps = s.islCaps := rfl
@[simp] theorem State.updLaunch_rise : (s.updLaunch id g).rise = s.rise := rfl
@[simp] theorem State.updLaunch_hot : (s.updLaunch id g).hot = s.hot := rfl
@[simp] theorem State.updLaunch_halfRate : (s.updLaunch id g).halfRate = s.halfRate := rfl
@[simp] theorem State.updLaunch_ns : (s.updLaunch id g).ns = s.ns := rfl
@[simp] theorem State.updLaunch_cyc : (s.updLaunch id g).cyc = s.cyc := rfl
@[simp] theorem State.updLaunch_ctxs : (s.updLaunch id g).ctxs = s.ctxs := rfl
@[simp] theorem State.updLaunch_blocks : (s.updLaunch id g).blocks = s.blocks := rfl
@[simp] theorem State.updLaunch_gangs : (s.updLaunch id g).gangs = s.gangs := rfl
@[simp] theorem State.updLaunch_launches : (s.updLaunch id g).launches = updWhere s.launches (fun l => l.id == id) g := rfl
@[simp] theorem State.updLaunch_cores : (s.updLaunch id g).cores = s.cores := rfl
@[simp] theorem State.updLaunch_clusters : (s.updLaunch id g).clusters = s.clusters := rfl
@[simp] theorem State.updLaunch_dies : (s.updLaunch id g).dies = s.dies := rfl
@[simp] theorem State.updLaunch_ops : (s.updLaunch id g).ops = s.ops := rfl
@[simp] theorem State.updLaunch_lates : (s.updLaunch id g).lates = s.lates := rfl
@[simp] theorem State.updLaunch_redFails : (s.updLaunch id g).redFails = s.redFails := rfl
@[simp] theorem State.updLaunch_sessions : (s.updLaunch id g).sessions = s.sessions := rfl
@[simp] theorem State.updLaunch_heldRecs : (s.updLaunch id g).heldRecs = s.heldRecs := rfl
@[simp] theorem State.updLaunch_chimneys : (s.updLaunch id g).chimneys = s.chimneys := rfl
@[simp] theorem State.updLaunch_copied : (s.updLaunch id g).copied = s.copied := rfl
@[simp] theorem State.updLaunch_lostKeys : (s.updLaunch id g).lostKeys = s.lostKeys := rfl
@[simp] theorem State.updLaunch_freeKeys : (s.updLaunch id g).freeKeys = s.freeKeys := rfl
@[simp] theorem State.updLaunch_irqs : (s.updLaunch id g).irqs = s.irqs := rfl
@[simp] theorem State.updLaunch_outbox : (s.updLaunch id g).outbox = s.outbox := rfl
@[simp] theorem State.updLaunch_answers : (s.updLaunch id g).answers = s.answers := rfl
@[simp] theorem State.updLaunch_nextId : (s.updLaunch id g).nextId = s.nextId := rfl
@[simp] theorem State.updLaunch_run : (s.updLaunch id g).run = s.run := rfl
@[simp] theorem State.updLaunch_agenda : (s.updLaunch id g).agenda = s.agenda := rfl
@[simp] theorem State.updLaunch_freeIdx : (s.updLaunch id g).freeIdx = s.freeIdx := rfl
@[simp] theorem State.updLaunch_recovery : (s.updLaunch id g).recovery = s.recovery := rfl
@[simp] theorem State.updLaunch_tripped : (s.updLaunch id g).tripped = s.tripped := rfl
@[simp] theorem State.updLaunch_version : (s.updLaunch id g).version = s.version := rfl
@[simp] theorem State.updLaunch_fusedKey : (s.updLaunch id g).fusedKey = s.fusedKey := rfl
@[simp] theorem State.updLaunch_installed : (s.updLaunch id g).installed = s.installed := rfl
@[simp] theorem State.updLaunch_verified : (s.updLaunch id g).verified = s.verified := rfl
@[simp] theorem State.updLaunch_newImage : (s.updLaunch id g).newImage = s.newImage := rfl
end updLaunch

section updOp
variable (s : State) (id : Nat) (g : Op → Op)
@[simp] theorem State.updOp_mem : (s.updOp id g).mem = s.mem := rfl
@[simp] theorem State.updOp_badGranules : (s.updOp id g).badGranules = s.badGranules := rfl
@[simp] theorem State.updOp_badWords : (s.updOp id g).badWords = s.badWords := rfl
@[simp] theorem State.updOp_badVregs : (s.updOp id g).badVregs = s.badVregs := rfl
@[simp] theorem State.updOp_regs : (s.updOp id g).regs = s.regs := rfl
@[simp] theorem State.updOp_caps : (s.updOp id g).caps = s.caps := rfl
@[simp] theorem State.updOp_islCaps : (s.updOp id g).islCaps = s.islCaps := rfl
@[simp] theorem State.updOp_rise : (s.updOp id g).rise = s.rise := rfl
@[simp] theorem State.updOp_hot : (s.updOp id g).hot = s.hot := rfl
@[simp] theorem State.updOp_halfRate : (s.updOp id g).halfRate = s.halfRate := rfl
@[simp] theorem State.updOp_ns : (s.updOp id g).ns = s.ns := rfl
@[simp] theorem State.updOp_cyc : (s.updOp id g).cyc = s.cyc := rfl
@[simp] theorem State.updOp_ctxs : (s.updOp id g).ctxs = s.ctxs := rfl
@[simp] theorem State.updOp_blocks : (s.updOp id g).blocks = s.blocks := rfl
@[simp] theorem State.updOp_gangs : (s.updOp id g).gangs = s.gangs := rfl
@[simp] theorem State.updOp_launches : (s.updOp id g).launches = s.launches := rfl
@[simp] theorem State.updOp_cores : (s.updOp id g).cores = s.cores := rfl
@[simp] theorem State.updOp_clusters : (s.updOp id g).clusters = s.clusters := rfl
@[simp] theorem State.updOp_dies : (s.updOp id g).dies = s.dies := rfl
@[simp] theorem State.updOp_ops : (s.updOp id g).ops = updWhere s.ops (fun o => o.id == id) g := rfl
@[simp] theorem State.updOp_lates : (s.updOp id g).lates = s.lates := rfl
@[simp] theorem State.updOp_redFails : (s.updOp id g).redFails = s.redFails := rfl
@[simp] theorem State.updOp_sessions : (s.updOp id g).sessions = s.sessions := rfl
@[simp] theorem State.updOp_heldRecs : (s.updOp id g).heldRecs = s.heldRecs := rfl
@[simp] theorem State.updOp_chimneys : (s.updOp id g).chimneys = s.chimneys := rfl
@[simp] theorem State.updOp_copied : (s.updOp id g).copied = s.copied := rfl
@[simp] theorem State.updOp_lostKeys : (s.updOp id g).lostKeys = s.lostKeys := rfl
@[simp] theorem State.updOp_freeKeys : (s.updOp id g).freeKeys = s.freeKeys := rfl
@[simp] theorem State.updOp_irqs : (s.updOp id g).irqs = s.irqs := rfl
@[simp] theorem State.updOp_outbox : (s.updOp id g).outbox = s.outbox := rfl
@[simp] theorem State.updOp_answers : (s.updOp id g).answers = s.answers := rfl
@[simp] theorem State.updOp_nextId : (s.updOp id g).nextId = s.nextId := rfl
@[simp] theorem State.updOp_run : (s.updOp id g).run = s.run := rfl
@[simp] theorem State.updOp_agenda : (s.updOp id g).agenda = s.agenda := rfl
@[simp] theorem State.updOp_freeIdx : (s.updOp id g).freeIdx = s.freeIdx := rfl
@[simp] theorem State.updOp_recovery : (s.updOp id g).recovery = s.recovery := rfl
@[simp] theorem State.updOp_tripped : (s.updOp id g).tripped = s.tripped := rfl
@[simp] theorem State.updOp_version : (s.updOp id g).version = s.version := rfl
@[simp] theorem State.updOp_fusedKey : (s.updOp id g).fusedKey = s.fusedKey := rfl
@[simp] theorem State.updOp_installed : (s.updOp id g).installed = s.installed := rfl
@[simp] theorem State.updOp_verified : (s.updOp id g).verified = s.verified := rfl
@[simp] theorem State.updOp_newImage : (s.updOp id g).newImage = s.newImage := rfl
end updOp

section setCore
variable (s : State) (l : Loc) (c : Core)
@[simp] theorem State.setCore_mem : (s.setCore l c).mem = s.mem := rfl
@[simp] theorem State.setCore_badGranules : (s.setCore l c).badGranules = s.badGranules := rfl
@[simp] theorem State.setCore_badWords : (s.setCore l c).badWords = s.badWords := rfl
@[simp] theorem State.setCore_badVregs : (s.setCore l c).badVregs = s.badVregs := rfl
@[simp] theorem State.setCore_regs : (s.setCore l c).regs = s.regs := rfl
@[simp] theorem State.setCore_caps : (s.setCore l c).caps = s.caps := rfl
@[simp] theorem State.setCore_islCaps : (s.setCore l c).islCaps = s.islCaps := rfl
@[simp] theorem State.setCore_rise : (s.setCore l c).rise = s.rise := rfl
@[simp] theorem State.setCore_hot : (s.setCore l c).hot = s.hot := rfl
@[simp] theorem State.setCore_halfRate : (s.setCore l c).halfRate = s.halfRate := rfl
@[simp] theorem State.setCore_ns : (s.setCore l c).ns = s.ns := rfl
@[simp] theorem State.setCore_cyc : (s.setCore l c).cyc = s.cyc := rfl
@[simp] theorem State.setCore_ctxs : (s.setCore l c).ctxs = s.ctxs := rfl
@[simp] theorem State.setCore_blocks : (s.setCore l c).blocks = s.blocks := rfl
@[simp] theorem State.setCore_gangs : (s.setCore l c).gangs = s.gangs := rfl
@[simp] theorem State.setCore_launches : (s.setCore l c).launches = s.launches := rfl
@[simp] theorem State.setCore_cores : (s.setCore l c).cores = Table.set s.cores (coreKey l) c Core.reset := rfl
@[simp] theorem State.setCore_clusters : (s.setCore l c).clusters = s.clusters := rfl
@[simp] theorem State.setCore_dies : (s.setCore l c).dies = s.dies := rfl
@[simp] theorem State.setCore_ops : (s.setCore l c).ops = s.ops := rfl
@[simp] theorem State.setCore_lates : (s.setCore l c).lates = s.lates := rfl
@[simp] theorem State.setCore_redFails : (s.setCore l c).redFails = s.redFails := rfl
@[simp] theorem State.setCore_sessions : (s.setCore l c).sessions = s.sessions := rfl
@[simp] theorem State.setCore_heldRecs : (s.setCore l c).heldRecs = s.heldRecs := rfl
@[simp] theorem State.setCore_chimneys : (s.setCore l c).chimneys = s.chimneys := rfl
@[simp] theorem State.setCore_copied : (s.setCore l c).copied = s.copied := rfl
@[simp] theorem State.setCore_lostKeys : (s.setCore l c).lostKeys = s.lostKeys := rfl
@[simp] theorem State.setCore_freeKeys : (s.setCore l c).freeKeys = s.freeKeys := rfl
@[simp] theorem State.setCore_irqs : (s.setCore l c).irqs = s.irqs := rfl
@[simp] theorem State.setCore_outbox : (s.setCore l c).outbox = s.outbox := rfl
@[simp] theorem State.setCore_answers : (s.setCore l c).answers = s.answers := rfl
@[simp] theorem State.setCore_nextId : (s.setCore l c).nextId = s.nextId := rfl
@[simp] theorem State.setCore_run : (s.setCore l c).run = s.run := rfl
@[simp] theorem State.setCore_agenda : (s.setCore l c).agenda = s.agenda := rfl
@[simp] theorem State.setCore_freeIdx : (s.setCore l c).freeIdx = s.freeIdx := rfl
@[simp] theorem State.setCore_recovery : (s.setCore l c).recovery = s.recovery := rfl
@[simp] theorem State.setCore_tripped : (s.setCore l c).tripped = s.tripped := rfl
@[simp] theorem State.setCore_version : (s.setCore l c).version = s.version := rfl
@[simp] theorem State.setCore_fusedKey : (s.setCore l c).fusedKey = s.fusedKey := rfl
@[simp] theorem State.setCore_installed : (s.setCore l c).installed = s.installed := rfl
@[simp] theorem State.setCore_verified : (s.setCore l c).verified = s.verified := rfl
@[simp] theorem State.setCore_newImage : (s.setCore l c).newImage = s.newImage := rfl
end setCore

section setCluster
variable (s : State) (k : Nat) (c : Cluster)
@[simp] theorem State.setCluster_mem : (s.setCluster k c).mem = s.mem := rfl
@[simp] theorem State.setCluster_badGranules : (s.setCluster k c).badGranules = s.badGranules := rfl
@[simp] theorem State.setCluster_badWords : (s.setCluster k c).badWords = s.badWords := rfl
@[simp] theorem State.setCluster_badVregs : (s.setCluster k c).badVregs = s.badVregs := rfl
@[simp] theorem State.setCluster_regs : (s.setCluster k c).regs = s.regs := rfl
@[simp] theorem State.setCluster_caps : (s.setCluster k c).caps = s.caps := rfl
@[simp] theorem State.setCluster_islCaps : (s.setCluster k c).islCaps = s.islCaps := rfl
@[simp] theorem State.setCluster_rise : (s.setCluster k c).rise = s.rise := rfl
@[simp] theorem State.setCluster_hot : (s.setCluster k c).hot = s.hot := rfl
@[simp] theorem State.setCluster_halfRate : (s.setCluster k c).halfRate = s.halfRate := rfl
@[simp] theorem State.setCluster_ns : (s.setCluster k c).ns = s.ns := rfl
@[simp] theorem State.setCluster_cyc : (s.setCluster k c).cyc = s.cyc := rfl
@[simp] theorem State.setCluster_ctxs : (s.setCluster k c).ctxs = s.ctxs := rfl
@[simp] theorem State.setCluster_blocks : (s.setCluster k c).blocks = s.blocks := rfl
@[simp] theorem State.setCluster_gangs : (s.setCluster k c).gangs = s.gangs := rfl
@[simp] theorem State.setCluster_launches : (s.setCluster k c).launches = s.launches := rfl
@[simp] theorem State.setCluster_cores : (s.setCluster k c).cores = s.cores := rfl
@[simp] theorem State.setCluster_clusters : (s.setCluster k c).clusters = Table.set s.clusters k c Cluster.reset := rfl
@[simp] theorem State.setCluster_dies : (s.setCluster k c).dies = s.dies := rfl
@[simp] theorem State.setCluster_ops : (s.setCluster k c).ops = s.ops := rfl
@[simp] theorem State.setCluster_lates : (s.setCluster k c).lates = s.lates := rfl
@[simp] theorem State.setCluster_redFails : (s.setCluster k c).redFails = s.redFails := rfl
@[simp] theorem State.setCluster_sessions : (s.setCluster k c).sessions = s.sessions := rfl
@[simp] theorem State.setCluster_heldRecs : (s.setCluster k c).heldRecs = s.heldRecs := rfl
@[simp] theorem State.setCluster_chimneys : (s.setCluster k c).chimneys = s.chimneys := rfl
@[simp] theorem State.setCluster_copied : (s.setCluster k c).copied = s.copied := rfl
@[simp] theorem State.setCluster_lostKeys : (s.setCluster k c).lostKeys = s.lostKeys := rfl
@[simp] theorem State.setCluster_freeKeys : (s.setCluster k c).freeKeys = s.freeKeys := rfl
@[simp] theorem State.setCluster_irqs : (s.setCluster k c).irqs = s.irqs := rfl
@[simp] theorem State.setCluster_outbox : (s.setCluster k c).outbox = s.outbox := rfl
@[simp] theorem State.setCluster_answers : (s.setCluster k c).answers = s.answers := rfl
@[simp] theorem State.setCluster_nextId : (s.setCluster k c).nextId = s.nextId := rfl
@[simp] theorem State.setCluster_run : (s.setCluster k c).run = s.run := rfl
@[simp] theorem State.setCluster_agenda : (s.setCluster k c).agenda = s.agenda := rfl
@[simp] theorem State.setCluster_freeIdx : (s.setCluster k c).freeIdx = s.freeIdx := rfl
@[simp] theorem State.setCluster_recovery : (s.setCluster k c).recovery = s.recovery := rfl
@[simp] theorem State.setCluster_tripped : (s.setCluster k c).tripped = s.tripped := rfl
@[simp] theorem State.setCluster_version : (s.setCluster k c).version = s.version := rfl
@[simp] theorem State.setCluster_fusedKey : (s.setCluster k c).fusedKey = s.fusedKey := rfl
@[simp] theorem State.setCluster_installed : (s.setCluster k c).installed = s.installed := rfl
@[simp] theorem State.setCluster_verified : (s.setCluster k c).verified = s.verified := rfl
@[simp] theorem State.setCluster_newImage : (s.setCluster k c).newImage = s.newImage := rfl
end setCluster

section setDie
variable (s : State) (d : Nat) (x : Die)
@[simp] theorem State.setDie_mem : (s.setDie d x).mem = s.mem := rfl
@[simp] theorem State.setDie_badGranules : (s.setDie d x).badGranules = s.badGranules := rfl
@[simp] theorem State.setDie_badWords : (s.setDie d x).badWords = s.badWords := rfl
@[simp] theorem State.setDie_badVregs : (s.setDie d x).badVregs = s.badVregs := rfl
@[simp] theorem State.setDie_regs : (s.setDie d x).regs = s.regs := rfl
@[simp] theorem State.setDie_caps : (s.setDie d x).caps = s.caps := rfl
@[simp] theorem State.setDie_islCaps : (s.setDie d x).islCaps = s.islCaps := rfl
@[simp] theorem State.setDie_rise : (s.setDie d x).rise = s.rise := rfl
@[simp] theorem State.setDie_hot : (s.setDie d x).hot = s.hot := rfl
@[simp] theorem State.setDie_halfRate : (s.setDie d x).halfRate = s.halfRate := rfl
@[simp] theorem State.setDie_ns : (s.setDie d x).ns = s.ns := rfl
@[simp] theorem State.setDie_cyc : (s.setDie d x).cyc = s.cyc := rfl
@[simp] theorem State.setDie_ctxs : (s.setDie d x).ctxs = s.ctxs := rfl
@[simp] theorem State.setDie_blocks : (s.setDie d x).blocks = s.blocks := rfl
@[simp] theorem State.setDie_gangs : (s.setDie d x).gangs = s.gangs := rfl
@[simp] theorem State.setDie_launches : (s.setDie d x).launches = s.launches := rfl
@[simp] theorem State.setDie_cores : (s.setDie d x).cores = s.cores := rfl
@[simp] theorem State.setDie_clusters : (s.setDie d x).clusters = s.clusters := rfl
@[simp] theorem State.setDie_dies : (s.setDie d x).dies = Table.set s.dies d x Die.reset := rfl
@[simp] theorem State.setDie_ops : (s.setDie d x).ops = s.ops := rfl
@[simp] theorem State.setDie_lates : (s.setDie d x).lates = s.lates := rfl
@[simp] theorem State.setDie_redFails : (s.setDie d x).redFails = s.redFails := rfl
@[simp] theorem State.setDie_sessions : (s.setDie d x).sessions = s.sessions := rfl
@[simp] theorem State.setDie_heldRecs : (s.setDie d x).heldRecs = s.heldRecs := rfl
@[simp] theorem State.setDie_chimneys : (s.setDie d x).chimneys = s.chimneys := rfl
@[simp] theorem State.setDie_copied : (s.setDie d x).copied = s.copied := rfl
@[simp] theorem State.setDie_lostKeys : (s.setDie d x).lostKeys = s.lostKeys := rfl
@[simp] theorem State.setDie_freeKeys : (s.setDie d x).freeKeys = s.freeKeys := rfl
@[simp] theorem State.setDie_irqs : (s.setDie d x).irqs = s.irqs := rfl
@[simp] theorem State.setDie_outbox : (s.setDie d x).outbox = s.outbox := rfl
@[simp] theorem State.setDie_answers : (s.setDie d x).answers = s.answers := rfl
@[simp] theorem State.setDie_nextId : (s.setDie d x).nextId = s.nextId := rfl
@[simp] theorem State.setDie_run : (s.setDie d x).run = s.run := rfl
@[simp] theorem State.setDie_agenda : (s.setDie d x).agenda = s.agenda := rfl
@[simp] theorem State.setDie_freeIdx : (s.setDie d x).freeIdx = s.freeIdx := rfl
@[simp] theorem State.setDie_recovery : (s.setDie d x).recovery = s.recovery := rfl
@[simp] theorem State.setDie_tripped : (s.setDie d x).tripped = s.tripped := rfl
@[simp] theorem State.setDie_version : (s.setDie d x).version = s.version := rfl
@[simp] theorem State.setDie_fusedKey : (s.setDie d x).fusedKey = s.fusedKey := rfl
@[simp] theorem State.setDie_installed : (s.setDie d x).installed = s.installed := rfl
@[simp] theorem State.setDie_verified : (s.setDie d x).verified = s.verified := rfl
@[simp] theorem State.setDie_newImage : (s.setDie d x).newImage = s.newImage := rfl
end setDie

section setReg
variable (s : State) (die off : Nat) (v : W64)
@[simp] theorem State.setReg_mem : (s.setReg die off v).mem = s.mem := rfl
@[simp] theorem State.setReg_badGranules : (s.setReg die off v).badGranules = s.badGranules := rfl
@[simp] theorem State.setReg_badWords : (s.setReg die off v).badWords = s.badWords := rfl
@[simp] theorem State.setReg_badVregs : (s.setReg die off v).badVregs = s.badVregs := rfl
@[simp] theorem State.setReg_regs : (s.setReg die off v).regs = Table.set s.regs (die * 2 ^ 24 + off) v (regReset off) := rfl
@[simp] theorem State.setReg_caps : (s.setReg die off v).caps = s.caps := rfl
@[simp] theorem State.setReg_islCaps : (s.setReg die off v).islCaps = s.islCaps := rfl
@[simp] theorem State.setReg_rise : (s.setReg die off v).rise = s.rise := rfl
@[simp] theorem State.setReg_hot : (s.setReg die off v).hot = s.hot := rfl
@[simp] theorem State.setReg_halfRate : (s.setReg die off v).halfRate = s.halfRate := rfl
@[simp] theorem State.setReg_ns : (s.setReg die off v).ns = s.ns := rfl
@[simp] theorem State.setReg_cyc : (s.setReg die off v).cyc = s.cyc := rfl
@[simp] theorem State.setReg_ctxs : (s.setReg die off v).ctxs = s.ctxs := rfl
@[simp] theorem State.setReg_blocks : (s.setReg die off v).blocks = s.blocks := rfl
@[simp] theorem State.setReg_gangs : (s.setReg die off v).gangs = s.gangs := rfl
@[simp] theorem State.setReg_launches : (s.setReg die off v).launches = s.launches := rfl
@[simp] theorem State.setReg_cores : (s.setReg die off v).cores = s.cores := rfl
@[simp] theorem State.setReg_clusters : (s.setReg die off v).clusters = s.clusters := rfl
@[simp] theorem State.setReg_dies : (s.setReg die off v).dies = s.dies := rfl
@[simp] theorem State.setReg_ops : (s.setReg die off v).ops = s.ops := rfl
@[simp] theorem State.setReg_lates : (s.setReg die off v).lates = s.lates := rfl
@[simp] theorem State.setReg_redFails : (s.setReg die off v).redFails = s.redFails := rfl
@[simp] theorem State.setReg_sessions : (s.setReg die off v).sessions = s.sessions := rfl
@[simp] theorem State.setReg_heldRecs : (s.setReg die off v).heldRecs = s.heldRecs := rfl
@[simp] theorem State.setReg_chimneys : (s.setReg die off v).chimneys = s.chimneys := rfl
@[simp] theorem State.setReg_copied : (s.setReg die off v).copied = s.copied := rfl
@[simp] theorem State.setReg_lostKeys : (s.setReg die off v).lostKeys = s.lostKeys := rfl
@[simp] theorem State.setReg_freeKeys : (s.setReg die off v).freeKeys = s.freeKeys := rfl
@[simp] theorem State.setReg_irqs : (s.setReg die off v).irqs = s.irqs := rfl
@[simp] theorem State.setReg_outbox : (s.setReg die off v).outbox = s.outbox := rfl
@[simp] theorem State.setReg_answers : (s.setReg die off v).answers = s.answers := rfl
@[simp] theorem State.setReg_nextId : (s.setReg die off v).nextId = s.nextId := rfl
@[simp] theorem State.setReg_run : (s.setReg die off v).run = s.run := rfl
@[simp] theorem State.setReg_agenda : (s.setReg die off v).agenda = s.agenda := rfl
@[simp] theorem State.setReg_freeIdx : (s.setReg die off v).freeIdx = s.freeIdx := rfl
@[simp] theorem State.setReg_recovery : (s.setReg die off v).recovery = s.recovery := rfl
@[simp] theorem State.setReg_tripped : (s.setReg die off v).tripped = s.tripped := rfl
@[simp] theorem State.setReg_version : (s.setReg die off v).version = s.version := rfl
@[simp] theorem State.setReg_fusedKey : (s.setReg die off v).fusedKey = s.fusedKey := rfl
@[simp] theorem State.setReg_installed : (s.setReg die off v).installed = s.installed := rfl
@[simp] theorem State.setReg_verified : (s.setReg die off v).verified = s.verified := rfl
@[simp] theorem State.setReg_newImage : (s.setReg die off v).newImage = s.newImage := rfl
end setReg

section answer
variable (s : State) (ws : List W64)
@[simp] theorem State.answer_mem : (s.answer ws).mem = s.mem := rfl
@[simp] theorem State.answer_badGranules : (s.answer ws).badGranules = s.badGranules := rfl
@[simp] theorem State.answer_badWords : (s.answer ws).badWords = s.badWords := rfl
@[simp] theorem State.answer_badVregs : (s.answer ws).badVregs = s.badVregs := rfl
@[simp] theorem State.answer_regs : (s.answer ws).regs = s.regs := rfl
@[simp] theorem State.answer_caps : (s.answer ws).caps = s.caps := rfl
@[simp] theorem State.answer_islCaps : (s.answer ws).islCaps = s.islCaps := rfl
@[simp] theorem State.answer_rise : (s.answer ws).rise = s.rise := rfl
@[simp] theorem State.answer_hot : (s.answer ws).hot = s.hot := rfl
@[simp] theorem State.answer_halfRate : (s.answer ws).halfRate = s.halfRate := rfl
@[simp] theorem State.answer_ns : (s.answer ws).ns = s.ns := rfl
@[simp] theorem State.answer_cyc : (s.answer ws).cyc = s.cyc := rfl
@[simp] theorem State.answer_ctxs : (s.answer ws).ctxs = s.ctxs := rfl
@[simp] theorem State.answer_blocks : (s.answer ws).blocks = s.blocks := rfl
@[simp] theorem State.answer_gangs : (s.answer ws).gangs = s.gangs := rfl
@[simp] theorem State.answer_launches : (s.answer ws).launches = s.launches := rfl
@[simp] theorem State.answer_cores : (s.answer ws).cores = s.cores := rfl
@[simp] theorem State.answer_clusters : (s.answer ws).clusters = s.clusters := rfl
@[simp] theorem State.answer_dies : (s.answer ws).dies = s.dies := rfl
@[simp] theorem State.answer_ops : (s.answer ws).ops = s.ops := rfl
@[simp] theorem State.answer_lates : (s.answer ws).lates = s.lates := rfl
@[simp] theorem State.answer_redFails : (s.answer ws).redFails = s.redFails := rfl
@[simp] theorem State.answer_sessions : (s.answer ws).sessions = s.sessions := rfl
@[simp] theorem State.answer_heldRecs : (s.answer ws).heldRecs = s.heldRecs := rfl
@[simp] theorem State.answer_chimneys : (s.answer ws).chimneys = s.chimneys := rfl
@[simp] theorem State.answer_copied : (s.answer ws).copied = s.copied := rfl
@[simp] theorem State.answer_lostKeys : (s.answer ws).lostKeys = s.lostKeys := rfl
@[simp] theorem State.answer_freeKeys : (s.answer ws).freeKeys = s.freeKeys := rfl
@[simp] theorem State.answer_irqs : (s.answer ws).irqs = s.irqs := rfl
@[simp] theorem State.answer_outbox : (s.answer ws).outbox = s.outbox := rfl
@[simp] theorem State.answer_answers : (s.answer ws).answers = s.answers ++ ws := rfl
@[simp] theorem State.answer_nextId : (s.answer ws).nextId = s.nextId := rfl
@[simp] theorem State.answer_run : (s.answer ws).run = s.run := rfl
@[simp] theorem State.answer_agenda : (s.answer ws).agenda = s.agenda := rfl
@[simp] theorem State.answer_freeIdx : (s.answer ws).freeIdx = s.freeIdx := rfl
@[simp] theorem State.answer_recovery : (s.answer ws).recovery = s.recovery := rfl
@[simp] theorem State.answer_tripped : (s.answer ws).tripped = s.tripped := rfl
@[simp] theorem State.answer_version : (s.answer ws).version = s.version := rfl
@[simp] theorem State.answer_fusedKey : (s.answer ws).fusedKey = s.fusedKey := rfl
@[simp] theorem State.answer_installed : (s.answer ws).installed = s.installed := rfl
@[simp] theorem State.answer_verified : (s.answer ws).verified = s.verified := rfl
@[simp] theorem State.answer_newImage : (s.answer ws).newImage = s.newImage := rfl
end answer

section wrV
variable (c : Ctx) (n l : Nat) (x : W32)
@[simp] theorem Ctx.wrV_id : (c.wrV n l x).id = c.id := rfl
@[simp] theorem Ctx.wrV_kind : (c.wrV n l x).kind = c.kind := rfl
@[simp] theorem Ctx.wrV_launch : (c.wrV n l x).launch = c.launch := rfl
@[simp] theorem Ctx.wrV_gang : (c.wrV n l x).gang = c.gang := rfl
@[simp] theorem Ctx.wrV_block : (c.wrV n l x).block = c.block := rfl
@[simp] theorem Ctx.wrV_warp : (c.wrV n l x).warp = c.warp := rfl
@[simp] theorem Ctx.wrV_loc : (c.wrV n l x).loc = c.loc := rfl
@[simp] theorem Ctx.wrV_slotNo : (c.wrV n l x).slotNo = c.slotNo := rfl
@[simp] theorem Ctx.wrV_width : (c.wrV n l x).width = c.width := rfl
@[simp] theorem Ctx.wrV_vregs : (c.wrV n l x).vregs = c.vregs := rfl
@[simp] theorem Ctx.wrV_lanes : (c.wrV n l x).lanes = c.lanes := rfl
@[simp] theorem Ctx.wrV_v : (c.wrV n l x).v = Table.set c.v (64 * n + l) x 0 := rfl
@[simp] theorem Ctx.wrV_s : (c.wrV n l x).s = c.s := rfl
@[simp] theorem Ctx.wrV_p : (c.wrV n l x).p = c.p := rfl
@[simp] theorem Ctx.wrV_m : (c.wrV n l x).m = c.m := rfl
@[simp] theorem Ctx.wrV_tok : (c.wrV n l x).tok = c.tok := rfl
@[simp] theorem Ctx.wrV_sr : (c.wrV n l x).sr = c.sr := rfl
@[simp] theorem Ctx.wrV_last : (c.wrV n l x).last = c.last := rfl
@[simp] theorem Ctx.wrV_commitQ : (c.wrV n l x).commitQ = c.commitQ := rfl
@[simp] theorem Ctx.wrV_npay : (c.wrV n l x).npay = c.npay := rfl
@[simp] theorem Ctx.wrV_spqLast : (c.wrV n l x).spqLast = c.spqLast := rfl
@[simp] theorem Ctx.wrV_coreMask : (c.wrV n l x).coreMask = c.coreMask := rfl
@[simp] theorem Ctx.wrV_seqNo : (c.wrV n l x).seqNo = c.seqNo := rfl
@[simp] theorem Ctx.wrV_behind : (c.wrV n l x).behind = c.behind := rfl
@[simp] theorem Ctx.wrV_traceSync : (c.wrV n l x).traceSync = c.traceSync := rfl
@[simp] theorem Ctx.wrV_traceLost : (c.wrV n l x).traceLost = c.traceLost := rfl
@[simp] theorem Ctx.wrV_saved : (c.wrV n l x).saved = c.saved := rfl
@[simp] theorem Ctx.wrV_image : (c.wrV n l x).image = c.image := rfl
@[simp] theorem Ctx.wrV_waitSince : (c.wrV n l x).waitSince = c.waitSince := rfl
@[simp] theorem Ctx.wrV_cost : (c.wrV n l x).cost = c.cost := rfl
@[simp] theorem Ctx.wrV_fileAt : (c.wrV n l x).fileAt = c.fileAt := rfl
@[simp] theorem Ctx.wrV_streak : (c.wrV n l x).streak = c.streak := rfl
@[simp] theorem Ctx.wrV_passed : (c.wrV n l x).passed = c.passed := rfl
@[simp] theorem Ctx.wrV_stopReq : (c.wrV n l x).stopReq = c.stopReq := rfl
@[simp] theorem Ctx.wrV_ended : (c.wrV n l x).ended = c.ended := rfl
end wrV

section wrS
variable (c : Ctx) (n : Nat) (x : W64)
@[simp] theorem Ctx.wrS_id : (c.wrS n x).id = c.id := rfl
@[simp] theorem Ctx.wrS_kind : (c.wrS n x).kind = c.kind := rfl
@[simp] theorem Ctx.wrS_launch : (c.wrS n x).launch = c.launch := rfl
@[simp] theorem Ctx.wrS_gang : (c.wrS n x).gang = c.gang := rfl
@[simp] theorem Ctx.wrS_block : (c.wrS n x).block = c.block := rfl
@[simp] theorem Ctx.wrS_warp : (c.wrS n x).warp = c.warp := rfl
@[simp] theorem Ctx.wrS_loc : (c.wrS n x).loc = c.loc := rfl
@[simp] theorem Ctx.wrS_slotNo : (c.wrS n x).slotNo = c.slotNo := rfl
@[simp] theorem Ctx.wrS_width : (c.wrS n x).width = c.width := rfl
@[simp] theorem Ctx.wrS_vregs : (c.wrS n x).vregs = c.vregs := rfl
@[simp] theorem Ctx.wrS_lanes : (c.wrS n x).lanes = c.lanes := rfl
@[simp] theorem Ctx.wrS_v : (c.wrS n x).v = c.v := rfl
@[simp] theorem Ctx.wrS_s : (c.wrS n x).s = Table.set c.s n x 0 := rfl
@[simp] theorem Ctx.wrS_p : (c.wrS n x).p = c.p := rfl
@[simp] theorem Ctx.wrS_m : (c.wrS n x).m = c.m := rfl
@[simp] theorem Ctx.wrS_tok : (c.wrS n x).tok = c.tok := rfl
@[simp] theorem Ctx.wrS_sr : (c.wrS n x).sr = c.sr := rfl
@[simp] theorem Ctx.wrS_last : (c.wrS n x).last = c.last := rfl
@[simp] theorem Ctx.wrS_commitQ : (c.wrS n x).commitQ = c.commitQ := rfl
@[simp] theorem Ctx.wrS_npay : (c.wrS n x).npay = c.npay := rfl
@[simp] theorem Ctx.wrS_spqLast : (c.wrS n x).spqLast = c.spqLast := rfl
@[simp] theorem Ctx.wrS_coreMask : (c.wrS n x).coreMask = c.coreMask := rfl
@[simp] theorem Ctx.wrS_seqNo : (c.wrS n x).seqNo = c.seqNo := rfl
@[simp] theorem Ctx.wrS_behind : (c.wrS n x).behind = c.behind := rfl
@[simp] theorem Ctx.wrS_traceSync : (c.wrS n x).traceSync = c.traceSync := rfl
@[simp] theorem Ctx.wrS_traceLost : (c.wrS n x).traceLost = c.traceLost := rfl
@[simp] theorem Ctx.wrS_saved : (c.wrS n x).saved = c.saved := rfl
@[simp] theorem Ctx.wrS_image : (c.wrS n x).image = c.image := rfl
@[simp] theorem Ctx.wrS_waitSince : (c.wrS n x).waitSince = c.waitSince := rfl
@[simp] theorem Ctx.wrS_cost : (c.wrS n x).cost = c.cost := rfl
@[simp] theorem Ctx.wrS_fileAt : (c.wrS n x).fileAt = c.fileAt := rfl
@[simp] theorem Ctx.wrS_streak : (c.wrS n x).streak = c.streak := rfl
@[simp] theorem Ctx.wrS_passed : (c.wrS n x).passed = c.passed := rfl
@[simp] theorem Ctx.wrS_stopReq : (c.wrS n x).stopReq = c.stopReq := rfl
@[simp] theorem Ctx.wrS_ended : (c.wrS n x).ended = c.ended := rfl
end wrS

section wrM
variable (c : Ctx) (n : Nat) (x : W64)
@[simp] theorem Ctx.wrM_id : (c.wrM n x).id = c.id := rfl
@[simp] theorem Ctx.wrM_kind : (c.wrM n x).kind = c.kind := rfl
@[simp] theorem Ctx.wrM_launch : (c.wrM n x).launch = c.launch := rfl
@[simp] theorem Ctx.wrM_gang : (c.wrM n x).gang = c.gang := rfl
@[simp] theorem Ctx.wrM_block : (c.wrM n x).block = c.block := rfl
@[simp] theorem Ctx.wrM_warp : (c.wrM n x).warp = c.warp := rfl
@[simp] theorem Ctx.wrM_loc : (c.wrM n x).loc = c.loc := rfl
@[simp] theorem Ctx.wrM_slotNo : (c.wrM n x).slotNo = c.slotNo := rfl
@[simp] theorem Ctx.wrM_width : (c.wrM n x).width = c.width := rfl
@[simp] theorem Ctx.wrM_vregs : (c.wrM n x).vregs = c.vregs := rfl
@[simp] theorem Ctx.wrM_lanes : (c.wrM n x).lanes = c.lanes := rfl
@[simp] theorem Ctx.wrM_v : (c.wrM n x).v = c.v := rfl
@[simp] theorem Ctx.wrM_s : (c.wrM n x).s = c.s := rfl
@[simp] theorem Ctx.wrM_p : (c.wrM n x).p = c.p := rfl
@[simp] theorem Ctx.wrM_m : (c.wrM n x).m = Table.set c.m n (x &&& c.widthMask) 0 := rfl
@[simp] theorem Ctx.wrM_tok : (c.wrM n x).tok = c.tok := rfl
@[simp] theorem Ctx.wrM_sr : (c.wrM n x).sr = c.sr := rfl
@[simp] theorem Ctx.wrM_last : (c.wrM n x).last = c.last := rfl
@[simp] theorem Ctx.wrM_commitQ : (c.wrM n x).commitQ = c.commitQ := rfl
@[simp] theorem Ctx.wrM_npay : (c.wrM n x).npay = c.npay := rfl
@[simp] theorem Ctx.wrM_spqLast : (c.wrM n x).spqLast = c.spqLast := rfl
@[simp] theorem Ctx.wrM_coreMask : (c.wrM n x).coreMask = c.coreMask := rfl
@[simp] theorem Ctx.wrM_seqNo : (c.wrM n x).seqNo = c.seqNo := rfl
@[simp] theorem Ctx.wrM_behind : (c.wrM n x).behind = c.behind := rfl
@[simp] theorem Ctx.wrM_traceSync : (c.wrM n x).traceSync = c.traceSync := rfl
@[simp] theorem Ctx.wrM_traceLost : (c.wrM n x).traceLost = c.traceLost := rfl
@[simp] theorem Ctx.wrM_saved : (c.wrM n x).saved = c.saved := rfl
@[simp] theorem Ctx.wrM_image : (c.wrM n x).image = c.image := rfl
@[simp] theorem Ctx.wrM_waitSince : (c.wrM n x).waitSince = c.waitSince := rfl
@[simp] theorem Ctx.wrM_cost : (c.wrM n x).cost = c.cost := rfl
@[simp] theorem Ctx.wrM_fileAt : (c.wrM n x).fileAt = c.fileAt := rfl
@[simp] theorem Ctx.wrM_streak : (c.wrM n x).streak = c.streak := rfl
@[simp] theorem Ctx.wrM_passed : (c.wrM n x).passed = c.passed := rfl
@[simp] theorem Ctx.wrM_stopReq : (c.wrM n x).stopReq = c.stopReq := rfl
@[simp] theorem Ctx.wrM_ended : (c.wrM n x).ended = c.ended := rfl
end wrM

section wrTok
variable (c : Ctx) (k : Nat) (t : TokSt)
@[simp] theorem Ctx.wrTok_id : (c.wrTok k t).id = c.id := rfl
@[simp] theorem Ctx.wrTok_kind : (c.wrTok k t).kind = c.kind := rfl
@[simp] theorem Ctx.wrTok_launch : (c.wrTok k t).launch = c.launch := rfl
@[simp] theorem Ctx.wrTok_gang : (c.wrTok k t).gang = c.gang := rfl
@[simp] theorem Ctx.wrTok_block : (c.wrTok k t).block = c.block := rfl
@[simp] theorem Ctx.wrTok_warp : (c.wrTok k t).warp = c.warp := rfl
@[simp] theorem Ctx.wrTok_loc : (c.wrTok k t).loc = c.loc := rfl
@[simp] theorem Ctx.wrTok_slotNo : (c.wrTok k t).slotNo = c.slotNo := rfl
@[simp] theorem Ctx.wrTok_width : (c.wrTok k t).width = c.width := rfl
@[simp] theorem Ctx.wrTok_vregs : (c.wrTok k t).vregs = c.vregs := rfl
@[simp] theorem Ctx.wrTok_lanes : (c.wrTok k t).lanes = c.lanes := rfl
@[simp] theorem Ctx.wrTok_v : (c.wrTok k t).v = c.v := rfl
@[simp] theorem Ctx.wrTok_s : (c.wrTok k t).s = c.s := rfl
@[simp] theorem Ctx.wrTok_p : (c.wrTok k t).p = c.p := rfl
@[simp] theorem Ctx.wrTok_m : (c.wrTok k t).m = c.m := rfl
@[simp] theorem Ctx.wrTok_tok : (c.wrTok k t).tok = Table.set c.tok k t .free := rfl
@[simp] theorem Ctx.wrTok_sr : (c.wrTok k t).sr = c.sr := rfl
@[simp] theorem Ctx.wrTok_last : (c.wrTok k t).last = c.last := rfl
@[simp] theorem Ctx.wrTok_commitQ : (c.wrTok k t).commitQ = c.commitQ := rfl
@[simp] theorem Ctx.wrTok_npay : (c.wrTok k t).npay = c.npay := rfl
@[simp] theorem Ctx.wrTok_spqLast : (c.wrTok k t).spqLast = c.spqLast := rfl
@[simp] theorem Ctx.wrTok_coreMask : (c.wrTok k t).coreMask = c.coreMask := rfl
@[simp] theorem Ctx.wrTok_seqNo : (c.wrTok k t).seqNo = c.seqNo := rfl
@[simp] theorem Ctx.wrTok_behind : (c.wrTok k t).behind = c.behind := rfl
@[simp] theorem Ctx.wrTok_traceSync : (c.wrTok k t).traceSync = c.traceSync := rfl
@[simp] theorem Ctx.wrTok_traceLost : (c.wrTok k t).traceLost = c.traceLost := rfl
@[simp] theorem Ctx.wrTok_saved : (c.wrTok k t).saved = c.saved := rfl
@[simp] theorem Ctx.wrTok_image : (c.wrTok k t).image = c.image := rfl
@[simp] theorem Ctx.wrTok_waitSince : (c.wrTok k t).waitSince = c.waitSince := rfl
@[simp] theorem Ctx.wrTok_cost : (c.wrTok k t).cost = c.cost := rfl
@[simp] theorem Ctx.wrTok_fileAt : (c.wrTok k t).fileAt = c.fileAt := rfl
@[simp] theorem Ctx.wrTok_streak : (c.wrTok k t).streak = c.streak := rfl
@[simp] theorem Ctx.wrTok_passed : (c.wrTok k t).passed = c.passed := rfl
@[simp] theorem Ctx.wrTok_stopReq : (c.wrTok k t).stopReq = c.stopReq := rfl
@[simp] theorem Ctx.wrTok_ended : (c.wrTok k t).ended = c.ended := rfl
end wrTok

section updLane
variable (c : Ctx) (l : Nat) (g : Lane → Lane)
@[simp] theorem Ctx.updLane_id : (c.updLane l g).id = c.id := rfl
@[simp] theorem Ctx.updLane_kind : (c.updLane l g).kind = c.kind := rfl
@[simp] theorem Ctx.updLane_launch : (c.updLane l g).launch = c.launch := rfl
@[simp] theorem Ctx.updLane_gang : (c.updLane l g).gang = c.gang := rfl
@[simp] theorem Ctx.updLane_block : (c.updLane l g).block = c.block := rfl
@[simp] theorem Ctx.updLane_warp : (c.updLane l g).warp = c.warp := rfl
@[simp] theorem Ctx.updLane_loc : (c.updLane l g).loc = c.loc := rfl
@[simp] theorem Ctx.updLane_slotNo : (c.updLane l g).slotNo = c.slotNo := rfl
@[simp] theorem Ctx.updLane_width : (c.updLane l g).width = c.width := rfl
@[simp] theorem Ctx.updLane_vregs : (c.updLane l g).vregs = c.vregs := rfl
@[simp] theorem Ctx.updLane_lanes : (c.updLane l g).lanes = setNth c.lanes l (g (c.lane l)) := rfl
@[simp] theorem Ctx.updLane_v : (c.updLane l g).v = c.v := rfl
@[simp] theorem Ctx.updLane_s : (c.updLane l g).s = c.s := rfl
@[simp] theorem Ctx.updLane_p : (c.updLane l g).p = c.p := rfl
@[simp] theorem Ctx.updLane_m : (c.updLane l g).m = c.m := rfl
@[simp] theorem Ctx.updLane_tok : (c.updLane l g).tok = c.tok := rfl
@[simp] theorem Ctx.updLane_sr : (c.updLane l g).sr = c.sr := rfl
@[simp] theorem Ctx.updLane_last : (c.updLane l g).last = c.last := rfl
@[simp] theorem Ctx.updLane_commitQ : (c.updLane l g).commitQ = c.commitQ := rfl
@[simp] theorem Ctx.updLane_npay : (c.updLane l g).npay = c.npay := rfl
@[simp] theorem Ctx.updLane_spqLast : (c.updLane l g).spqLast = c.spqLast := rfl
@[simp] theorem Ctx.updLane_coreMask : (c.updLane l g).coreMask = c.coreMask := rfl
@[simp] theorem Ctx.updLane_seqNo : (c.updLane l g).seqNo = c.seqNo := rfl
@[simp] theorem Ctx.updLane_behind : (c.updLane l g).behind = c.behind := rfl
@[simp] theorem Ctx.updLane_traceSync : (c.updLane l g).traceSync = c.traceSync := rfl
@[simp] theorem Ctx.updLane_traceLost : (c.updLane l g).traceLost = c.traceLost := rfl
@[simp] theorem Ctx.updLane_saved : (c.updLane l g).saved = c.saved := rfl
@[simp] theorem Ctx.updLane_image : (c.updLane l g).image = c.image := rfl
@[simp] theorem Ctx.updLane_waitSince : (c.updLane l g).waitSince = c.waitSince := rfl
@[simp] theorem Ctx.updLane_cost : (c.updLane l g).cost = c.cost := rfl
@[simp] theorem Ctx.updLane_fileAt : (c.updLane l g).fileAt = c.fileAt := rfl
@[simp] theorem Ctx.updLane_streak : (c.updLane l g).streak = c.streak := rfl
@[simp] theorem Ctx.updLane_passed : (c.updLane l g).passed = c.passed := rfl
@[simp] theorem Ctx.updLane_stopReq : (c.updLane l g).stopReq = c.stopReq := rfl
@[simp] theorem Ctx.updLane_ended : (c.updLane l g).ended = c.ended := rfl
end updLane

/-- A write of a predicate changes nothing but the predicates. -/
theorem Ctx.wrP_eq (c : Ctx) (n l : Nat) (x : Bool) : c.wrP n l x = { c with p := (c.wrP n l x).p } := by
  unfold Ctx.wrP; split <;> rfl

end Sys2Proof.Machine
end

