-- ==== Sys2Proof/Laws/Tables.lean ====
section
/-! SUPPORT. The laws of sparse tables: reading after writing, the canonical form and what it gives, lists by position. -/

namespace Sys2Proof.Machine

variable {α : Type} [DecidableEq α]

omit [DecidableEq α] in
@[simp] theorem Table.get_nil (k : Nat) (d : α) : Table.get [] k d = d := rfl

omit [DecidableEq α] in
@[simp] theorem Table.get_cons (j k : Nat) (x d : α) (r : List (Nat × α)) :
    Table.get ((j, x) :: r) k d = if j = k then x else Table.get r k d := rfl

omit [DecidableEq α] in
/-- Every key above a bound is above a lower one. -/
theorem Table.above_mono {j k : Nat} {t : List (Nat × α)} (h : Table.above k t = true) (hjk : j ≤ k) : Table.above j t = true := by
  simp only [Table.above, List.all_eq_true, decide_eq_true_eq] at h ⊢
  intro p hp
  have := h p hp
  omega

omit [DecidableEq α] in
/-- A key that every key of the table is above reads as the default. -/
theorem Table.get_of_above {k : Nat} {d : α} {t : List (Nat × α)} (h : Table.above k t = true) : Table.get t k d = d := by
  induction t with
  | nil => rfl
  | cons p r ih =>
    simp only [Table.above, List.all_cons, Bool.and_eq_true, decide_eq_true_eq] at h
    obtain ⟨j, x⟩ := p
    have h1 : j ≠ k := by simp only at h; omega
    simp only [Table.get_cons, h1, if_false]
    exact ih (by simpa [Table.above] using h.2)

/-- A write above a bound keeps every key above it. -/
theorem Table.above_set {b k : Nat} {x d : α} {t : List (Nat × α)} (h : Table.above b t = true) (hk : b < k) :
    Table.above b (Table.set t k x d) = true := by
  induction t with
  | nil => unfold Table.set; split <;> simp [Table.above, hk]
  | cons p r ih =>
    obtain ⟨j, y⟩ := p
    have h1 : b < j ∧ Table.above b r = true := by simpa [Table.above] using h
    unfold Table.set
    split
    · have := ih h1.2
      simp only [Table.above, List.all_cons, Bool.and_eq_true, decide_eq_true_eq] at this ⊢
      exact ⟨h1.1, this⟩
    · split
      · split
        · exact h1.2
        · simp only [Table.above, List.all_cons, Bool.and_eq_true, decide_eq_true_eq]
          exact ⟨hk, by simpa [Table.above] using h1.2⟩
      · split
        · exact h
        · simp only [Table.above, List.all_cons, Bool.and_eq_true, decide_eq_true_eq]
          exact ⟨hk, h1.1, by simpa [Table.above] using h1.2⟩

/-- A write keeps the canonical form. -/
theorem Table.wf_set {k : Nat} {x d : α} {t : List (Nat × α)} (h : Table.wf d t = true) : Table.wf d (Table.set t k x d) = true := by
  induction t with
  | nil => unfold Table.set; split <;> simp_all [Table.wf, Table.above]
  | cons p r ih =>
    obtain ⟨j, y⟩ := p
    simp only [Table.wf, Bool.and_eq_true, decide_eq_true_eq] at h
    obtain ⟨⟨h1, h2⟩, h3⟩ := h
    unfold Table.set
    split
    · simp only [Table.wf, Bool.and_eq_true, decide_eq_true_eq]
      exact ⟨⟨Table.above_set h1 ‹_›, h2⟩, ih h3⟩
    · split
      · split
        · exact h3
        · simp only [Table.wf, Bool.and_eq_true, decide_eq_true_eq]
          exact ⟨⟨‹j = k› ▸ h1, ‹_›⟩, h3⟩
      · split
        · simp only [Table.wf, Bool.and_eq_true, decide_eq_true_eq]
          exact ⟨⟨h1, h2⟩, h3⟩
        · simp only [Table.wf, Table.above, List.all_cons, Bool.and_eq_true, decide_eq_true_eq]
          refine ⟨⟨⟨by omega, ?_⟩, ‹_›⟩, ⟨⟨by simpa [Table.above] using h1, h2⟩, h3⟩⟩
          exact Table.above_mono h1 (by omega)

/-- Reading after a write, in a table in canonical form. -/
theorem Table.get_set {k : Nat} {x d : α} {t : List (Nat × α)} (h : Table.wf d t = true) (q : Nat) :
    Table.get (Table.set t k x d) q d = if q = k then x else Table.get t q d := by
  induction t with
  | nil =>
    unfold Table.set
    split
    · rename_i hx; subst hx; simp
    · simp only [Table.get_cons, Table.get_nil]; by_cases hq : k = q <;> simp [hq, eq_comm]
  | cons p r ih =>
    obtain ⟨j, y⟩ := p
    simp only [Table.wf, Bool.and_eq_true, decide_eq_true_eq] at h
    obtain ⟨⟨h1, h2⟩, h3⟩ := h
    unfold Table.set
    split
    · simp only [Table.get_cons, ih h3]
      by_cases hq : j = q
      · subst hq
        have : j ≠ k := by omega
        simp [this]
      · simp [hq]
    · split
      · rename_i hjk; subst hjk
        split
        · rename_i hx; subst hx
          by_cases hq : q = j
          · subst hq; simp [Table.get_of_above h1]
          · have : j ≠ q := fun e => hq e.symm
            simp [hq, this]
        · by_cases hq : q = j
          · subst hq; simp
          · have : j ≠ q := fun e => hq e.symm
            simp [hq, this]
      · have hkj : k < j := by omega
        split
        · rename_i hx; subst hx
          by_cases hq : q = k
          · subst hq
            have : j ≠ q := by omega
            simp [this, Table.get_of_above (Table.above_mono h1 (by omega : q ≤ j))]
          · simp [hq]
        · by_cases hq : q = k
          · subst hq; simp
          · have : k ≠ q := fun e => hq e.symm
            simp [hq, this]

omit [DecidableEq α] in
/-- An element within the list, at its position, is read back after it was put there. -/
theorem nth_setNth (l : List α) (i j : Nat) (x d : α) :
    nth (setNth l i x) j d = if i = j ∧ i < l.length then x else nth l j d := by
  induction l generalizing i j with
  | nil => simp [setNth, nth]
  | cons y r ih =>
    cases i with
    | zero => cases j <;> simp [setNth, nth]
    | succ i => cases j <;> simp [setNth, nth, ih]

omit [DecidableEq α] in
@[simp] theorem setNth_length (l : List α) (i : Nat) (x : α) : (setNth l i x).length = l.length := by
  induction l generalizing i with
  | nil => rfl
  | cons y r ih => cases i <;> simp [setNth, ih]

omit [DecidableEq α] in
/-- A table keeps its canonical form when entries are left out. -/
theorem Table.above_filter {b : Nat} {t : List (Nat × α)} (p : Nat × α → Bool) (h : Table.above b t = true) :
    Table.above b (t.filter p) = true := by
  simp only [Table.above, List.all_eq_true] at h ⊢
  exact fun x hx => h x (List.mem_of_mem_filter hx)

/-- A table keeps its canonical form when entries are left out. -/
theorem Table.wf_filter {d : α} {t : List (Nat × α)} (p : Nat × α → Bool) (h : Table.wf d t = true) :
    Table.wf d (t.filter p) = true := by
  induction t with
  | nil => rfl
  | cons q r ih =>
    obtain ⟨j, y⟩ := q
    simp only [Table.wf, Bool.and_eq_true, decide_eq_true_eq] at h
    obtain ⟨⟨h1, h2⟩, h3⟩ := h
    rw [List.filter_cons]
    split
    · simp only [Table.wf, Bool.and_eq_true, decide_eq_true_eq]
      exact ⟨⟨Table.above_filter p h1, h2⟩, ih h3⟩
    · exact ih h3

end Sys2Proof.Machine
end

