-- ==== Sys2Proof/Laws/Memory.lean ====
section
/-! SUPPORT. The laws of memory: a write is read back, leaves every other byte alone, and keeps the canonical form. Every
write of the machine goes through State.putBytes, but for the areas that State.clearTiles empties and a reset keeps. -/

namespace Sys2Proof.Machine

/-- Reading one byte after writing one. -/
theorem State.readByte_writeByte {s : State} (h : Memory.wf s.mem = true) (pa q : Nat) (b : Byte) :
    (s.writeByte pa b).readByte q = if q = pa then b else s.readByte q := by
  simp only [State.readByte, State.writeByte_mem]
  exact Table.get_set h q

/-- Writing a byte keeps the canonical form. -/
theorem State.wf_writeByte {s : State} (h : Memory.wf s.mem = true) (pa : Nat) (b : Byte) :
    Memory.wf (s.writeByte pa b).mem = true := Table.wf_set h

/-- Storing bytes keeps the canonical form. -/
theorem State.wf_putBytes {s : State} (h : Memory.wf s.mem = true) (pa : Nat) (bs : List Byte) :
    Memory.wf (s.putBytes pa bs).mem = true := by
  induction bs generalizing s pa with
  | nil => exact h
  | cons b r ih => exact ih (State.wf_writeByte h pa b) (pa + 1)

/-- Storing bytes changes memory alone. -/
theorem State.putBytes_eq (s : State) (pa : Nat) (bs : List Byte) : s.putBytes pa bs = { s with mem := (s.putBytes pa bs).mem } := by
  induction bs generalizing s pa with
  | nil => rfl
  | cons b r ih =>
    show (s.writeByte pa b).putBytes (pa + 1) r = _
    rw [ih]
    rfl

/-- Reading a byte after storing several. -/
theorem State.readByte_putBytes {s : State} (h : Memory.wf s.mem = true) (pa q : Nat) (bs : List Byte) :
    (s.putBytes pa bs).readByte q = if pa ≤ q then (bs[q - pa]?).getD (s.readByte q) else s.readByte q := by
  induction bs generalizing s pa with
  | nil => simp [State.putBytes]
  | cons b r ih =>
    show ((s.writeByte pa b).putBytes (pa + 1) r).readByte q = _
    rw [ih (State.wf_writeByte h pa b) (pa + 1), State.readByte_writeByte h]
    by_cases h1 : q = pa
    · subst h1; simp
    · by_cases h2 : pa ≤ q
      · have h3 : pa + 1 ≤ q := by omega
        obtain ⟨k, rfl⟩ : ∃ k, q = pa + 1 + k := ⟨q - (pa + 1), by omega⟩
        simp [h1, h2, show pa + 1 + k - pa = k + 1 by omega]
      · have h3 : ¬ pa + 1 ≤ q := by omega
        simp [h1, h2, h3]

@[simp] theorem State.heal_mem (s : State) (pa n : Nat) : (s.heal pa n).mem = s.mem := rfl
@[simp] theorem State.heal_ops (s : State) (pa n : Nat) : (s.heal pa n).ops = s.ops := rfl
@[simp] theorem State.heal_ctxs (s : State) (pa n : Nat) : (s.heal pa n).ctxs = s.ctxs := rfl

/-- Settling join waits changes operations alone. -/
theorem State.settleJoins_eq (s : State) : s.settleJoins = { s with ops := s.settleJoins.ops } := by
  unfold State.settleJoins; split <;> rfl

@[simp] theorem State.settleJoins_mem (s : State) : s.settleJoins.mem = s.mem := by rw [s.settleJoins_eq]

/-- A write's memory is what storing its bytes leaves. -/
@[simp] theorem State.wr_mem (s : State) (pa : Nat) (bs : List Byte) : (s.wr pa bs).mem = (s.putBytes pa bs).mem := by
  simp [State.wr]

/-- A write changes memory, the error marks it covers whole, and the join waits it settles, and nothing else. -/
theorem State.wr_eq (s : State) (pa : Nat) (bs : List Byte) : s.wr pa bs =
    { s with mem := (s.putBytes pa bs).mem, badGranules := (s.wr pa bs).badGranules, badWords := (s.wr pa bs).badWords
             ops := (s.wr pa bs).ops } := by
  unfold State.wr
  rw [State.settleJoins_eq, State.putBytes_eq]
  rfl

/-- Every write keeps the canonical form. -/
theorem State.wf_wr {s : State} (h : Memory.wf s.mem = true) (pa : Nat) (bs : List Byte) : Memory.wf (s.wr pa bs).mem = true := by
  rw [State.wr_mem]; exact State.wf_putBytes h pa bs

/-- Reading a byte after a write. -/
theorem State.readByte_wr {s : State} (h : Memory.wf s.mem = true) (pa q : Nat) (bs : List Byte) :
    (s.wr pa bs).readByte q = if pa ≤ q then (bs[q - pa]?).getD (s.readByte q) else s.readByte q := by
  have := State.readByte_putBytes h pa q bs
  simpa only [State.readByte, State.wr_mem] using this

/-- A write of no bytes leaves memory as it was. -/
@[simp] theorem State.wr_nil_mem (s : State) (pa : Nat) : (s.wr pa []).mem = s.mem := by simp [State.putBytes]

/-- Emptying a block's areas keeps the canonical form. -/
theorem State.wf_filter {m : List Host.Cell} (h : Memory.wf m = true) (p : Host.Cell → Bool) : Memory.wf (m.filter p) = true :=
  Table.wf_filter p h

/-- Memory after reset has the canonical form. -/
theorem State.wf_reset : Memory.wf State.reset.mem = true := rfl

end Sys2Proof.Machine
end

