-- ==== Sys2Proof/Laws/Runs.lean ====
section
/-! SUPPORT. What executing one instruction of an open run can do, said once (Machine/Runs.lean): the instruction completes
with its results, or traps at a check of R35 or with its own fault. -/

namespace Sys2Proof.Machine

/-- The environment of an instruction in an open run. -/
theorem State.envOf_eq {s : State} {i : Instr} {v : Env} (h : s.envOf i = some v) :
    i.view = some (v.k, v.f) ∧ s.run = some v.r ∧ s.ctx? v.r.ctx = some v.c ∧ v.s = s := by
  unfold State.envOf at h
  split at h
  · obtain ⟨c, hc, rfl⟩ := Option.map_eq_some_iff.mp h
    exact ⟨‹_›, ‹_›, hc, rfl⟩
  · cases h

/-- An instruction of the map is executed in its environment. -/
theorem execIsa_envOf {s : State} {i : Instr} {v : Env} (body : Env → Res) (h : s.envOf i = some v) :
    execIsa v.k v.f body s = .next (v.execute body) := by
  obtain ⟨-, hr, hc, hs⟩ := s.envOf_eq h
  obtain ⟨vs, vr, vc, vk, vf⟩ := v
  simp only at hr hc hs
  subst hs
  simp only [execIsa, hr, hc]

/-- Everything executing an instruction can do: a check of R35 fails and traps; a register or file word it reads is
uncorrectable; it traps of its own; it is done and the run goes on; its commit would leave a deadlock and traps; or its run
commits. -/
theorem Env.execute_cases (v : Env) (body : Env → Res) :
    (∃ cause a, v.checkFails = some (cause, a) ∧ v.execute body = v.counted.trapTo v.c.id { v.plainTrap cause with taddr := a })
    ∨ (v.checkFails = none ∧
      ((∃ l, v.badRegister = some l ∧ v.execute body = (v.counted.countReg v.c.loc).killUnc v.c.block v.r.pc l 0)
      ∨ (∃ pa l, v.badRegister = none ∧ v.badFile = some (pa, l) ∧ v.execute body = v.counted.uncHit pa v.r.pc l)
      ∨ (v.clear ∧
        ((∃ t, body v = .trap t ∧ v.execute body = (v.counted.countTrap v.who t).trapTo v.c.id t)
        ∨ ∃ o, body v = .ok o ∧
          ((v.endsRun = false ∧ v.execute body = { v.counted with run := some (v.grow o) })
          ∨ (v.endsRun = true ∧ v.counted.deadlocks v.c (v.grow o) = true
              ∧ v.execute body = v.counted.trapTo v.c.id { v.plainTrap cIllegalInstr with taddr := (v.grow o).first })
          ∨ (v.endsRun = true ∧ v.counted.deadlocks v.c (v.grow o) = false
              ∧ v.execute body = v.counted.commitRun v.c (v.grow o))))))) := by
  unfold Env.execute Env.counted Env.clear
  cases h1 : v.checkFails with
  | some p => exact .inl ⟨p.1, p.2, rfl, rfl⟩
  | none =>
    refine .inr ⟨rfl, ?_⟩
    cases h2 : v.badRegister with
    | some l => exact .inl ⟨l, rfl, by simp⟩
    | none =>
      cases h3 : v.badFile with
      | some p => exact .inr (.inl ⟨p.1, p.2, rfl, rfl, by simp⟩)
      | none =>
        refine .inr (.inr ⟨⟨rfl, rfl, rfl⟩, ?_⟩)
        cases h4 : body v with
        | trap t => exact .inl ⟨t, rfl, by simp⟩
        | ok o =>
          refine .inr ⟨o, rfl, ?_⟩
          cases h5 : v.endsRun with
          | false => exact .inl ⟨rfl, by simp⟩
          | true =>
            cases h6 : (v.s.countAt v.c.launch v.c.loc 2 1).deadlocks v.c (v.grow o) with
            | true => exact .inr (.inl ⟨rfl, rfl, by simp [h6]⟩)
            | false => exact .inr (.inr ⟨rfl, rfl, by simp [h6]⟩)

/-- A clear instruction whose computation answers results, and whose commit leaves no deadlock, leaves exactly them. -/
theorem Env.execute_ok {v : Env} {body : Env → Res} {o : Out} (hc : v.clear) (hb : body v = .ok o) (hd : v.mayEnd o) :
    v.execute body = v.leaves o := by
  obtain ⟨h1, h2, h3⟩ := hc
  simp only [Env.execute, h1, h2, h3, hb, Env.leaves, Env.counted]
  by_cases he : v.endsRun = true
  · have := hd he
    simp only [Env.counted] at this
    simp [he, this]
  · simp [he]

/-- A clear instruction whose computation answers a trap takes it. -/
theorem Env.execute_trap {v : Env} {body : Env → Res} {t : TrapInfo} (hc : v.clear) (hb : body v = .trap t) :
    v.execute body = (v.counted.countTrap v.who t).trapTo v.c.id t := by
  obtain ⟨h1, h2, h3⟩ := hc
  simp only [Env.execute, h1, h2, h3, hb, Env.counted]

/-- A failing check of R35 steps 2 to 4 traps, whatever the computation. -/
theorem Env.execute_check {v : Env} {body : Env → Res} {cause : Nat} {a : W64} (h : v.checkFails = some (cause, a)) :
    v.execute body = v.counted.trapTo v.c.id { v.plainTrap cause with taddr := a } := by
  simp only [Env.execute, h, Env.counted]

/-- What a clear instruction has passed: encoding, context class, operands, no register written twice (R30). -/
theorem Env.clear_checks {v : Env} (h : v.clear) :
    encOk v.k v.f = true ∧ contextOk v.c.kind v.k v.f = true ∧ operandsOk v.c.vregs v.k v.f = true ∧ v.pc ∉ v.r.clash := by
  have h1 := h.1
  unfold Env.checkFails at h1
  split at h1
  · cases h1
  · split at h1
    · cases h1
    · split at h1
      · cases h1
      · split at h1
        · cases h1
        · split at h1
          · cases h1
          · simp_all

/-- A clear TRAP or BKPT is the first instruction of its run (R32). -/
theorem Env.clear_first {v : Env} (h : v.clear) (hk : v.k = .trap ∨ v.k = .bkpt) : v.r.count = 0 := by
  have h1 := h.1
  unfold Env.checkFails at h1
  split at h1
  · cases h1
  · split at h1
    · cases h1
    · rcases hk with hk | hk <;> simp_all

/-- SUB of a well-formed instruction is one its opcode lists (R37). -/
theorem encOk_sub {k : Kind} {f : Fields} (h : encOk k f = true) : f.sub.val ∈ k.info.subs := by
  unfold encOk at h
  simp only [Bool.and_eq_true] at h
  exact List.contains_iff_mem.mp h.1.1.1.1.1.1

/-- The format of a well-formed instruction is one its opcode accepts (R21). -/
theorem encOk_fmt {k : Kind} {f : Fields} (h : encOk k f = true) : f.ext.fmt ∈ k.info.fmts := by
  unfold encOk at h
  simp only [Bool.and_eq_true] at h
  exact List.contains_iff_mem.mp h.1.1.1.1.1.2

/-- The class's own conditions hold of a well-formed instruction. -/
theorem encOk_extra {k : Kind} {f : Fields} (h : encOk k f = true) : extraOk k f = true := by
  unfold encOk at h
  simp only [Bool.and_eq_true] at h
  exact h.2

/-- How a completion is shown: the meaning is execIsa of a computation that answers the results where pre holds. -/
theorem performs_of {i : Instr} {k : Kind} {f : Fields} {body : Env → Res} {pre : Env → Prop} {o : Env → Out}
    (hv : i.view = some (k, f)) (hx : ∀ s, exec i s = execIsa k f body s)
    (hb : ∀ v : Env, v.k = k → v.f = f → v.clear → pre v → body v = .ok (o v)) : Performs i pre o := by
  intro s v he hc hp hd
  obtain ⟨h1, -, -, -⟩ := s.envOf_eq he
  rw [hv] at h1
  simp only [Option.some.injEq, Prod.mk.injEq] at h1
  rw [hx, h1.1, h1.2, execIsa_envOf body he, v.execute_ok hc (hb v h1.1.symm h1.2.symm hc hp) hd]

/-- How a trap of an instruction's own is shown. -/
theorem traps_of {i : Instr} {k : Kind} {f : Fields} {body : Env → Res} {pre : Env → Prop} {t : Env → TrapInfo}
    (hv : i.view = some (k, f)) (hx : ∀ s, exec i s = execIsa k f body s)
    (hb : ∀ v : Env, v.k = k → v.f = f → v.clear → pre v → body v = .trap (t v)) : Traps i pre t := by
  intro s v he hc hp
  obtain ⟨h1, -, -, -⟩ := s.envOf_eq he
  rw [hv] at h1
  simp only [Option.some.injEq, Prod.mk.injEq] at h1
  rw [hx, h1.1, h1.2, execIsa_envOf body he, v.execute_trap hc (hb v h1.1.symm h1.2.symm hc hp)]

/-- The uniform and the lane-by-lane form of a result (R19, R27). -/
theorem Env.alu_eq (v : Env) (wide : Bool) (g : Nat → W64) : v.alu wide g = .ok (v.result wide g) := by
  unfold Env.alu Env.result Env.uniform
  cases usesV v.k v.f <;> simp

end Sys2Proof.Machine
end

