-- ==== Sys2Proof/Laws/Step.lean ====
section
/-! SUPPORT. What a step can do, said once: an instruction of the open run, or one act between runs; and what taking a trap can
leave. -/

namespace Sys2Proof.Machine

/-- With a run open a step is that run's next instruction. -/
theorem step_run {s : State} {r : Run} (h : s.run = some r) : step s = s.stepRun r := by simp [step, h]

/-- With no run open a step is one act between runs, and never stops. -/
theorem step_turn {s : State} (h : s.run = none) : step s = .next s.turn := by simp [step, h]

/-- Accounting for waits neither makes nor mends a stop. -/
theorem afterInstr_next {s : State} {o : Host.Outcome State Fault Refusal} {t : State} (h : afterInstr s o = .next t) :
    ∃ u, o = .next u ∧ t = if u.run.isNone then (s.account u).track else u := by
  cases o with
  | next u =>
    injection (show Host.Outcome.next _ = _ from h) with h1
    exact ⟨u, rfl, h1.symm⟩
  | fault => cases h
  | refused => cases h

/-- Everything a step of an open run that answers a next state can have done: the fetch was held and the run is discarded; the
fetch trapped, or a row of pads there was skipped; or the instruction fetched was performed. -/
theorem step_run_cases {s t : State} {r : Run} (h : s.run = some r) (ht : step s = .next t) :
    ∃ c, s.ctx? r.ctx = some c ∧
      ((∃ s1, s.fetch c r.pc = (s1, .hold) ∧ t = { s1 with run := none })
        ∨ (∃ s1 cause tval, s.fetch c r.pc = (s1, .trap cause tval)
            ∧ (t = s1.fetchTrap r cause tval ∨ t = { s1 with run := some { r with pc := s1.pastPads c.loc r.pc } }))
        ∨ ∃ s1 i u, s.fetch c r.pc = (s1, .ok i) ∧ exec i s1 = .next u ∧ t = if u.run.isNone then (s1.account u).track else u) := by
  rw [step_run h] at ht
  unfold State.stepRun at ht
  split at ht
  · cases ht
  · rename_i c hc
    refine ⟨c, hc, ?_⟩
    split at ht
    · exact .inl ⟨_, ‹_›, by injection ht with e; exact e.symm⟩
    · refine .inr (.inl ⟨_, _, _, ‹_›, ?_⟩)
      injection ht with e
      split at e
      · exact .inl (by rw [← e, bne_self_eq_false]; rfl)
      · split at e
        · exact .inr e.symm
        · exact .inl e.symm
    · obtain ⟨u, hu, rfl⟩ := afterInstr_next ht
      exact .inr (.inr ⟨_, _, u, ‹_›, hu, rfl⟩)

/-- An event of the agents is never possible while a run is open or the dies are held, and leaves what its own conditions give,
followed by what follows every event. -/
theorem event_cases (s : State) (r : Option State) :
    (event s r = .fault .notEnabled ∧ (s.run.isSome = true ∨ s.tripped = true ∨ s.recovery = true ∨ r = none))
    ∨ ∃ s1, r = some s1 ∧ s.run = none ∧ s.tripped = false ∧ s.recovery = false ∧ event s r = .next s1.quiesce := by
  unfold event
  split
  · left
    rename_i h
    refine ⟨rfl, ?_⟩
    simp only [Bool.or_eq_true] at h
    tauto
  · rename_i h
    simp only [Bool.or_eq_true, not_or, Bool.not_eq_true] at h
    cases r with
    | none => exact .inl ⟨rfl, .inr (.inr (.inr rfl))⟩
    | some s1 =>
      refine .inr ⟨s1, rfl, ?_, h.1.2, h.2, rfl⟩
      cases hr : s.run <;> simp_all

/-- A trap of a lane warp with a handler, outside it, enters the handler (R351). -/
theorem takeTrap_enters {s : State} {cid : Nat} {c : Ctx} (t : TrapInfo) (hc : s.ctx? cid = some c) (hk : c.kind = .lane)
    (hi : c.inh = false) (he : c.sr.tentry ≠ 0) : s.takeTrap cid t = ({ s with run := none } : State).updCtx cid fun c =>
      c.enterHandler t (({ s with run := none } : State).pastPads c.loc c.sr.tentry) := by
  have h0 : ({ s with run := none } : State).ctx? cid = some c := hc
  have h1 : (c.inh || c.sr.tentry == 0) = false := by
    simp only [hi, Bool.false_or, beq_eq_false_iff_ne]; exact he
  have h2 : (CtxKind.lane == CtxKind.seq) = false := rfl
  have h3 : (CtxKind.lane == CtxKind.slot) = false := rfl
  unfold State.takeTrap
  simp only [h0, hk, h1, h2, h3, Bool.false_eq_true, if_false]

/-- A trap of a lane warp in its handler, or without one, kills its block (R353). -/
theorem takeTrap_kills {s : State} {cid : Nat} {c : Ctx} (t : TrapInfo) (hc : s.ctx? cid = some c) (hk : c.kind = .lane)
    (hi : c.inh = true ∨ c.sr.tentry = 0) : s.takeTrap cid t =
      ({ s with run := none } : State).killBlock c.block t.cause t.taddr (t.fault.headD (t.lanes.headD 0)) t.tval := by
  have h0 : ({ s with run := none } : State).ctx? cid = some c := hc
  have h1 : (c.inh || c.sr.tentry == 0) = true := by rcases hi with h | h <;> simp [h]
  have h2 : (CtxKind.lane == CtxKind.seq) = false := rfl
  have h3 : (CtxKind.lane == CtxKind.slot) = false := rfl
  unfold State.takeTrap
  simp only [h0, hk, h1, h2, h3, Bool.false_and, Bool.false_eq_true, if_false, if_true]

/-- A trap of a producer slot without a handler kills the slot alone (R306); in its handler the block (R353). -/
theorem takeTrap_killsSlot {s : State} {cid : Nat} {c : Ctx} (t : TrapInfo) (hc : s.ctx? cid = some c) (hk : c.kind = .slot)
    (hi : c.inh = false) (he : c.sr.tentry = 0) : s.takeTrap cid t =
      ({ s with run := none } : State).killSlot c t.cause t.taddr (t.fault.headD (t.lanes.headD 0)) t.tval := by
  have h0 : ({ s with run := none } : State).ctx? cid = some c := hc
  have h2 : (CtxKind.slot == CtxKind.seq) = false := rfl
  have h3 : (CtxKind.slot == CtxKind.slot) = true := rfl
  unfold State.takeTrap
  simp only [h0, hk, h2, h3, hi, he, beq_self_eq_true, Bool.or_true, Bool.not_false, Bool.and_self, Bool.false_eq_true, if_false, if_true]

end Sys2Proof.Machine
end

