-- ==== Sys2Proof/Tests/Slice0.lean ====
section
/-! SUPPORT. The model's own tests: ill-formed terms that the well-formedness check refuses, words decoded, single instructions
with results taken from the spec's examples and rules, and for each statement a state that meets its hypotheses. -/

namespace Sys2Proof.Tests
open Sys2Proof Sys2Proof.Machine

/-! Well-formedness: one ill-formed term for each check. -/

def fw := fieldsWith

theorem test_iadd_wellFormed : (Instr.iadd (fw true 1 (.v 4) (.v 2) .zero .zero 1 (.f96i 100))).wellFormed = true := by decide
theorem test_refuses_sub : (Instr.iadd (fw true 2 (.v 4) (.v 2) .zero .zero 1 (.f96i 100))).wellFormed = false := by decide
theorem test_refuses_format : (Instr.iadd (fw true 1 (.v 4) (.v 2) .zero .zero 1 (.f128i 100))).wellFormed = false := by decide
theorem test_refuses_kw : (Instr.iadd { fw true 1 (.v 4) (.v 2) .zero .zero 1 (.f96i 100) with kw := 3 }).wellFormed = false := by decide
theorem test_refuses_modifier : (Instr.mtsr (fw false 0 .zero (.e 0) .zero .zero 5 .f64)).wellFormed = false
    ∧ (Instr.bra (fw true 0 .zero .zero .zero .zero 1 (.f96i 8))).wellFormed = false := by decide
theorem test_refuses_extension :
    (Instr.atom (fw true 0 (.v 5) (.s 2) (.v 1) (.v 3) 4 (.f96x 0x0008FE02))).wellFormed = false := by decide
theorem test_refuses_scope :
    (Instr.atom (fw true 0 (.v 5) (.s 2) (.v 1) (.v 3) 4 (.f96x 0x0008FF05))).wellFormed = false := by decide

/-- One ill-formed term for each class rule. -/
def breakClassRules : List Instr :=
  [.iadd (fw true 0 (.v 4) (.v 2) (.v 3) .zero 4 .f64), .imul (fw true 2 (.v 4) (.v 2) (.v 3) .zero 3 .f64)
  , .iabs (fw true 0 (.v 4) (.v 2) .zero .zero 0 .f64), .shfl (fw true 0 (.v 4) (.v 2) (.v 3) .zero 0x38 .f64)
  , .movs (fw true 0 (.v 4) .zero .zero .zero 0x15 .f64), .lea (fw true 0 (.v 4) (.v 2) (.v 3) .zero 5 .f64)
  , .fadd (fw true 0 (.v 4) (.v 2) (.v 3) .zero 0x14 .f64), .fcmp (fw true 0 (.v 4) (.v 2) (.v 3) .zero 0x0C .f64)
  , .fdot2 (fw true 0 (.v 4) (.v 2) (.v 3) (.v 5) 0 .f64), .funpk (fw true 0 (.v 4) (.v 2) .zero .zero 0 .f64)
  , .ld (fw true 2 (.v 4) (.s 2) (.v 3) .zero 0 (.f96i 0x0C000000)), .prf (fw true 0 .zero (.s 2) (.v 3) .zero 0 (.f96i 0x01000000))
  , .fencek (fw true 0 .zero .zero .zero .zero 0 .f64), .tkq (fw true 0 (.s 2) .zero .zero .zero 1 .f64)
  , .fatom (fw true 0 (.v 5) (.s 2) (.v 1) (.v 3) 4 (.f96x 0xFF22)), .mma (fw true 2 (.v 1) (.v 3) (.s 8) .zero 3 (.f96x 0x82))
  , .acdrain (fw true 0 (.v 1) (.s 4) (.s 5) (.s 6) 3 (.f96x 0x32)), .mxq (fw true 0 (.s 2) .zero .zero .zero 4 .f64)
  , .gmv (fw true 0 .zero (.s 4) (.s 5) (.s 6) 2 (.f96x 0x32)), .spq (fw true 0 (.s 4) .zero .zero .zero 5 .f64)
  , .racqProd (fw true 0 (.s 4) (.s 6) .zero .zero 1 (.f96x 2)), .sctlDlen (fw true 0 (.s 20) (.s 20) .zero .zero 2 .f64)
  , .rld (fw true 0 (.v 4) (.s 20) (.v 4) .zero 0 (.f96x 0xA00A)), .venc (fw true 0 (.s 20) (.s 8) (.s 9) (.s 12) 6 (.f96x 0x12))
  , .vqry (fw true 0 (.s 20) (.s 8) .zero .zero 4 .f64), .mfsr (fw false 0 (.s 20) .zero .zero .zero 0x0F .f64)
  , .mtsr (fw false 0 .zero (.s 20) .zero .zero 0 .f64)]

theorem test_refuses_class_rules : (breakClassRules.all fun i => !i.wellFormed) = true := by decide

/-- The operands each instruction may name are checked at issue, not in the encoding (R35 step 4). -/
theorem test_refuses_operands : operandsOk 16 .iadd (fw true 1 (.v 16) (.v 2) .zero .zero 1 (.f96i 100)) = false
    ∧ operandsOk 16 .iadd (fw true 1 (.v 3) (.v 2) .zero .zero 3 (.f96i 100)) = false
    ∧ operandsOk 16 .iadd (fw true 1 (.v 4) (.v 2) .zero .zero 1 (.f96i 100)) = true := by decide

/-! Decoding: words that the spec writes out, family by family (LEN, S, OP and SUB in the first word's low half). -/

/-- The instruction that words decode to, if its length is the words'. -/
def dec (ws : List Nat) : Option Instr :=
  match decode (wordBytes ws) with
  | .ok i n => if n = 4 * ws.length then some i else none
  | _ => none

/-- 04_control.md, ?p1 BRA top. -/
theorem test_decode_bra : dec [0xFF00400D, 0x00FFFFFF, 0xFFFFFFC0]
    = some (.bra { fw true 0 .zero .zero .zero .zero 0 (.f96i 0xFFFFFFC0) with pg := 1 }) := by decide
/-- 05_integer_lane.md, IADD.SAT.i32 v4, v2, 100. -/
theorem test_decode_iadd : dec [0x0401C881, 0x01FFFF02, 0x64] = some (.iadd (fw false 1 (.v 4) (.v 2) .zero .zero 1 (.f96i 100))) := by
  decide
/-- 02_formats.md, ?!p2 LD.n32 v8, [s4 + v7 + 16] ^k1 >k5: the first word is LEN 0, S 1, OP 0x50, SUB 2, PG 2, PN 1, KW 1, KV 1,
D 0x08. -/
theorem test_decode_ld_f64 : dec [0x08 * 2 ^ 24 + 1 * 2 ^ 18 + 1 * 2 ^ 23 + 1 * 2 ^ 17 + 2 * 2 ^ 14 + 2 * 2 ^ 11 + 0x50 * 2 ^ 3 + 2 ^ 2, 0x051007A4]
    = some (.ld { fw true 2 (.v 8) (.s 4) (.v 7) (.v 16) 5 .f64 with pg := 2, pn := true, kv := true, kw := 1 }) := by decide
/-- 06_float.md, FFMA.RZ.f32 v10, v1, v2, v3. -/
theorem test_decode_ffma : dec [0x0A01C19C, 0x01030201] = some (.ffma (fw true 0 (.v 10) (.v 1) (.v 2) (.v 3) 1 .f64)) := by decide
/-- 07_memory.md, LD.i16.CLU v12, [s3 + v5 + 6] >k2. -/
theorem test_decode_ld : dec [0x0C01EA85, 0x02FF05A3, 0x02000006]
    = some (.ld (fw true 5 (.v 12) (.s 3) (.v 5) .zero 2 (.f96i 0x02000006))) := by decide
/-- 08_ordering.md, FENCE.SYS and FENCEK.REL.POD ^k3 >k7. -/
theorem test_decode_fence : dec [0xFF01E304, 0x00FFFFFF] = some (.fence (fw true 4 .zero .zero .zero .zero 0 .f64))
    ∧ dec [0xFF8DC30D, 0x27FFFFFF, 3]
      = some (.fencek { fw true 0 .zero .zero .zero .zero 0x27 (.f96x 3) with kv := true, kw := 3 }) := by decide
/-- 09_tokens_barriers.md, PBARR.REL.CLU [s4], 1, s9. -/
theorem test_decode_pbarr : dec [0xFF01CB45, 0x02A9FFA4, 1] = some (.pbarr (fw true 1 .zero (.s 4) .zero (.s 9) 2 (.f96i 1))) := by decide
/-- 10_atomics.md, ATOM.ADD.n32 v5, [s2 + v1 + 8], v3 >k4. -/
theorem test_decode_atom : dec [0x0501C385, 0x040301A2, 0x0008FF02]
    = some (.atom (fw true 0 (.v 5) (.s 2) (.v 1) (.v 3) 4 (.f96x 0x0008FF02))) := by decide
/-- 11_matrix.md, MMA.DUP.bf16.bf16 c1, y3, s8 ^k2 >k3. -/
theorem test_decode_mma : dec [0x0189D405, 0x03FFA803, 2]
    = some (.mma { fw true 2 (.v 1) (.v 3) (.s 8) .zero 3 (.f96x 2) with kv := true, kw := 2 }) := by decide
/-- 12_grammar.md, GMV.HOLD.B2.YLOC s4, s5, s6 ^k1 >k2. -/
theorem test_decode_gmv : dec [0xFF85C48D, 0x82A6A5A4, 0x040A]
    = some (.gmv { fw true 0 .zero (.s 4) (.s 5) (.s 6) 0x82 (.f96x 0x040A) with kv := true, kw := 1 }) := by decide
/-- 13_spawn.md, ?p2 SPAWN p3, v20, 1, s6. -/
theorem test_decode_spawn : dec [0x03008505, 0x00A6FF14, 1]
    = some (.spawn { fw true 0 (.v 3) (.v 20) .zero (.s 6) 0 (.f96i 1) with pg := 2 }) := by decide
/-- 14_copy_streams.md, CPY.2D.DLOC.REL.GANG s4, s5, s10 ^k1 >k2. -/
theorem test_decode_cpy : dec [0xFF85CD85, 0x22AAA5A4, 9]
    = some (.cpy { fw true 1 .zero (.s 4) (.s 5) (.s 10) 0x22 (.f96x 9) with kv := true, kw := 1 }) := by decide
/-- 15_fabric.md, RST.n32.REL [s2 + v1 + 8], v6, s10 >k5. -/
theorem test_decode_rst : dec [0x0601C60D, 0x25FF01A2, 0x0008AA03]
    = some (.rst (fw true 0 (.v 6) (.s 2) (.v 1) .zero 0x25 (.f96x 0x0008AA03))) := by decide
/-- 16_encoder.md, VENC.REL.ARR s20, s8, s9, s12 ^k4 >k6. -/
theorem test_decode_venc : dec [0xB491C68D, 0x26ACA9A8, 0xA]
    = some (.venc { fw true 0 (.s 20) (.s 8) (.s 9) (.s 12) 0x26 (.f96x 0xA) with kv := true, kw := 4 }) := by decide
/-- 17_system.md, MTSR TEPC, e0. -/
theorem test_decode_mtsr : dec [0xFF01C718, 0x04FFFFE0] = some (.mtsr (fw false 0 .zero (.e 0) .zero .zero 4 .f64)) := by decide
/-- 20_programs_tile_atomics.md and 21_programs_grammar_spawn.md, RCPY, RED.MAX and GRVRD. -/
theorem test_decode_programs :
    dec [0xFF91C621, 0x05B5B1B2, 0xAA03]
      = some (.rcpy { fw false 0 .zero (.s 18) (.s 17) (.s 21) 5 (.f96x 0xAA03) with kv := true, kw := 4 })
    ∧ dec [0xFF00D391, 0x0003FFA1, 0x0008FF20]
      = some (.red { fw false 2 .zero (.s 1) .zero (.v 3) 0 (.f96x 0x0008FF20) with pg := 3 })
    ∧ dec [0xFF89C499, 0x03A7FFA4, 2]
      = some (.grvrd { fw false 0 .zero (.s 4) .zero (.s 7) 3 (.f96x 2) with kv := true, kw := 2 }) := by decide
/-- A pad word, an unlisted opcode and a short instruction are not instructions. -/
theorem test_decode_refuses : decode (wordBytes [3]) = .pad ∧ decode (wordBytes [0xFF01C7FC, 0x00FFFFFF]) = .bad .opcode
    ∧ decode (wordBytes [0x0401C881, 0x01FFFF02]) = .bad .short := by decide

/-! Single instructions. The bench is a warp of 32 lanes whose open run stands at the instruction; every result is the one that
the spec's text gives. -/

/-- The state in which an instruction is fetched next (log entry 12). -/
def bench (i : Instr) : State := State.reset.withCode ((encode i).getD [])
/-- The same with its context changed. -/
def tuned (i : Instr) (g : Ctx → Ctx) : State := let s := bench i; { s with ctxs := s.ctxs.map g }
/-- The same with fewer lanes in the run. -/
def inLanes (ls : List Nat) (s : State) : State := { s with run := s.run.map fun r => { r with lanes := ls } }
/-- The state that one step leaves. -/
def stepped (s : State) : State := match step s with | .next t => t | _ => State.reset
/-- The context of the bench after one step. -/
def ctxAfter (s : State) : Ctx := ((stepped s).ctx? 3).getD (Ctx.start 0 .lane (launchOf 0 0 0 (benchRec false) 0) 0 0 0 ⟨0, 0, 0⟩ 0 0 0)
/-- v3 of lane 0 after an instruction on v1 and v2. -/
def v3After (i : Instr) (a b : Nat) : Nat :=
  ((ctxAfter (tuned i fun c => (c.wrV 1 0 (BitVec.ofNat 32 a)).wrV 2 0 (BitVec.ofNat 32 b))).rdV 3 0).toNat
/-- D, A, B of the plain three-register form, run-ending. -/
def f3 (sub : Fin 8) (m : Byte) : Fields := fw true sub (.v 3) (.v 1) (.v 2) .zero m .f64
/-- D and A. -/
def f2 (sub : Fin 8) (m : Byte) : Fields := fw true sub (.v 3) (.v 1) .zero .zero m .f64

/-- 05_integer_lane.md, the IADD example: with v2 = 0x7FFFFFC0, adding 100 saturates; without .SAT it gives 0x80000024. -/
theorem test_iadd_saturates : v3After (.iadd (fw true 1 (.v 3) (.v 1) .zero .zero 1 (.f96i 100))) 0x7FFFFFC0 0 = 0x7FFFFFFF := by decide
theorem test_iadd_wraps : v3After (.iadd (fw true 0 (.v 3) (.v 1) .zero .zero 1 (.f96i 100))) 0x7FFFFFC0 0 = 0x80000024 := by decide
/-- R82: 0 - 1 wraps to all ones, and saturates to 0 when unsigned. -/
theorem test_isub : v3After (.isub (f3 0 0)) 0 1 = 0xFFFFFFFF ∧ v3After (.isub (f3 1 0)) 0 1 = 0 := by decide
/-- R83: the high half of -2^31 × 2 is -1 signed and 1 unsigned. -/
theorem test_imul_hi : v3After (.imul (f3 1 1)) 0x80000000 2 = 0xFFFFFFFF ∧ v3After (.imul (f3 1 0)) 0x80000000 2 = 1 := by decide
/-- R84: the most negative number, without and with .SAT. -/
theorem test_iabs : v3After (.iabs (f2 0 1)) 0x80000000 0 = 0x80000000 ∧ v3After (.iabs (f2 0 9)) 0x80000000 0 = 0x7FFFFFFF := by decide
/-- R84: the lesser under the type's signedness. -/
theorem test_imin : v3After (.imin (f3 0 1)) 0xFFFFFFFF 1 = 0xFFFFFFFF ∧ v3After (.imin (f3 0 0)) 0xFFFFFFFF 1 = 1 := by decide
/-- R85. -/
theorem test_andn : v3After (.andn (f3 3 0)) 0xFF00FF00 0x0F0F0F0F = 0xF000F000 := by decide
/-- R86: a shift by N gives 0 or copies of the sign, a rotate takes the count modulo N. -/
theorem test_shl : v3After (.shl (f3 0 0)) 0xFFFFFFFF 32 = 0 := by decide
theorem test_sha : v3After (.sha (f3 2 0)) 0x80000000 40 = 0xFFFFFFFF := by decide
theorem test_rol : v3After (.rol (f3 3 0)) 0x80000001 33 = 3 := by decide
/-- R87. -/
theorem test_clz : v3After (.clz (f2 1 0)) 0 0 = 32 ∧ v3After (.clz (f2 1 0)) 0x00010000 0 = 15 := by decide
theorem test_ctz : v3After (.ctz (f2 2 0)) 0 0 = 32 ∧ v3After (.ctz (f2 2 0)) 0x00010000 0 = 16 := by decide
theorem test_popc : v3After (.popc (f2 0 0)) 0xF0F0 0 = 8 := by decide
theorem test_brev : v3After (.brev (f2 3 0)) 1 0 = 0x80000000 := by decide
/-- R88: a field of 4 bits at position 4, sign-extended or not; a field beyond bit N-1 reads the extension bits. -/
theorem test_bfx : v3After (.bfx (f3 0 1)) 0xF0 0x0404 = 0xFFFFFFFF ∧ v3After (.bfx (f3 0 0)) 0xF0 0x0404 = 0xF
    ∧ v3After (.bfx (f3 0 1)) 0x80000000 0x0428 = 0xFFFFFFFF := by decide
/-- R89: -1 is less than 1 only when signed. -/
theorem test_icmp : v3After (.icmp (f3 2 1)) 0xFFFFFFFF 1 = 1 ∧ v3After (.icmp (f3 2 0)) 0xFFFFFFFF 1 = 0 := by decide
/-- R93: base + (offset << 2) + addend. -/
theorem test_lea : ((ctxAfter (tuned (.lea (fw true 0 (.s 20) (.s 21) (.s 22) (.s 23) 2 .f64)) fun c =>
    ((c.wrS 21 0x1000).wrS 22 0xFFFFFFFF00000003).wrS 23 8)).rdS 20).toNat = 0x1014 := by decide
/-- R95, the example: lut 0x80 is pa AND pb AND pc. -/
theorem test_plop : let c := ctxAfter (tuned (.plop (fw true 0 (.v 3) (.v 0) (.v 1) (.v 2) 0x80 .f64)) fun c =>
      ((c.wrP 0 0 true).wrP 1 0 true).wrP 2 0 true)
    c.rdP 3 0 = true ∧ c.rdP 3 1 = false := by decide
/-- R26: a write to p7 is discarded. -/
theorem test_p7 : (ctxAfter (bench (.icmp (fw true 1 (.v 7) (.v 1) (.v 2) .zero 8 .f64)))).rdP 7 0 = true := by decide

/-- The state of 05_integer_lane.md's example of R94 to R101: lanes 0 to 7, v5 = l + 1, p1 false in lane 3. -/
def laneBench (i : Instr) : Ctx :=
  ctxAfter (inLanes [0, 1, 2, 3, 4, 5, 6, 7] (tuned i fun c =>
    { c with v := (List.range 32).map fun l => (64 * 5 + l, BitVec.ofNat 32 (l + 1)), p := [(1, 0xF7)] }))
theorem test_redux : ((laneBench (.redux { fw true 0 (.s 9) (.v 5) .zero .zero 0 .f64 with pg := 1 })).rdS 9).toNat = 32 := by decide
theorem test_scan : let c := laneBench (.scan { fw true 0 (.v 6) (.v 5) .zero .zero 0 .f64 with pg := 1 })
    [c.rdV 6 0, c.rdV 6 1, c.rdV 6 2, c.rdV 6 3, c.rdV 6 4, c.rdV 6 5, c.rdV 6 6, c.rdV 6 7] = [1, 3, 6, 0, 11, 17, 24, 32] := by decide
theorem test_shfl : let c := laneBench (.shfl { fw true 2 (.v 7) (.v 5) .zero .zero 0 (.f96i 1) with pg := 1 })
    [c.rdV 7 0, c.rdV 7 1, c.rdV 7 2, c.rdV 7 4, c.rdV 7 5, c.rdV 7 6, c.rdV 7 7] = [2, 3, 3, 6, 7, 8, 8] := by decide
/-- R96: a mask of the participants whose predicate is true. -/
theorem test_ballot : ((laneBench (.ballot { fw true 0 (.s 9) (.v 1) .zero .zero 0 .f64 with pg := 7 })).rdS 9).toNat = 0xF7 := by decide
/-- R101: the lanes that hold the same value. -/
theorem test_match : ((ctxAfter (inLanes [0, 1, 2] (tuned (.matchL (fw true 0 (.s 9) (.v 5) .zero .zero 0 .f64)) fun c =>
    { c with v := [(64 * 5, 7), (64 * 5 + 1, 8), (64 * 5 + 2, 7)] }))).rdS 9).toNat = 5 := by decide
/-- R98: lane 0 receives its diagonal partner's value, lane 3. -/
theorem test_qswap : ((laneBench (.qswap (fw true 2 (.v 7) (.v 5) .zero .zero 0 .f64))).rdV 7 0).toNat = 4 := by decide
/-- R100: k not below the width reads 0. -/
theorem test_rdlane : ((laneBench (.rdlane (fw true 0 (.s 9) (.v 5) .zero .zero 0 (.f96i 8)))).rdS 9).toNat = 9
    ∧ ((laneBench (.rdlane (fw true 0 (.s 9) (.v 5) .zero .zero 0 (.f96i 32)))).rdS 9).toNat = 0 := by decide

/-! Floating point. -/

/-- 06_float.md, the FADD example: 1.0 + 2^-24 ties to even under .RN, and goes up under .RU. -/
theorem test_fadd : v3After (.fadd (f3 0 0)) 0x3F800000 0x33800000 = 0x3F800000
    ∧ v3After (.fadd (f3 0 2)) 0x3F800000 0x33800000 = 0x3F800001 := by decide
/-- 06_float.md, the FRND examples. -/
theorem test_frnd : v3After (.frnd (f2 0 0)) 0x40200000 0 = 0x40000000 ∧ v3After (.frnd (f2 0 2)) 0x40200000 0 = 0x40400000
    ∧ v3After (.frnd (f2 0 1)) 0xC0200000 0 = 0xC0000000 ∧ v3After (.frnd (f2 0 0)) 0xBE99999A 0 = 0x80000000 := by decide
/-- 06_float.md, Table 6.3. -/
theorem test_worked_conversions : fcvt 0 3 0 0x3E99999A = 0x2A ∧ fcvt 1 3 0 0x3E99999A = 0x29 ∧ fcvt 0 4 0 0x3E99999A = 0x35
    ∧ fcvt 0 3 0 0x43FA0000 = 0x7E ∧ fcvt 0 4 0 0x43FA0000 = 0x60 ∧ fcvt 0 5 0 0x43FA0000 = 0x0F ∧ fcvt 0 5 0 0x40400000 = 0x06
    ∧ fcvt 2 5 0 0x40400000 = 0x07 ∧ fcvt 0 5 0 0xBE99999A = 0x39 ∧ fcvt 0 5 0 0x80000000 = 0x10 ∧ fcvt 0 3 0 0x80000000 = 0x80 := by
  decide
/-- 03_assembly.md, the .bf16 example: 0.1, 1.00390625 and infinity. -/
theorem test_bf16 : fcvt 0 2 0 0x3DCCCCCD = 0x3DCD ∧ fcvt 0 2 0 0x3F808000 = 0x3F80 ∧ fcvt 0 2 0 0x7F800000 = 0x7F80 := by decide
/-- R120: out of range saturates, NaN gives what the rule says of the type. -/
theorem test_f2i : f2i 1 1 0 0x4F800000 = 0x7FFFFFFF ∧ f2i 1 0 0 0xBF800000 = 0 := by decide
/-- 06_float.md, the LG6 product: 0x06 × 0x39 = -0.8408966064453125 = -55109/65536. -/
theorem test_lg6_product : fcvt 0 0 0 (fenc 0 0 (lgMul 0x06 0x39)) = 0xBF574500 := by decide
/-- Table 6.9: 1/0 and the square root of a negative number. -/
theorem test_frcp : v3After (.frcp (f2 0 0)) 0 0 = 0x7F800000 ∧ v3After (.fsqrt (f2 0 0)) 0xBF800000 0 = 0x7FC00000 := by decide

/-! Matrix unit and grammar engine. -/

/-- 11_matrix.md, the BF16 example: 2^24, then 1.0 fifteen times, by rows of 1.0. -/
theorem test_matrix_bf16 : mElement 0 0 0 (leBytes 2 0x4B80 ++ ((List.range 15).flatMap fun _ => leBytes 2 0x3F80)
      ++ ((List.range 16).flatMap fun _ => leBytes 2 0)) ((List.range 32).flatMap fun _ => leBytes 2 0x3F80) [127, 127] [127, 127]
    = 0x4B800008 := by decide
/-- 11_matrix.md, the LG6 example. -/
theorem test_matrix_lg6 : mGroup 0x3F800000 [lgMul 0x06 0x39, lgMul 0x04 0x04] 0x81 127 = 0x415A2EC0 := by decide
/-- 12_grammar.md, the sums of rules 0 to 2. -/
theorem test_grammar_sums : gSum (gTerm 0 0x3F80 0x4B800000) (gTerm 0 0x3F80 0x3F800000) = 0x4B800000
    ∧ gSum (gSum (gTerm 0 0x3F80 0x3F800000) (gTerm 0 0x3F80 0x3F800000)) 0x4B800000 = 0x4B800001 := by decide

/-! Memory, atomics, tokens and barriers, on the block's own scratchpad region (.LOC). -/

/-- A word of the scratchpad after a step. -/
def locWord (s : State) (a : Nat) : Nat := (stepped s).readN (mapBase 0 0 0 + a) 4

/-- R139: each lane's word at base + 4 × offset, little-endian. -/
theorem test_st : let s := inLanes [0, 1] (tuned (.st (fw true 2 (.v 3) (.s 20) (.v 1) .zero 0 (.f96i 0x01000010))) fun c =>
      { c with v := [(64, 1), (65, 2), (64 * 3, 0x11223344), (64 * 3 + 1, 5)] })
    locWord s 0x14 = 0x11223344 ∧ locWord s 0x18 = 5 ∧ (stepped s).readByte (mapBase 0 0 0 + 0x14) = 0x44 ∧ locWord s 0x10 = 0 := by
  decide
/-- 17_system.md's example in short: a store to 4 l + 2 traps; TCAUSE, TLANES and TFAULT, TADDR, TEPC and TVAL. -/
theorem test_misaligned_store : let c := ctxAfter (inLanes [0, 1, 2, 3, 4, 5, 6, 7]
      (tuned (.st (fw true 2 (.v 2) (.s 4) (.v 0) (.v 2) 0 .f64)) fun c =>
        { (c.wrS 4 0x100000) with v := (List.range 32).map fun l => (l, BitVec.ofNat 32 l), sr := { c.sr with tentry := 0x20000 } }))
    (c.sr.tcause, c.sr.tlanes, c.sr.tfault, c.sr.taddr, c.sr.tepc, c.sr.tval) = (0x80000004, 0xFF, 0xFF, 0x10000, 0x10000, 0x100002)
      ∧ (c.lane 0).pc = 0x20000 ∧ (c.lane 8).pc = 0x10000 := by decide
/-- R143: a block that does not hold the matrix files takes an access violation, and without a handler is killed. -/
theorem test_twr_without_files : ((stepped (bench (.twr (fw true 0 (.v 4) (.v 1) (.s 20) .zero 0 .f64)))).block? 2).map (fun b => b.killed)
    = some true := by decide
/-- R137: a load is dispatched at commit and ends with the halfword, sign-extended. -/
theorem test_ld : let s := inLanes [0] (tuned (.ld (fw true 5 (.v 3) (.s 20) (.v 1) .zero 2 (.f96i 0x01000006))) fun c => c)
    ((stepped (s.wrN (mapBase 0 0 0 + 6) 2 0x8001)).ops.map fun o => o.stage) = [.finished (.ok [(0, 0, 0xFFFF8001)])]
      ∧ (ctxAfter s).rdTok 2 = .pending 4 := by decide
/-- 10_atomics.md, the example: sixteen lanes add l + 1 to a word that holds 100. -/
def atomBench : State := (inLanes (List.range 16) (tuned (.atom (fw true 0 (.v 5) (.s 2) .zero (.v 3) 4 (.f96x 0xFF0A))) fun c =>
  { c with v := (List.range 32).map fun l => (64 * 3 + l, BitVec.ofNat 32 (l + 1)) })).wrN (mapBase 0 0 0) 4 100
theorem test_atom : locWord atomBench 0 = 236 := by decide
/-- 10_atomics.md, Table 10.5, .MAX.NUM on -0 with +0, NaN and 1.0: the first lane leaves +0 and the last 1.0. -/
theorem test_fatom_max : let x := ((State.reset.wrN 0x40 4 0x80000000).rmwAt (.flt 2 0) 0x40 0 0 0 0)
    x.2 = some 0x80000000 ∧ x.1.readN 0x40 4 = 0
      ∧ ((x.1.rmwAt (.flt 2 0) 0x40 0x7FC00001 0 0 0).1.rmwAt (.flt 2 0) 0x40 0x3F800000 0 0 0).1.readN 0x40 4 = 0x3F800000 := by
  decide
/-- R212: a CAS that does not match writes nothing. -/
theorem test_cas : let s := State.reset.wrN 0x40 4 7
    (s.rmwAt (.cas 0) 0x40 8 9 0 0).1.readN 0x40 4 = 7 ∧ (s.rmwAt (.cas 0) 0x40 7 9 0 0).1.readN 0x40 4 = 9 := by decide
/-- R193: two bits a token. -/
theorem test_tkq : ((ctxAfter (tuned (.tkq (fw true 0 (.s 20) .zero .zero .zero 0 .f64)) fun c =>
    { c with tok := [(0, .done), (2, .poisoned 5)] })).rdS 20).toNat = 0x32 := by decide
/-- R194: done and poisoned tokens of the mask become free. -/
theorem test_tkclr : let c := ctxAfter (tuned (.tkclr (fw true 0 .zero .zero .zero .zero 0 (.f96i 5))) fun c =>
      { c with tok := [(0, .done), (1, .done), (2, .poisoned 5)] })
    (c.rdTok 0, c.rdTok 1, c.rdTok 2) = (.free, .done, .free) := by decide
/-- R191: a wait on tokens none of which is pending ends in its own step's commit or at its next event; the lanes wait. -/
theorem test_waitk : (ctxAfter (tuned (.waitk (fw true 0 .zero .zero .zero .zero 0 (.f96i 1))) fun c =>
    { c with tok := [(0, .pending 9)] })).lane 0 = { Lane.start 0x1000C with st := .waiting (.waitk 1 .zero 0x10000) } := by decide
/-- 09_tokens_barriers.md, the PBINIT example: PHASE 0, PENDARR 2, PENDBYTES 8192, PSN 0, PREC 0xFFFF. -/
theorem test_pbinit : let s := stepped (tuned (.pbinit (fw true 0 .zero (.s 20) (.s 21) (.s 22) 1 .f64)) fun c =>
      ((c.wrS 20 0x40).wrS 21 2).wrS 22 8192)
    let b := s.barrier (mapBase 0 0 0 + 0x40)
    (b.phase, b.pendarr, b.pendbytes, b.prec) = (0, 2, 8192, 0xFFFF) := by decide

/-! Control flow, exceptions, system registers. -/

/-- R62: 64 bytes back. -/
theorem test_bra : ((ctxAfter (bench (.bra (fw true 0 .zero .zero .zero .zero 0 (.f96i 0xFFFFFFC0))))).lane 5).pc = 0xFFC0 := by decide
/-- R64: the lanes whose guard is false go on. -/
theorem test_bra_guarded : let c := ctxAfter (tuned (.bra { fw true 0 .zero .zero .zero .zero 0 (.f96i 0x40) with pg := 1 }) fun c => { c with p := [(1, 2)] })
    (c.lane 0).pc = 0x1000C ∧ (c.lane 1).pc = 0x10040 := by decide
/-- R65: the link is the address after the CALL. -/
theorem test_call : let c := ctxAfter (bench (.call (fw true 0 (.s 20) .zero .zero .zero 0 (.f96i 0x40))))
    (c.rdS 20, (c.lane 0).pc) = (0x1000C, 0x10040) := by decide
/-- R69, R70: two lanes enrol; one that parks waits, and both are released when the other parks too. -/
theorem test_enrol : (ctxAfter (inLanes [0, 1] (bench (.enrol (fw true 0 (.v 2) .zero .zero .zero 0 .f64))))).rdM 2 = 3 := by decide
theorem test_park : let i := Instr.park (fw true 0 (.v 2) .zero .zero .zero 0 .f64)
    ((ctxAfter (inLanes [0] (tuned i fun c => { c with m := [(2, 3)] }))).lane 0).st = .parked 2
    ∧ ((ctxAfter (inLanes [0, 1] (tuned i fun c => { c with m := [(2, 3)] }))).lane 0).st = .runnable := by decide
/-- R72: the lanes exit and leave every mask. -/
theorem test_exit : let c := ctxAfter (inLanes [0] (tuned (.exitL (fw true 0 .zero .zero .zero .zero 0 .f64)) fun c => { c with m := [(2, 3)] }))
    ((c.lane 0).st, c.rdM 2) = (.exited, 2) := by decide
/-- R66: LOOP with a count of 1 leaves 0 and falls through. -/
theorem test_loop : let c := ctxAfter (tuned (.loopL (fw true 0 (.s 20) .zero .zero .zero 0 (.f96i 0xFFFFFFC0))) fun c => c.wrS 20 1)
    (c.rdS 20, (c.lane 0).pc) = (0, 0x1000C) := by decide
/-- R358: TRAP's cause, DETAIL and value, and the address after it. -/
theorem test_trap : let c := ctxAfter (tuned (.trap (fw true 0 .zero (.s 20) .zero .zero 0x2A .f64)) fun c =>
      { (c.wrS 20 99) with sr := { c.sr with tentry := 0x20000 } })
    (c.sr.tcause, c.sr.tval, c.sr.tepc) = (0x80002A0F, 99, 0x10008) := by decide
/-- R360: TLANES resume at TEPC and INH is cleared. -/
theorem test_eret : let c := ctxAfter (inLanes [0, 1] (tuned (.eret (fw true 0 .zero .zero .zero .zero 0 .f64)) fun c =>
      { c with sr := { c.sr with tcause := 0x80000004, tlanes := 3, tepc := 0x10040 } }))
    (c.sr.tcause, (c.lane 0).pc, (c.lane 1).pc, (c.lane 2).pc) = (4, 0x10040, 0x10040, 0x10000) := by decide
/-- R361, R356: MTSR writes the register at commit; a TEPC with bit 0 set is an illegal operand. -/
theorem test_mtsr : let i := Instr.mtsr (fw true 0 .zero (.s 20) .zero .zero 4 .f64)
    (ctxAfter (tuned i fun c => c.wrS 20 0x10040)).sr.tepc = 0x10040
    ∧ (ctxAfter (tuned i fun c => { (c.wrS 20 0x10041) with sr := { c.sr with tentry := 0x20000 } })).sr.tcause = 0x80000002 := by decide
/-- R361: MFSR reads TREC's reset value. -/
theorem test_mfsr : ((ctxAfter (bench (.mfsr (fw true 0 (.s 20) .zero .zero .zero 6 .f64)))).rdS 20).toNat = 0xFFFF := by decide
/-- R92: the specials of the bench: 32 lanes, one warp, the launch's tag. -/
theorem test_movs : ((ctxAfter (bench (.movs (fw true 0 (.s 20) .zero .zero .zero 2 .f64)))).rdS 20).toNat = 32
    ∧ ((ctxAfter (bench (.movs (fw true 0 (.v 3) .zero .zero .zero 0 .f64)))).rdV 3 7).toNat = 7 := by decide
/-- R242: MXSET of a core where the gang has no block is an illegal operand, which kills the gang's blocks. -/
theorem test_mxset : ((ctxAfter (tuned (.mxset (fw true 0 .zero .zero .zero .zero 0 (.f96i 1))) fun c => c)).coreMask) = 1
    ∧ ((stepped (bench (.mxset (fw true 0 .zero .zero .zero .zero 0 (.f96i 2))))).block? 2).map (fun b => b.killed) = some true := by decide
/-- R272: a spawn index above 63 is the spawn-entry trap. -/
theorem test_spawn_entry : (ctxAfter (tuned (.spawn (fw true 0 (.v 3) (.v 20) .zero .zero 0 (.f96i 64))) fun c =>
    { c with sr := { c.sr with tentry := 0x20000 } })).sr.tcause = 0x8000000A := by decide
/-- R333: COLLCFG answers the former share; a share of 0 is an illegal operand. -/
theorem test_collcfg : ((ctxAfter (bench (.collcfg (fw true 0 (.s 20) .zero .zero .zero 0 (.f96i 8))))).rdS 20).toNat ≤ 16
    ∧ (ctxAfter (tuned (.collcfg (fw true 0 (.s 20) .zero .zero .zero 0 (.f96i 0))) fun c =>
      { c with sr := { c.sr with tentry := 0x20000 } })).sr.tcause = 0x80000002 := by decide

/-! For each statement with hypotheses, states and operands that meet them. First the instructions: `ready` says that on the
bench an instruction meets the hypotheses of `Performs` and `Traps`, `meets` that it also meets a condition. -/

/-- The hypotheses of `Performs` and `Traps` with condition pre, for results o. -/
def holds (v : Env) (pre : Env → Bool) (o : Env → Out) : Bool :=
  v.checkFails.isNone && v.badRegister.isNone && v.badFile.isNone && pre v
    && (!v.endsRun || !v.counted.deadlocks v.c (v.grow (o v)))
/-- They hold of the instruction in the open run of a state. -/
def meets (i : Instr) (s : State) (pre : Env → Bool) (o : Env → Out) : Bool :=
  match s.envOf i with
  | some v => holds v pre o
  | none => false
/-- Those of `PerformsLooking` and `TrapsLooking`. -/
def meetsSeen (i : Instr) (s : State) (pre : Env → Bool) (o : Env → Out) : Bool :=
  match s.envOf i with
  | some v => holds v.seen pre o
  | none => false

theorem meetsSeen_hypotheses {i : Instr} {s : State} {pre : Env → Bool} {o : Env → Out} (h : meetsSeen i s pre o = true) :
    ∃ v, s.envOf i = some v ∧ v.seen.clear ∧ pre v.seen = true ∧ v.seen.mayEnd (o v.seen) := by
  unfold meetsSeen at h
  split at h
  · next v hv =>
    simp only [holds, Bool.and_eq_true, Option.isNone_iff_eq_none, Bool.or_eq_true, Bool.not_eq_true'] at h
    exact ⟨v, hv, ⟨h.1.1.1.1, h.1.1.1.2, h.1.1.2⟩, h.1.2, fun he => h.2.resolve_left (by simp [he])⟩
  · exact absurd h (by decide)

theorem meets_hypotheses {i : Instr} {s : State} {pre : Env → Bool} {o : Env → Out} (h : meets i s pre o = true) :
    ∃ v, s.envOf i = some v ∧ v.clear ∧ pre v = true ∧ v.mayEnd (o v) := by
  unfold meets at h
  split at h
  · next v hv =>
    simp only [holds, Bool.and_eq_true, Option.isNone_iff_eq_none, Bool.or_eq_true, Bool.not_eq_true'] at h
    exact ⟨v, hv, ⟨h.1.1.1.1, h.1.1.1.2, h.1.1.2⟩, h.1.2, fun he => h.2.resolve_left (by simp [he])⟩
  · exact absurd h (by decide)

/-- On the bench, with no condition and the run going on. -/
def ready (i : Instr) : Bool := meets i (bench i) (fun _ => true) fun _ => Out.nil
/-- The same with a condition. -/
def readyIf (i : Instr) (pre : Env → Bool) : Bool := meets i (bench i) pre fun _ => Out.nil
/-- Fields of an instruction within a run, on v4. -/
def fn (sub : Fin 8) (d a b c : Reg) (m : Byte) (x : Ext) : Fields := fieldsWith false sub d a b c m x
def v4 : Reg := .v 4
def s20 : Reg := .s 20
/-- The bench with the matrix files held by its block. -/
def holding (i : Instr) : State :=
  let s := bench i
  s.setCore ⟨0, 0, 0⟩ { s.core ⟨0, 0, 0⟩ with holder := some 2 }
/-- The bench with page 2 mapped at 0x20000, readable and writable, a spawn table there whose entry 0 is valid. -/
def paged (i : Instr) : State :=
  let s := bench i
  let s1 := s.setDie 0 { s.die 0 with tlb := { unit := 24, page := 2, entryAddr := 0, entry := 0x2001D, large := false } :: (s.die 0).tlb }
  ({ s1 with launches := s1.launches.map fun l => { l with record := { l.record with spawn := 0x20000 } } } : State).wrN 0x20000 8 (2 ^ 32)

theorem hyp_IntegerArithmetic : ([.iadd (fn 0 v4 v4 v4 .zero 0 .f64), .isub (fn 0 v4 v4 v4 .zero 0 .f64), .imul (fn 0 v4 v4 v4 .zero 0 .f64)
    , .imad (fn 0 v4 v4 v4 v4 0 .f64), .imin (fn 0 v4 v4 v4 .zero 0 .f64), .imax (fn 1 v4 v4 v4 .zero 0 .f64)
    , .iabs (fn 0 v4 v4 .zero .zero 1 .f64), .ineg (fn 1 v4 v4 .zero .zero 1 .f64)] : List Instr).all ready = true := by decide
theorem hyp_LogicForms : ([Instr.andL (fn 0 v4 v4 v4 .zero 0 .f64), .orL (fn 1 v4 v4 v4 .zero 0 .f64), .xorL (fn 2 v4 v4 v4 .zero 0 .f64)
    , .andn (fn 3 v4 v4 v4 .zero 0 .f64), .orn (fn 4 v4 v4 v4 .zero 0 .f64), .xnor (fn 5 v4 v4 v4 .zero 0 .f64)]).all ready = true := by decide
theorem hyp_ShiftForms : ([Instr.shl (fn 0 v4 v4 v4 .zero 0 .f64), .shr (fn 1 v4 v4 v4 .zero 0 .f64), .sha (fn 2 v4 v4 v4 .zero 0 .f64)
    , .rol (fn 3 v4 v4 v4 .zero 0 .f64)]).all ready = true := by decide
theorem hyp_BitCounts : ([Instr.popc (fn 0 v4 v4 .zero .zero 0 .f64), .clz (fn 1 v4 v4 .zero .zero 0 .f64), .ctz (fn 2 v4 v4 .zero .zero 0 .f64)
    , .brev (fn 3 v4 v4 .zero .zero 0 .f64)]).all ready = true := by decide
theorem hyp_FieldsComparesMoves : ([Instr.bfx (fn 0 v4 v4 v4 .zero 0 .f64), .bfi (fn 0 v4 v4 v4 v4 0 .f64), .icmp (fn 0 v4 v4 v4 .zero 0 .f64)
    , .icmp (fn 0 v4 v4 v4 .zero 8 .f64), .sel (fn 0 v4 v4 v4 v4 0 .f64), .mov (fn 0 v4 v4 .zero .zero 0 .f64)
    , .movI32 (fn 1 v4 .zero .zero .zero 0 (.f96i 8)), .movI64 (fn 2 v4 .zero .zero .zero 0 (.f128i 5))
    , .movs (fn 0 v4 .zero .zero .zero 0 .f64), .lea (fn 0 v4 v4 v4 v4 0 .f64), .plop (fn 0 v4 v4 v4 v4 0 .f64)]).all ready = true := by decide
theorem hyp_BitFields : (3 : Nat) ≤ 3 := by decide

/-- A warp of 16 lanes. -/
def narrow (i : Instr) : State := inLanes (List.range 16) (tuned i fun c => { c with width := 16, lanes := c.lanes.take 16 })
theorem hyp_LaneExchanges : ([Instr.ballot (fn 0 v4 v4 .zero .zero 0 .f64), .vote (fn 0 v4 v4 .zero .zero 0 .f64)
      , .qswap (fn 0 v4 v4 .zero .zero 0 .f64), .qbc (fn 0 v4 v4 .zero .zero 0 .f64), .redux (fn 0 v4 v4 .zero .zero 0 .f64)
      , .scan (fn 0 v4 v4 .zero .zero 0 .f64), .matchL (fn 0 v4 v4 .zero .zero 0 .f64), .rdlane (fn 0 v4 v4 s20 .zero 0 .f64)
      , .wrlane (fn 0 v4 s20 s20 .zero 0 .f64)]).all ready = true
    ∧ readyIf (.shfl (fn 0 v4 v4 v4 .zero 0x28 .f64)) (fun v => decide (2 ^ 5 ≤ v.c.width)) = true
    ∧ (let i := Instr.shfl (fn 0 v4 v4 v4 .zero 0x28 .f64)
      ((narrow i).envOf i).any fun v => v.c.kind != .seq && encOk v.k v.f && decide (v.c.width < 2 ^ 5)) = true := by decide

theorem hyp_FloatInstructions : ([Instr.fadd (fn 0 v4 v4 v4 .zero 0 .f64), .fsub (fn 0 v4 v4 v4 .zero 0 .f64), .fmul (fn 0 v4 v4 v4 .zero 0 .f64)
    , .ffma (fn 0 v4 v4 v4 v4 0 .f64), .fmin (fn 0 v4 v4 v4 .zero 0 .f64), .fmax (fn 0 v4 v4 v4 .zero 0 .f64)
    , .fcmp (fn 0 v4 v4 v4 .zero 0 .f64), .fclass (fn 0 v4 v4 .zero .zero 0 .f64), .frnd (fn 0 v4 v4 .zero .zero 0 .f64)
    , .fdot2 (fn 0 v4 v4 v4 v4 16 .f64), .fcvt (fn 0 v4 v4 .zero .zero 0 .f64), .f2i (fn 0 v4 v4 .zero .zero 0 .f64)
    , .i2f (fn 0 v4 v4 .zero .zero 0 .f64), .fpack (fn 0 v4 v4 v4 .zero 4 .f64), .funpk (fn 0 v4 v4 .zero .zero 4 .f64)
    , .fscl (fn 0 v4 v4 v4 .zero 0 .f64), .frcp (fn 0 v4 v4 .zero .zero 0 .f64), .fsqrt (fn 0 v4 v4 .zero .zero 0 .f64)]).all ready = true := by
  decide
theorem hyp_SpecialFunctions : ([Instr.frsq (fn 0 v4 v4 .zero .zero 0 .f64), .fex2 (fn 0 v4 v4 .zero .zero 0 .f64)
    , .flg2 (fn 0 v4 v4 .zero .zero 0 .f64), .fsin (fn 0 v4 v4 .zero .zero 0 .f64), .fcos (fn 0 v4 v4 .zero .zero 0 .f64)
    , .ftanh (fn 0 v4 v4 .zero .zero 0 .f64)]).all ready = true := by decide
/-- A number in every format, and a NaN among the results of every operation. -/
theorem hyp_FloatRounding : (fdec 0 0x3F800000).isNan = false ∧ (fdec 2 0x3F80).isNan = false ∧ (fdec 4 0x38).isNan = false
    ∧ (fdec 0 (farith 0 0 0 0x7F800000 0xFF800000 0)).isNan = true ∧ (fdec 0 (fminmax false true 0 0x7FC00000 0x7FC00000)).isNan = true
    ∧ (fdec 1 (fcvt 0 1 0 0x7FC00000)).isNan = true ∧ (fdec 0 (frnd 0 0 0x7FC00001)).isNan = true := by decide
theorem hyp_FloatLaws : |(-(2 ^ 24) : Int)| ≤ 2 ^ 24 ∧ |(0 : Int)| ≤ 2 ^ 24 := by decide

/-- The condition on a near target. -/
def nearOk (v : Env) : Bool := decide (v.near.toNat % 4 = 0) && !v.parts.isEmpty
def going (v : Env) : Out := v.goes (v.parts.map fun l => (l, v.near)) Out.nil
def goingTo (g : Env → Nat → W64) (v : Env) : Out := v.goes (v.parts.map fun l => (l, g v l)) Out.nil
theorem hyp_ControlInstructions : ready (.nop (fn 0 v4 v4 v4 v4 0 .f64)) = true
    ∧ (let i := Instr.bra (fn 0 v4 v4 .zero v4 0 (.f96i 8)); meets i (bench i) nearOk going) = true
    ∧ (let i := Instr.bru (fn 0 v4 v4 .zero v4 0 (.f96i 8)); meets i (bench i) nearOk fun v => v.goes (v.r.lanes.map fun l => (l, v.near)) Out.nil)
        = true
    ∧ (let i := Instr.call (fn 0 v4 v4 .zero v4 0 (.f96i 8)); meets i (bench i) nearOk fun v => v.goes (v.parts.map fun l => (l, v.near))
        (v.put true v.parts fun _ => v.next)) = true
    ∧ (let i := Instr.brx (fn 0 v4 s20 v4 v4 0 .f64); meets i (bench i) (fun v => !v.parts.isEmpty)
        (goingTo fun v l => v.rd64 s20 l + (v.rd32 v4 l).setWidth 64)) = true
    ∧ (let i := Instr.callx (fn 0 v4 s20 v4 v4 0 .f64); meets i (bench i) (fun v => !v.parts.isEmpty) fun v =>
        v.goes (v.parts.map fun l => (l, v.rd64 s20 l + (v.rd32 v4 l).setWidth 64)) (v.put true v.parts fun _ => v.next)) = true
    ∧ (let i := Instr.ret (fn 0 v4 v4 v4 v4 0 .f64); meets i (bench i) (fun v => !v.parts.isEmpty) (goingTo fun v => v.rd64 v4)) = true
    ∧ (let i := Instr.loopL (fn 0 v4 v4 .zero v4 0 (.f96i 8))
      meets i (tuned i fun c => c.wrV 4 1 2) (fun v => decide (v.near.toNat % 4 = 0) && (v.c.rdV 4 1 == 2) && (v.c.rdV 4 0 == 0)) fun v =>
        v.goes [(1, v.near)] (Out.regs [Held.v 4 1 1])) = true
    ∧ (let i := Instr.loopL (fn 0 s20 v4 .zero v4 0 (.f96i 8))
      meets i (tuned i fun c => c.wrS 20 2) (fun v => decide (v.near.toNat % 4 = 0) && v.lowG && (v.c.rdS 20 == 2)) fun v =>
        v.goes (v.r.lanes.map fun l => (l, v.near)) (Out.regs [Held.s 20 1])) = true
    ∧ (let i := Instr.loopL (fn 0 .zero v4 .zero v4 0 (.f96i 8)); meets i (bench i) (fun _ => true) fun _ => Out.nil) = true
    ∧ ([Instr.enrol (fn 0 v4 v4 v4 v4 0 .f64), .strike (fn 0 v4 v4 v4 v4 0 .f64)]).all ready = true
    ∧ (let i := Instr.park (fn 0 v4 v4 v4 v4 0 .f64); meets i (bench i) (fun _ => true) fun _ => Out.nil) = true
    ∧ (let i := Instr.park (fn 0 v4 v4 v4 v4 0 .f64)
      meets i (tuned i fun c => { c with m := [(4, 1)] }) (fun v => v.parts.contains 0) fun _ => Out.effect [.park 4 [0]]) = true
    ∧ (let i := Instr.exitL (fn 0 v4 v4 v4 v4 0 .f64); meets i (bench i) (fun v => !v.parts.isEmpty) fun v => Out.effect [.exit v.parts]) = true
    ∧ (let i := Instr.exitSucc (fn 1 .zero s20 s20 .zero 0 .f64)
      meetsSeen i (paged i) (fun v => !v.parts.isEmpty && (v.s.spawnTarget (whoOf v.c) (v.rd64 s20 v.low).toNat).isSome) fun v =>
        Out.effect [.succ 0 0, .exit v.parts]) = true
    ∧ (let i := Instr.yield (fn 0 v4 v4 v4 v4 0 .f64); meets i (bench i) (fun _ => true) fun _ => Out.effect [.yieldWarp]) = true := by decide

theorem hyp_BadTargetsTrap :
    (let i := Instr.bra (fn 0 v4 v4 .zero v4 0 (.f96i 6)); meets i (bench i) (fun v => !v.parts.isEmpty && v.near.toNat % 4 != 0) fun _ => Out.nil) = true
    ∧ (let i := Instr.call (fn 0 v4 v4 .zero v4 0 (.f96i 6)); meets i (bench i) (fun v => !v.parts.isEmpty && v.near.toNat % 4 != 0) fun _ => Out.nil)
        = true
    ∧ (let i := Instr.bru (fn 0 v4 v4 .zero v4 0 (.f96i 6)); meets i (bench i) (fun v => v.lowG && v.near.toNat % 4 != 0) fun _ => Out.nil) = true
    ∧ (let i := Instr.ret (fn 0 v4 v4 v4 v4 0 .f64)
      meets i (tuned i fun c => (c.wrV 4 1 2).wrV 5 2 0x1000000) (fun v => v.parts.any fun l => (v.rd64 v4 l).toNat % 4 != 0) fun _ => Out.nil) = true
    ∧ (let i := Instr.exitSucc (fn 1 .zero s20 s20 .zero 0 .f64)
      meetsSeen i (tuned i fun c => c.wrS 20 64) (fun v => !v.parts.isEmpty && decide (63 < (v.rd64 s20 v.low).toNat)) (fun _ => Out.nil)
        && meetsSeen i (bench i) (fun v => !v.parts.isEmpty && (v.s.spawnTarget (whoOf v.c) (v.rd64 s20 v.low).toNat).isNone) fun _ => Out.nil) = true := by
  decide

set_option maxRecDepth 4000 in
theorem hyp_BadTargetsTrap_far :
    (let i := Instr.loopL (fn 0 v4 v4 .zero v4 0 (.f96i 6));
      meets i (tuned i fun c => c.wrV 4 1 2) (fun v => v.near.toNat % 4 != 0
        && !(v.parts.filter fun l => v.c.rdV 4 l != 0 && v.c.rdV 4 l != 1).isEmpty) fun _ => Out.nil) = true
    ∧ (let i := Instr.loopL (fn 0 s20 v4 .zero v4 0 (.f96i 6))
      meets i (tuned i fun c => c.wrS 20 2) (fun v => v.lowG && v.near.toNat % 4 != 0 && !v.r.lanes.isEmpty && v.c.rdS 20 == 2) fun _ => Out.nil) = true
    ∧ ([Instr.brx (fn 0 v4 s20 v4 v4 0 .f64), .callx (fn 0 v4 s20 v4 v4 0 .f64)].all fun i =>
      meets i (tuned i fun c => c.wrS 20 0x1002) (fun v => !(v.parts.filter fun l =>
        decide ((v.rd64 s20 l + (v.rd32 v4 l).setWidth 64).toNat % 4 ≠ 0)).isEmpty) (fun _ => Out.nil)
      && meets i (tuned i fun c => c.wrS 20 (2 ^ 56)) (fun v => !(v.parts.filter fun l =>
        decide (2 ^ 56 ≤ (v.rd64 s20 l + (v.rd32 v4 l).setWidth 64).toNat)).isEmpty) fun _ => Out.nil) = true := by decide

/-- The address of a word of the bench's scratchpad, and of one in the next core's. -/
def loc0 : Nat := mapBase 0 0 0
/-- The bench with s20, s21 and s22 given. -/
def sregs (a b c : Nat) (i : Instr) : State :=
  tuned i fun x => ((x.wrS 20 (BitVec.ofNat 64 a)).wrS 21 (BitVec.ofNat 64 b)).wrS 22 (BitVec.ofNat 64 c)

theorem hyp_LoadInstructions : ([Instr.ld (fn 0 v4 s20 v4 v4 0 .f64), .ldu (fn 0 s20 s20 s20 v4 0 .f64), .prf (fn 0 .zero s20 v4 v4 0 .f64)
    , .xlat (fn 0 v4 s20 v4 v4 0 .f64)]).all ready = true := by decide
/-- A store to the block's scratchpad passes its checks, one to an unmapped address below 2^56 too (its page is absent); a
misaligned one fails. -/
theorem hyp_StoreInstructions :
    readyIf (.st (fn 2 v4 s20 v4 .zero 0 (.f96i 0x01000010))) (fun v => !v.parts.isEmpty && (v.s.preCheck (whoOf v.c) .write false 1 4
      [v.cell 4 0 v.disp (v.data 4 0) 0]).isNone) = true
    ∧ readyIf (.stu (fn 2 s20 s20 s20 .zero 0 (.f96i 0x01000010))) (fun v => v.lowG && (v.s.preCheck (whoOf v.c) .write false 1 4
      [v.cell 4 0 v.disp (v.data 4 0) 0]).isNone) = true
    ∧ readyIf (.st (fn 2 v4 s20 v4 .zero 0 (.f96i 0x01000012))) (fun v => !v.parts.isEmpty && (v.s.preCheck (whoOf v.c) .write false 1 4
      [v.cell 4 0 v.disp (v.data 4 0) 0]).isSome) = true
    ∧ readyIf (.stu (fn 2 s20 s20 s20 .zero 0 (.f96i 0x01000012))) (fun v => v.lowG && (v.s.preCheck (whoOf v.c) .write false 1 4
      [v.cell 4 0 v.disp (v.data 4 0) 0]).isSome) = true := by decide
/-- A store and a load of lane 0 at offset 16 of the scratchpad. -/
def accAt (a : Nat) : Acc := { lane := 0, addr := a, x := (7, 0), y := 0 }
def benchWho : Who := whoOf ((bench (.nop (fn 0 v4 v4 v4 v4 0 .f64))).ctxs.headD (ctxAfter State.reset))
theorem hyp_StoreWritesItsBytes : let r := (bench (.nop (fn 0 v4 v4 v4 v4 0 .f64))).tryAccess benchWho 1 8 16 .write false
    r.2 = .ok (loc0 + 16) ∧ Memory.wf r.1.mem = true := by decide
theorem hyp_LoadReadsElement : let r := (bench (.nop (fn 0 v4 v4 v4 v4 0 .f64))).tryAccess benchWho 1 8 16 .read false
    r.2 = .ok (loc0 + 16) ∧ r.1.badRead (loc0 + 16) 8 = false := by decide
/-- No right; with it; translation off. -/
theorem hyp_TranslationOfCachedPages : let s := paged (.nop (fn 0 v4 v4 v4 v4 0 .f64))
    (s.reg benchWho.die 0x100000).getLsbD 0 = true ∧ s.tlbHit benchWho.die benchWho.units 0x20010 = some (.leaf 0 0x2001D false)
      ∧ s.tlbHit benchWho.die benchWho.units 0x10010 = some (.leaf 0 0x10011 false)
      ∧ AccessType.read.reads = true ∧ AccessType.write.writes = true ∧ (0x2001D#64).getLsbD 2 = true ∧ (0x2001D#64).getLsbD 3 = true
      ∧ (0x10011#64).getLsbD 2 = false ∧ (0x10011#64).getLsbD 3 = false
      ∧ s.place (leafPa 0x2001D false 0x20010) = .hbm 0 ∧ (s.reg 0 0x19FFF8).getLsbD 0 = false ∧ (s.reg 1 0x19FFF8).getLsbD 0 = false
      ∧ (0x2001D#64).getLsbD 12 = false ∧ (State.reset.reg benchWho.die 0x100000).getLsbD 0 = false := by decide
theorem hyp_MatrixFileInstructions :
    ([Instr.twr (fn 0 v4 v4 s20 .zero 0 .f64), .acwr (fn 0 v4 v4 s20 .zero 0 .f64), .trd (fn 0 v4 v4 s20 .zero 0 .f64)
      , .acrd (fn 0 v4 v4 s20 .zero 0 .f64), .tscl (fn 0 v4 v4 s20 .zero 0 .f64)]).all fun i =>
      meets i (holding i) (fun v => decide ((v.s.core v.c.loc).holder = some v.c.block)) (fun _ => Out.nil)
      && meets i (bench i) (fun v => !v.parts.isEmpty && decide ((v.s.core v.c.loc).holder ≠ some v.c.block)) fun _ => Out.nil := by decide
theorem hyp_ResidencyBinding : ready (.resb (fn 0 s20 s20 s20 .zero 0 .f64)) = true
    ∧ (let b := ((bench (.nop (fn 0 v4 v4 v4 v4 0 .f64))).blocks.map fun b => b).head?
      b.map (fun b => ((resbRegions 0 1 b false 0 1024 []).1, (resbRegions 5 1 b false 0 1024 []).1, (resbRegions 5 1 b false 523264 1024 []).1
        , (resbRegions 5 1 b false 524288 1024 []).1 == 0, (resbRegions 5 1 b true 0 1024 (resbRegions 5 1 b false 0 1024 []).2).1))
        = some (1, 0, 0, false, 0)) := by decide

theorem hyp_TokenInstructions : ([Instr.fence (fn 0 .zero .zero .zero .zero 0 .f64), .fencek (fn 0 .zero .zero .zero .zero 32 .f64)
      , .tkq (fn 0 s20 .zero .zero .zero 0 .f64), .tkclr (fn 0 .zero s20 .zero .zero 0 .f64), .tkpsn (fn 0 v4 s20 .zero .zero 0 .f64)]).all ready = true
    ∧ (let i := Instr.waitk (fn 0 s20 s20 .zero .zero 0 .f64)
      meets i (bench i) (fun v => v.lowG) fun v => Out.effect [.wait (.waitk 0 s20 v.r.pc) v.r.lanes]) = true
    ∧ (let i := Instr.twaitk (fn 0 v4 s20 s20 .zero 0 .f64)
      meets i (bench i) (fun v => v.lowG) fun v => Out.effect [.wait (.twaitk 0 4 0 v.r.pc) v.r.lanes]) = true
    ∧ (let i := Instr.bsync (fn 0 (.v 1) .zero .zero .zero 0 .f64)
      meets i (bench i) (fun v => v.lowG) fun v => Out.effect [.wait (.bsync 1) v.r.lanes]) = true := by decide
theorem hyp_BarrierInstructions :
    (let i := Instr.pbinit (fn 0 .zero s20 (.s 21) (.s 22) 1 .f64);
      let cond := fun v : Env => v.lowG && (v.s.preCheck (whoOf v.c) .write false 1 32 (v.place1 (v.rd64 s20 v.low) 0)).isNone
        && v.placeOk 0 (v.rd64 s20 v.low)
      meets i (sregs 64 1 0 i) cond (fun _ => Out.nil) && meets i (sregs 64 (2 ^ 24 - 1) (2 ^ 48 - 1) i) cond (fun _ => Out.nil)
        && meets i (sregs 64 0 0 i) (fun v => v.lowG) (fun _ => Out.nil) && meets i (sregs 64 (2 ^ 24) 0 i) (fun v => v.lowG) fun _ => Out.nil) = true
    ∧ (let i := Instr.pbarr (fn 0 .zero s20 (.s 21) (.s 22) 1 .f64)
      let cond := fun v : Env => v.lowG && (v.s.preCheck (whoOf v.c) .rmw false 1 32 (v.place1 (v.rd64 s20 v.low) 0)).isNone
      meets i (sregs 64 (2 ^ 24 - 1) (2 ^ 48 - 1) i) cond (fun _ => Out.nil)
        && meets i (sregs 64 0 (2 ^ 48) i) (fun v => v.lowG) (fun _ => Out.nil) && meets i (sregs 64 (2 ^ 24) 0 i) (fun v => v.lowG) fun _ => Out.nil) = true
    ∧ (let i := Instr.tkarr (fn 0 v4 s20 (.s 21) .zero 1 .f64)
      meets i (sregs 64 (2 ^ 48 - 1) 0 i) (fun v => v.lowG && (v.s.preCheck (whoOf v.c) .rmw false 1 32 (v.place1 (v.rd64 s20 v.low) 0)).isNone)
        (fun _ => Out.nil) && meets i (sregs 64 (2 ^ 48) 0 i) (fun v => v.lowG) fun _ => Out.nil) = true
    ∧ ready (.pbwait (fn 0 (.v 1) s20 s20 .zero 0 .f64)) = true
    ∧ (let i := Instr.monwait (fn 0 s20 s20 s20 s20 2 .f64)
      meets i (bench i) (fun v => v.lowG && (v.s.preCheck (whoOf v.c) .read false 1 4 (v.place1 (v.rd64 s20 v.low) 0)).isNone) fun v =>
        Out.effect [.wait (.monwait false 1 0 s20 0 0 false v.r.pc) v.r.lanes]) = true := by decide
/-- An object that is not aligned, and one placed where its scope cannot reach it. -/
theorem hyp_BarrierInstructions_traps :
    ([Instr.pbarr (fn 0 .zero s20 (.s 21) (.s 22) 1 .f64), .tkarr (fn 0 v4 s20 (.s 21) .zero 1 .f64)].all fun i =>
      meets i (sregs 65 1 0 i) (fun v => v.lowG && (v.s.preCheck (whoOf v.c) .rmw false 1 32 (v.place1 (v.rd64 s20 v.low) 0)).isSome) fun _ => Out.nil) = true
    ∧ (let i := Instr.pbinit (fn 0 .zero s20 (.s 21) (.s 22) 1 .f64)
      meets i (sregs 65 1 0 i) (fun v => v.lowG && (v.s.preCheck (whoOf v.c) .write false 1 32 (v.place1 (v.rd64 s20 v.low) 0)).isSome) fun _ => Out.nil) = true
    ∧ (let i := Instr.pbinit (fn 0 .zero s20 (.s 21) (.s 22) 0 .f64)
      meets i { paged i with ctxs := (sregs 0x20040 1 0 i).ctxs } (fun v => v.lowG
        && (v.s.preCheck (whoOf v.c) .write false 0 32 (v.place1 (v.rd64 s20 v.low) 0)).isNone && !v.placeOk 0 (v.rd64 s20 v.low)) fun _ => Out.nil) = true
    ∧ (let i := Instr.monwait (fn 0 s20 s20 s20 s20 2 .f64)
      meets i (sregs 2 0 0 i) (fun v => v.lowG && (v.s.preCheck (whoOf v.c) .read false 1 4 (v.place1 (v.rd64 s20 v.low) 0)).isSome) fun _ => Out.nil) = true := by
  decide
/-- A pending token; a precondition pending on a free token. -/
theorem hyp_DispatchMakesPending : let s := tuned (.nop (fn 0 v4 v4 v4 v4 0 .f64)) fun c => { c with tok := [(1, .pending 0)] }
    let c := s.ctxs.headD (ctxAfter State.reset)
    (c.rdTok 1).isPending = true ∧ (c.rdTok 2).isPending = false ∧ s.ctx? c.id = some c ∧ s.queueFull c .fencek = false
      ∧ s.cmdSession c.launch .fencek = none ∧ (∀ o ∈ s.ops, o.id < s.nextId) ∧ (∃ j ∈ [0, 1], (c.rdTok j).isPending = true) := by decide

theorem hyp_AtomicInstructions : ([Instr.atom (fn 0 v4 s20 v4 v4 0 (.f96x 65280)), .cas (fn 0 v4 s20 v4 v4 0 (.f96x 65280))
      , .fatom (fn 0 v4 s20 v4 v4 0 (.f96x 65280)), .atomu (fn 0 s20 s20 s20 s20 0 (.f96x 65280))]).all ready = true
    ∧ ([Instr.red (fn 0 .zero s20 v4 v4 0 (.f96x 0xFF08)), .fred (fn 0 .zero s20 v4 v4 0 (.f96x 0xFF08))]).all (fun i =>
      meets i (bench i) (fun v => !v.parts.isEmpty && (v.s.preCheck (whoOf v.c) .rmw true 1 4 [v.cell 4 0 0 (0, 0) 0]).isNone) (fun _ => Out.nil)
      && meets i (sregs 2 0 0 i) (fun v => !v.parts.isEmpty && (v.s.preCheck (whoOf v.c) .rmw true 1 4 [v.cell 4 0 0 (0, 0) 0]).isSome) fun _ => Out.nil)
        = true := by decide
theorem hyp_AtomicsAtHome : (State.reset.wrN 0x40 4 7).badRead 0x40 4 = false ∧ Memory.wf (State.reset.wrN 0x40 4 7).mem = true
    ∧ BitVec.ofNat 32 ((State.reset.wrN 0x40 4 7).readN 0x40 4) = (7#64).setWidth 32
    ∧ BitVec.ofNat 32 ((State.reset.wrN 0x40 4 7).readN 0x40 4) ≠ (8#64).setWidth 32 := by decide

theorem hyp_MatrixInstructions : ([Instr.mma (fn 0 v4 v4 s20 .zero 0 (.f96x 2)), .mmas (fn 0 v4 v4 s20 s20 0 (.f96x 2))
      , .aczero (fn 0 v4 .zero .zero .zero 0 .f64), .acdrain (fn 0 v4 s20 s20 s20 0 (.f96x 2)), .acdrainAdd (fn 1 v4 s20 s20 s20 0 (.f96x 2))
      , .acload (fn 0 v4 s20 s20 s20 0 (.f96x 2)), .mxq (fn 0 s20 .zero .zero .zero 0 .f64)]).all ready = true
    ∧ readyIf (.mxset (fn 0 .zero .zero .zero .zero 0 (.f96i 1))) (fun v => v.lowG && (v.s.gangBlock v.c.gang 0).isSome) = true
    ∧ readyIf (.mxset (fn 0 .zero .zero .zero .zero 0 (.f96i 2))) (fun v => v.lowG && (v.s.gangBlock v.c.gang 1).isNone) = true := by decide
theorem hyp_GrammarInstructions : ([Instr.gbind (fn 0 .zero s20 s20 .zero 0 (.f96x 2)), .gmv (fn 0 .zero s20 s20 s20 0 (.f96x 2))
    , .gmva (fn 0 .zero s20 s20 s20 0 (.f96x 2)), .grvrd (fn 0 .zero s20 s20 s20 0 (.f96x 2)), .gabort (fn 0 .zero .zero .zero .zero 0 .f64)]).all
      ready = true := by decide
/-- With a valid entry and no join counter; with an index above 63. -/
theorem hyp_SpawnInstructions : ([Instr.jcwait (fn 0 .zero s20 .zero .zero 0 .f64), .launchg (fn 0 .zero s20 s20 .zero 0 .f64)
      , .spq (fn 0 s20 .zero .zero .zero 0 .f64)]).all ready = true
    ∧ (let i := Instr.spawn (fn 0 v4 (.v 20) .zero .zero 0 (.f96i 0))
      meetsSeen i (paged i) (fun v => !v.parts.isEmpty && v.parts.all fun l => (v.s.spawnTarget (whoOf v.c) (v.spawnIdx l)).isSome) fun _ => Out.nil) = true
    ∧ (let i := Instr.spawn (fn 0 v4 (.v 20) .zero .zero 0 (.f96i 64))
      meetsSeen i (bench i) (fun v => v.parts.any fun l => decide (63 < v.spawnIdx l)) fun _ => Out.nil) = true
    ∧ ([Instr.jcinit (fn 0 .zero s20 s20 .zero 1 .f64), .jcadd (fn 0 .zero s20 s20 .zero 1 .f64)]).all (fun i =>
      meets i (sregs loc0 0 0 i) (fun v => v.lowG && (v.s.preCheck (whoOf v.c) .rmw true 3 8 (v.place1 (v.rd64 s20 v.low) 0)).isNone)
        fun _ => Out.nil) = true := by decide

/-- A join counter that is not aligned. -/
theorem hyp_SpawnInstructions_traps :
    (let i := Instr.spawn (fn 0 v4 (.v 20) .zero s20 0 (.f96i 0));
      meetsSeen i { paged i with ctxs := (sregs 1 0 0 i).ctxs } (fun v => (v.parts.all fun l => (v.s.spawnTarget (whoOf v.c) (v.spawnIdx l)).isSome)
        && (v.s.preCheck (whoOf v.c) .rmw true 0 8 ((v.parts.filter fun l => v.rd64 s20 l != 0).map fun l =>
          ({ lane := l, addr := (v.rd64 s20 l).toNat, x := (1, 0), y := 0 } : Acc))).isSome) fun _ => Out.nil) = true
    ∧ ([Instr.jcinit (fn 0 .zero s20 s20 .zero 1 .f64), .jcadd (fn 0 .zero s20 s20 .zero 1 .f64)].all fun i =>
      meets i (sregs 1 0 0 i) (fun v => v.lowG && (v.s.preCheck (whoOf v.c) .write false 3 8 (v.place1 (v.rd64 s20 v.low) 0)).isSome
        && (v.s.preCheck (whoOf v.c) .rmw true 3 8 (v.place1 (v.rd64 s20 v.low) 0)).isSome) fun _ => Out.nil) = true := by decide
/-- A ring of slots whose size is 0; a descriptor that is not aligned. -/
theorem hyp_CopyAndRingInstructions_traps : let i := Instr.rinit (fn 0 .zero s20 (.s 21) (.s 22) 1 .f64)
    meets i (sregs 64 128 0 i) (fun v => v.lowG && (v.s.preCheck (whoOf v.c) .rmw false 1 64 (v.place1 (v.rd64 s20 v.low) 0)).isNone
        && (match (v.s.ringAt (whoOf v.c) 1 (v.rd64 s20 v.low)).2 with
          | .ok pa => v.s.ringMalformed (whoOf v.c) (ringOf pa (v.rd64 (.s 21) v.low) (v.rd64 (.s 22) v.low))
          | _ => false)) (fun _ => Out.nil) = true
    ∧ meets i (sregs 65 128 0 i) (fun v => v.lowG && (v.s.preCheck (whoOf v.c) .rmw false 1 64 (v.place1 (v.rd64 s20 v.low) 0)).isSome)
        (fun _ => Out.nil) = true := by decide

/-- A descriptor of four slots of 64 bytes after it, which RINIT accepts. -/
theorem hyp_CopyAndRingInstructions : ([Instr.cpy (fn 0 .zero s20 s20 s20 0 .f64), .cpyRing (fn 0 .zero s20 s20 s20 0 (.f96x 0x8A))
      , .cpygGather (fn 0 .zero s20 s20 s20 0 .f64), .cpygScatter (fn 1 .zero s20 s20 s20 0 .f64), .racqProd (fn 0 s20 s20 .zero .zero 0 .f64)
      , .racqCons (fn 1 s20 s20 .zero .zero 0 .f64), .rrelPub (fn 0 .zero s20 s20 s20 0 .f64), .rrelPubLast (fn 0 .zero s20 s20 s20 128 .f64)
      , .rrelFree (fn 1 .zero s20 s20 .zero 0 .f64), .srd (fn 0 v4 s20 v4 .zero 0 .f64), .hdec (fn 0 v4 s20 s20 .zero 0 .f64)]).all ready = true
    ∧ (let i := Instr.rinit (fn 0 .zero s20 (.s 21) (.s 22) 1 .f64)
      meets i (sregs 64 128 (64 + 2 ^ 32 * 4) i) (fun v => v.lowG && (v.s.preCheck (whoOf v.c) .rmw false 1 64 (v.place1 (v.rd64 s20 v.low) 0)).isNone
        && (match (v.s.ringAt (whoOf v.c) 1 (v.rd64 s20 v.low)).2 with
          | .ok pa => !v.s.ringMalformed (whoOf v.c) (ringOf pa (v.rd64 (.s 21) v.low) (v.rd64 (.s 22) v.low))
          | _ => false)) fun _ => Out.nil) = true := by decide
theorem hyp_StreamInstructions : (let i := Instr.sbind (fn 0 s20 s20 s20 .zero 0 .f64)
      meetsSeen i (bench i) (fun _ => true) fun _ => Out.nil) = true
    ∧ ([Instr.sctlStat (fn 0 s20 s20 .zero .zero 0 .f64)
      , .sctlDlen (fn 0 s20 s20 .zero .zero 1 .f64), .sctlYlen (fn 0 s20 s20 .zero .zero 2 .f64), .sctlElen (fn 0 s20 s20 .zero .zero 3 .f64)
      , .sctlStop (fn 0 s20 s20 .zero .zero 4 .f64)]).all ready = true
    ∧ readyIf (.semit (fn 0 s20 s20 v4 .zero 6 .f64)) (fun v => !v.parts.isEmpty && (v.s.preCheck (whoOf v.c) .write false 1 4
      [{ lane := 0, addr := 0, x := (0, 0), y := 0 }]).isNone) = true := by decide
theorem hyp_StreamInstructions_trap : let i := Instr.semit (fn 0 s20 s20 v4 .zero 6 .f64)
    meets i (sregs 2 0 0 i) (fun v => !v.parts.isEmpty && (v.s.preCheck (whoOf v.c) .write false 1 4
      [{ lane := 0, addr := 2, x := (0, 0), y := 0 }]).isSome) (fun _ => Out.nil) = true := by decide
theorem hyp_FabricInstructions : ([Instr.rld (fn 0 v4 s20 v4 .zero 0 (.f96x 40962)), .rst (fn 0 v4 s20 v4 .zero 0 (.f96x 40962))
      , .ratom (fn 0 v4 s20 v4 v4 0 (.f96x 40962)), .rcpy (fn 0 .zero s20 s20 s20 0 (.f96x 40962)), .rstm (fn 0 .zero s20 s20 s20 0 (.f96x 40962))
      , .collAr (fn 0 .zero s20 .zero .zero 0 .f64), .collRs (fn 1 .zero s20 .zero .zero 0 .f64), .collAg (fn 2 .zero s20 .zero .zero 0 .f64)
      , .rfence (fn 0 .zero .zero .zero .zero 0 .f64), .collcfg (fn 0 s20 .zero .zero .zero 0 (.f96i 1)), .collcfg (fn 0 s20 .zero .zero .zero 0 (.f96i 16))
      , .collcfg (fn 0 s20 .zero .zero .zero 0 (.f96i 0)), .collcfg (fn 0 s20 .zero .zero .zero 0 (.f96i 17))]).all
      (fun i => readyIf i fun v => v.lowG) = true := by decide
theorem hyp_EncoderInstructions : ([Instr.vcfg (fn 0 s20 s20 .zero .zero 0 .f64), .vcfgClose (fn 0 s20 s20 .zero .zero 128 .f64)
    , .venc (fn 0 s20 s20 s20 s20 0 .f64), .vqry (fn 0 s20 s20 .zero .zero 0 .f64)]).all ready = true := by decide

/-- The bench with the debug right of its launch. -/
def debugged (i : Instr) : State := ((bench i).setReg 0 0x200040 1).setReg 0 0x200000 1
theorem hyp_SystemInstructions :
    readyIf (.trap (fn 0 .zero s20 .zero .zero 0x2A .f64)) (fun v => !v.parts.isEmpty) = true
    ∧ (let i := Instr.trap { fn 0 .zero s20 .zero .zero 0x2A .f64 with pg := 1 }; meets i (bench i) (fun v => v.parts.isEmpty) fun _ => Out.nil) = true
    ∧ (let i := Instr.bkpt (fn 0 .zero .zero .zero .zero 0 .f64)
      meets i (debugged i) (fun v => !v.parts.isEmpty && v.s.debugRight v.c.launch)
          (fun v => Out.effect [.haltLanes v.parts v.pc (v.s.pastPads v.c.loc v.next) 0])
        && meets i (bench i) (fun v => !v.parts.isEmpty && !v.s.debugRight v.c.launch) fun _ => Out.nil) = true
    ∧ (let i := Instr.haltL (fn 0 .zero .zero .zero .zero 0 .f64)
      meets i (debugged i) (fun v => !v.parts.isEmpty) (fun v => Out.effect [.haltLanes v.parts v.pc (v.s.pastPads v.c.loc v.next) 0])) = true
    ∧ readyIf (.mfsr (fn 0 s20 .zero .zero .zero 0 .f64)) (fun v => v.lowG) = true
    ∧ (let i := Instr.mfsr (fn 0 s20 .zero .zero .zero 0x10 .f64)
      meets i (tuned i fun c => { c with kind := .seq }) (fun v => decide (v.c.kind = .seq)) fun _ => Out.nil) = true
    ∧ (let i := Instr.mtsr (fn 0 .zero s20 .zero .zero 4 .f64)
      meets i (bench i) (fun v => v.lowG) (fun _ => Out.nil) && meets i (sregs 1 0 0 i) (fun v => v.lowG) fun _ => Out.nil) = true
    ∧ ([Instr.tmark (fn 0 .zero s20 .zero .zero 0 .f64), .pcnt (fn 0 s20 .zero .zero .zero 0 .f64), .clock (fn 0 s20 .zero .zero .zero 0 .f64)]).all
      ready = true := by decide
/-- In the handler, by all of TLANES; and outside it. -/
theorem hyp_ReturnFromHandler : let i := Instr.eret (fieldsWith true 0 .zero .zero .zero .zero 0 .f64)
    meets i (inLanes [0, 1] (tuned i fun c => { c with sr := { c.sr with tcause := 0x80000004, tlanes := 3, tepc := 0x10040 } }))
      (fun v => v.lowG && v.c.eretLegal v.r.lanes) (fun _ => Out.effect [.eret]) = true
    ∧ meets i (bench i) (fun v => v.lowG && !v.c.eretLegal v.r.lanes) (fun _ => Out.nil) = true
    ∧ ((bench i).ctxs.all fun c => c.lanes.length == c.width) = true := by decide

/-! The step, traps and commit. -/

/-- A NOP on the bench, its run going on, and its context. -/
def plainNop : Instr := .nop (fn 0 v4 v4 v4 v4 0 .f64)
def nopBench : State := bench plainNop
def ctxOf (s : State) : Ctx := s.ctxs.headD (ctxAfter State.reset)
def runOf (s : State) : Run := s.run.getD { ctx := 0, lanes := [], first := 0, pc := 0, count := 0, e := [], held := [], effs := [], jumps := [], clash := [] }

theorem hyp_codeAt : nopBench.codeAt (ctxOf nopBench) 0x10000 0x10000 :=
  ⟨by decide, by decide, ⟨0, 0x10011, false, by decide⟩, ⟨0, by decide⟩, by decide, by decide, by decide⟩
theorem hyp_StepRunsDecoded : nopBench.run = some (runOf nopBench) ∧ nopBench.ctx? (runOf nopBench).ctx = some (ctxOf nopBench)
    ∧ (runOf nopBench).pc = 0x10000 ∧ decode (nopBench.readBytes (0x10000 + 0x10000 % 32) (32 - 0x10000 % 32)) = .ok plainNop 8 := by decide
/-- A pad word at the run's address; an address at 2^56; translation off. -/
theorem hyp_FetchTraps : (let s := nopBench.wrN 0x10000 4 3
      s.codeAt (ctxOf s) 0x10000 0x10000 ∧ ∀ i n, decode (s.readBytes (0x10000 + 0x10000 % 32) (32 - 0x10000 % 32)) ≠ .ok i n)
    ∧ 2 ^ 56 ≤ (0x100000000000000 : W64).toNat ∧ ((nopBench.setReg 0 0x100000 0).reg 0 0x100000).getLsbD 0 = false := by
  refine ⟨⟨⟨by decide, by decide, ⟨0, 0x10011, false, by decide⟩, ⟨0, by decide⟩, by decide, by decide, by decide⟩, fun i n h => ?_⟩, by decide⟩
  have hp : decode ((nopBench.wrN 0x10000 4 3).readBytes (0x10000 + 0x10000 % 32) (32 - 0x10000 % 32)) = .pad := by decide
  rw [hp] at h
  cases h
/-- A run that has come, after an instruction, to a row of pads up to the end of its block; the page goes on with code. -/
def padBench : State :=
  let s := nopBench.wr 0x10010 ((List.range 4).flatMap fun _ => leBytes 4 3)
  { s with run := s.run.map fun r => { r with pc := 0x10010, count := 1 } }
theorem hyp_FetchTraps_pads : (let s := padBench
      s.codeAt (ctxOf s) 0x10010 0x10000 ∧ ∀ i n, decode (s.readBytes (0x10000 + 0x10010 % 32) (32 - 0x10010 % 32)) ≠ .ok i n)
    ∧ (runOf padBench).count ≠ 0 ∧ padBench.pastPads (ctxOf padBench).loc 0x10010 ≠ 0x10010 ∧ (runOf nopBench).count = 0 := by
  refine ⟨⟨⟨by decide, by decide, ⟨0, 0x10011, false, by decide⟩, ⟨0, by decide⟩, by decide, by decide, by decide⟩, fun i n h => ?_⟩, by decide⟩
  have hp : decode (padBench.readBytes (0x10000 + 0x10010 % 32) (32 - 0x10010 % 32)) = .pad := by decide
  rw [hp] at h
  cases h
/-- Whether the encoding, the context and the operands pass, and the cause of the check that fails. -/
def checked (i : Instr) (s : State) : Option (Bool × Bool × Bool × Nat) :=
  (s.envOf i).map fun v => (encOk v.k v.f, contextOk v.c.kind v.k v.f, operandsOk v.c.vregs v.k v.f, (v.checkFails.map fun x => x.1).getD 0)
/-- An odd pair; a class 0x8 instruction in a lane warp; an encoding that breaks its class's rule. -/
theorem hyp_FailedChecksTrap : checked (.iadd (fn 1 (.v 3) (.v 2) .zero .zero 3 (.f96i 100))) nopBench = some (true, true, false, 2)
    ∧ (checked (.mma (fn 0 v4 v4 s20 .zero 0 (.f96x 2))) nopBench).map (fun x => (x.1, x.2.1, x.2.2.2)) = some (true, false, 3)
    ∧ (checked (.iadd (fn 2 v4 v4 v4 .zero 0 .f64)) nopBench).map (fun x => (x.1, x.2.2.2)) = some (false, 1) := by decide
/-- A TRAP that is not the first of its run; a SHFL of a segment too wide; an instruction whose register another one of the run
writes too. -/
theorem hyp_FailedChecksTrap_runs :
    (let i := Instr.trap (fn 0 .zero s20 .zero .zero 0x2A .f64);
      (({ bench i with run := (bench i).run.map fun r => { r with count := 1 } } : State).envOf i).map fun v => (v.k, v.r.count, v.checkFails))
        = some (.trap, 1, some (1, 0x10000))
    ∧ (let i := Instr.shfl (fn 0 v4 v4 v4 .zero 0x28 .f64)
      ((narrow i).envOf i).map fun v => (v.k, v.segment, v.c.width, v.checkFails)) = some (.shfl, 32, 16, some (1, 0x10000))
    ∧ (let i := Instr.iadd (fn 0 v4 v4 v4 .zero 0 .f64)
      (({ bench i with run := (bench i).run.map fun r => { r with clash := [0x10000] } } : State).envOf i).map fun v =>
        (operandsOk v.c.vregs v.k v.f, v.checkFails)) = some (true, some (2, 0x10000)) := by decide
/-- A SHFL of a segment of two lanes in a sequencer context: the launch is wider, and the context may not execute it. -/
theorem hyp_FailedChecksTrap_sequencer : let i := Instr.shfl (fn 0 v4 v4 v4 .zero 0x08 .f64)
    ((tuned i fun c => { c with kind := .seq, width := 1 }).envOf i).map (fun v => (v.segment, v.checkFails)) = some (2, some (3, 0x10000)) := by
  decide
theorem hyp_ContextClasses : Kind.mma.info.op / 16 = 8 ∧ Kind.ld.info.op / 16 = 5 ∧ Kind.atom.info.op / 16 = 7 ∧ Kind.fadd.info.op / 16 = 3
    ∧ Kind.iadd.info.op / 16 = 1 ∧ contextOk .seq .iadd (fn 0 s20 s20 s20 .zero 0 .f64) = true := by decide
/-- A warp with a handler, one lane trapping; the same for a producer slot. -/
def plainTrap : TrapInfo :=
  { cause := 4, detail := 0, psn := false, token := 0, lanes := [2], fault := [2], taddr := 0x10000, tepc := 0x10000, tval := 7, trec := 0xFFFF }
theorem hyp_TrapEntry : ∀ k ∈ [CtxKind.lane, .slot], let s := tuned plainNop fun c => { c with kind := k, sr := { c.sr with tentry := 0x20000 } }
    s.ctx? (ctxOf s).id = some (ctxOf s) ∧ (ctxOf s).kind ≠ .seq ∧ (ctxOf s).inh = false ∧ (ctxOf s).sr.tentry ≠ 0 ∧ plainTrap.lanes.Nodup
      ∧ 2 < (ctxOf s).lanes.length := by decide
/-- A warp without a handler, and one in its handler. -/
def killBench (entry cause : W64) : State := tuned plainNop fun c => { c with sr := { c.sr with tentry := entry, tcause := cause } }
theorem hyp_KillingTrap : ∀ s ∈ [killBench 0 0, killBench 0x20000 0x80000004],
    s.ctx? (ctxOf s).id = some (ctxOf s) ∧ (ctxOf s).kind = .lane ∧ ((ctxOf s).inh = true ∨ (ctxOf s).sr.tentry = 0)
      ∧ ((s.block? (ctxOf s).block).any fun b => !b.killed && !b.child) = true
      ∧ (s.launches.all fun l => l.firstKill.isNone) = true := by decide
/-- Lane 0 parked on a mask of lane 0 alone; on a mask of lanes 0 and 1; a runnable lane. -/
theorem hyp_MaskRelease : let p := fun (m : W64) => let c := ctxOf nopBench
      { c with m := [(2, m)], lanes := c.lanes.set 0 { c.lane 0 with st := .parked 2 } }
    Table.wf 0 (p 1).m = true ∧ Table.wf 0 (p 3).m = true ∧ ((p 1).lane 0).st = .parked 2 ∧ (p 1).releases 2 = true ∧ ((p 3).lane 0).st = .parked 2 ∧ (p 3).releases 2 = false
      ∧ (∀ m, ((p 3).lane 1).st ≠ .parked m) ∧ 1 < (p 1).width := by decide
theorem hyp_CommitOfRegisters : let s := nopBench
    let c := ctxOf s
    s.ctx? c.id = some c ∧ (s.launch? c.launch).map (fun l => l.record.cs) = some false ∧ (runOf s).effs = [] ∧ s.badVregs = []
      ∧ c.traceSync = false ∧ c.stopReq = false ∧ (∀ x ∈ s.ctxs, x.id = c.id → x = c)
      ∧ (∀ x ∈ s.ctxs, x.block = c.block → ∀ y ∈ x.lanes, y.st = .runnable ∨ y.st = .exited) := by decide
theorem hyp_LastWriteWins : Table.wf 0 (ctxOf nopBench).v = true ∧ Table.wf 0 (ctxOf nopBench).s = true ∧ Table.wf 0 (ctxOf nopBench).p = true
    ∧ Table.wf 0 (ctxOf nopBench).m = true := by decide
/-- A run that goes on; one that ends; one in an untraced warp with a handler. -/
theorem hyp_NoEffectBeforeCommit : ∀ p ∈ [(plainNop, nopBench, true), (.nop (fw true 0 v4 v4 v4 v4 0 .f64), bench (.nop (fw true 0 v4 v4 v4 v4 0 .f64)), false)
      , (plainNop, killBench 0x20000 0, true)],
    p.1.view.isSome = true ∧ p.2.1.badVregs = [] ∧ p.2.1.badWords = [] ∧ p.2.1.badGranules = []
    ∧ Table.wf Core.reset p.2.1.cores = true ∧ Table.wf Cluster.reset p.2.1.clusters = true
    ∧ (match exec p.1 p.2.1 with | .next t => t.run.isSome == p.2.2 | _ => false) = true := by decide
theorem hyp_NoEffectBeforeCommit_trap : (let s := killBench 0x20000 0
      (ctxOf s).kind = .lane ∧ (ctxOf s).inh = false ∧ (ctxOf s).sr.tentry ≠ 0 ∧ s.traced (ctxOf s) = false) := by decide
theorem hyp_MemoryReadsBack : Memory.wf (State.reset.wrN 0x40 4 7).mem = true ∧ Memory.wf [((0x40 : Nat), (7 : Byte))] = true
    ∧ (State.reset.wrN 0x40 4 7).mem = [(0x40, 7)] := by decide
theorem hyp_StepKeepsMemoryForm : Memory.wf nopBench.mem = true ∧ (match step nopBench with | .next _ => true | _ => false) = true := by decide
theorem hyp_DecodeOfEncode : plainNop.wellFormed = true ∧ (encode plainNop).isSome = true ∧ ∀ bs, encode plainNop = some bs → decode bs = .ok plainNop 8 := by
  refine ⟨by decide, by decide, fun bs h => ?_⟩
  have hd : ((encode plainNop).map fun bs => decode bs) = some (.ok plainNop 8) := by decide
  rw [h] at hd
  exact Option.some.inj hd
/-- OP 0xFF is listed nowhere; IADD's OP lists SUB 0 and 1 only. -/
theorem hyp_UnlistedOpcodes : nbits 0xFF01C7FC 1 0 ≠ 3 ∧ (∀ k : Kind, k.info.op ≠ nbits 0xFF01C7FC 10 3)
    ∧ nbits 0x0401E081 1 0 ≠ 3 ∧ Kind.iadd.info.op = nbits 0x0401E081 10 3
    ∧ ∀ k : Kind, k.info.op = nbits 0x0401E081 10 3 → nbits 0x0401E081 13 11 ∉ k.info.subs :=
  ⟨by decide, fun k => by cases k <;> decide, by decide, by decide, fun k => by cases k <;> decide⟩

/-! Events: states between runs that meet their conditions. -/

/-- The bench between runs; with page 2 mapped at 0x20000, readable and writable, the spawn table there. -/
def idle : State := { nopBench with run := none }
def pagedIdle : State := { paged plainNop with run := none }
def tuneCtx (g : Ctx → Ctx) (s : State) : State := { s with ctxs := s.ctxs.map g }
def tuneLaunch (g : Launch → Launch) (s : State) : State := { s with launches := s.launches.map g }
def tuneCluster (g : Cluster → Cluster) (s : State) : State := s.setCluster 0 (g (s.cluster 0))
def allSt (st : LaneSt) (c : Ctx) : Ctx := { c with lanes := c.lanes.map fun x => { x with st := st } }
/-- An operation of the bench's warp on token 2. -/
def opOf (cmd : Cmd) (stage : Stage) : Op :=
  { id := 4, ctx := 3, launch := 0, gang := 1, block := 2, kind := .lane, loc := ⟨0, 0, 0⟩, token := 2, opc := 0x50, pc := 0x10000, rel := false
    acq := false, scope := 2, dst := .v 3 1, pre := [], cmd := cmd, stage := stage, time := 0 }
def withOp (o : Op) (s : State) : State :=
  { tuneCtx (fun c => { c with tok := [(2, .pending 4)] }) s with ops := [o], nextId := 5 }
def launch0 (s : State) : Launch := s.launches.headD (launchOf 0 0 0 (benchRec false) 0)

theorem hyp_EventsComeBetweenRuns : (Instr.spdm).view = none ∧ nopBench.run.isSome = true ∧ ({ idle with tripped := true } : State).tripped = true := by
  decide

/-- The same with checking on and every access table empty: the table of target 37 admits no master. -/
def deniedIdle : State := idle.setReg 0 0x19FFF8 1

theorem hyp_between : idle.between ∧ pagedIdle.between ∧ deniedIdle.between :=
  ⟨⟨by decide, by decide, by decide⟩, ⟨by decide, by decide, by decide⟩, by decide, by decide, by decide⟩

def storeEntry : LogEntry := { seq := 0, ctx := 3, launch := 0, block := 2, pc := 0x10000, code := 0x51, act := .store 0 4 [accAt 0x20040] }
def loggedIdle : State := pagedIdle.setCore ⟨0, 0, 0⟩ { pagedIdle.core ⟨0, 0, 0⟩ with log := [storeEntry] }
theorem hyp_PageEvents : (∀ o ∈ idle.ops, o.waitsFor 2 = false) ∧ idle.heldMonitors 2 = [] ∧ (∀ l ∈ idle.lates, l.holdPage ≠ some 2)
    ∧ (let s := idle.setDie 0 { idle.die 0 with unposted := [(2, 1, 0)] }; (s.die 0).unposted = [(2, 1, 0)] ∧ s.noticeRoom 0 = true)
    ∧ loggedIdle.ctx? (ctxOf loggedIdle).id = some (ctxOf loggedIdle) ∧ loggedIdle.logOf (ctxOf loggedIdle) = [(⟨0, 0, 0⟩, storeEntry)]
    ∧ (ctxOf loggedIdle).preempted = false ∧ loggedIdle.holdsAccess (ctxOf loggedIdle) = false
    ∧ (∀ v ∈ storeEntry.act.pages, (v, 2) ∉ (loggedIdle.die (ctxOf loggedIdle).loc.die).posted)
    ∧ ∀ a ∈ storeEntry.act.addresses, (loggedIdle.tlbHit (ctxOf loggedIdle).loc.die (loggedIdle.logWho ⟨0, 0, 0⟩ storeEntry).units a).isSome = true
    ∧ (∀ o ∈ [0x100008, 0x100010], idle.firmwareMay 0 o true = true ∧ deniedIdle.firmwareMay 0 o true = false) := by
  decide

def doneOp : Op := opOf (.access (.load false) 1 4 [accAt 0]) (.finished (.ok [(0, 0, 5)]))
def doneIdle : State := withOp doneOp idle
def waitIdle (w : Wait) (t : TokSt) : State := tuneCtx (fun c => { allSt (.waiting w) c with tok := [(2, t)] }) idle
def kWait : Wait := .waitk 4 .zero 0x10000
def tWait : Wait := .twaitk 4 1 0 0x10000
def mWait (dl : Nat) : Wait := .monwait false 1 0 s20 0 dl false 0x10000
def late0 : Late :=
  { op := 4, outcome := some none, ctx := 3, launch := 0, gang := 1, block := 2, kind := .lane, loc := ⟨0, 0, 0⟩, pc := 0x10000, rel := false
    k := 2, space := 1, base := 64, bytes := 0, holdPage := none }
theorem hyp_TokenEvents_complete : doneIdle.op? doneOp.id = some doneOp ∧ doneIdle.waitsAtEntry doneOp = none ∧ doneIdle.ops = [doneOp]
    ∧ doneIdle.between ∧ (∀ c ∈ doneIdle.ctxs, c.commitQ = [] ∧ c.saved = false) ∧ doneIdle.lates = [] ∧ doneIdle.badVregs = []
    ∧ (doneIdle.cluster (clusterKey doneOp.loc)).hold = none ∧ (ctxOf doneIdle).rdTok doneOp.token = .pending doneOp.id :=
  ⟨by decide, by decide, by decide, ⟨by decide, by decide, by decide⟩, by decide⟩
theorem hyp_TokenEvents_waits : (∀ p ∈ [(kWait, TokSt.done), (tWait, .done), (tWait, .pending 4), (mWait 1, .done), (mWait 0, .done)],
      let s := waitIdle p.1 p.2
      s.ctx? (ctxOf s).id = some (ctxOf s) ∧ (ctxOf s).saved = false ∧ ((ctxOf s).lane 0).st = .waiting p.1 ∧ (ctxOf s).poisonedIn 4 = [])
    ∧ (ctxOf (waitIdle kWait .done)).toksWhere 4 TokSt.isPending = [] ∧ (ctxOf (waitIdle tWait (.pending 4))).toksWhere 4 TokSt.isPending ≠ []
    ∧ (let s := { waitIdle (mWait 1) .done with ns := 1 }
      (1 : Nat) ≤ s.ns ∧ (match s.monRead (ctxOf s) false 1 0 0x10000 0 with | (_, .value _) => true | _ => false) = true)
    ∧ (let s := { idle with lates := [late0] }
      s.lates[0]? = some late0 ∧ late0.outcome = some none ∧ (s.arriveAt late0.who ⟨0x66, 2, 0x10000⟩ late0.rel none 1 64 1 0 none).2 = false) := by decide

/-- The warp exited; its block over, with a successor; its block gone, to be relaunched. -/
def exitedIdle : State := tuneCtx (allSt .exited) idle
def overIdle : State :=
  let s := tuneCtx (fun c => { allSt .exited c with ended := true }) pagedIdle
  { s with blocks := s.blocks.map fun b => { b with succSlot := some (0, 5) } }
def relaunchIdle : State :=
  { tuneLaunch (fun l => { l with relaunchQ := [(1, 0)] }) (tuneCtx (fun c => { c with ended := true }) pagedIdle) with ctxs := [], blocks := [] }
def entryOf (id : Nat) (e : Option Nat) : Spawned :=
  { id := id, launch := 0, cluster := 0, entry := 0, p0 := 1, p1 := 2, p2 := 3, p3 := 4, jc := 0, jcMap := false, gen := 1, eligible := e, added := true
    spill := none }
def queued (es : List Spawned) (s : State) : State := tuneCluster (fun c => { c with spawnQ := es }) s
def redFail0 (block ctx : Nat) : RedFail :=
  { launch := 0, gang := 1, index := 0, relaunched := false, child := false, loc := ⟨0, 0, 0⟩, block := block, ctx := ctx, pc := 0x10000
    addr := 0x40, lane := 0 }
theorem hyp_BlockAndLensEvents_blocks : exitedIdle.canEnd (ctxOf exitedIdle) = true ∧ (∀ l < (ctxOf exitedIdle).width, ((ctxOf exitedIdle).lane l).jc = 0)
    ∧ ((overIdle.block? 2).any fun b => b.succSlot == some (0, 5) && !b.killed && overIdle.blockOver b) = true
    ∧ (overIdle.spawnTarget (lensWho 0 0) 0).isSome = true
    ∧ (let s := relaunchIdle
      (launch0 s).relaunchQ = [(1, 0)] ∧ ((s.gang? 1).any fun g => !g.saved && g.die == 0 && g.cluster == 0 && g.linear == 0) = true
        ∧ (launch0 s).dying = false ∧ s.blocks = [] ∧ s.energyOk 0 (s.weight (launch0 s).record.energy * (launch0 s).record.warps) 0 = true
        ∧ s.admits (launch0 s) 0 0 (locOf 0) = some 0)
    ∧ (let s := { idle with redFails := [redFail0 9 8, redFail0 2 3, redFail0 0 3] }
      s.redFails[0]? = some (redFail0 9 8) ∧ s.block? 9 = none ∧ s.ctx? 8 = none
        ∧ s.redFails[1]? = some (redFail0 2 3) ∧ (s.block? 2).isSome = true
        ∧ s.redFails[2]? = some (redFail0 0 3) ∧ s.block? 0 = none
        ∧ ((tuneCtx (fun c => { c with kind := .seq }) s).ctx? 3).map (fun c => (c.kind, c.ended)) = some (.seq, false)) := by decide
/-- The room of the core without what the ended block of overIdle holds; no warp of the cluster to restore or to admit first. -/
theorem hyp_BlockAndLensEvents_room : (let s := overIdle
      let held := s.ctxs.filter fun c => c.block == 2 && c.kind != .seq && s.resident ⟨0, 0, 0⟩ c
      (s.coreLoad ⟨0, 0, 0⟩).1 - held.length + (launch0 s).record.warps ≤ 48
        ∧ (s.coreLoad ⟨0, 0, 0⟩).2 - held.foldl (fun n c => n + c.width * c.vregs * 4) 0 + (launch0 s).record.warps * (launch0 s).record.warpBytes ≤ 524288)
    ∧ relaunchIdle.restorable 0 = false ∧ relaunchIdle.firstFormed 0 = none ∧ (relaunchIdle.cluster 0).formed = [] := by decide
def fullBin : State := queued ((List.range 32).map fun i => entryOf (10 + i) (some 0)) idle
theorem hyp_BlockAndLensEvents_bins :
    ((queued [entryOf 10 none] idle).clusterKeys.find? fun k => ((queued [entryOf 10 none] idle).cluster k).spawnQ.any fun e =>
        e.id == 10 && e.added && e.eligible.isNone) = some 0
    ∧ (launch0 fullBin).record.lanes ≤ (fullBin.bin 0 0 0).length
    ∧ (let s := { queued [entryOf 10 (some 0)] idle with cyc := [(0, 256)] }
      entryOf 10 (some 0) ∈ s.bin 0 0 0 ∧ (s.bin 0 0 0).head? = some (entryOf 10 (some 0)) ∧ 0 + 256 ≤ Table.get s.cyc 0 0 ∧ Table.wf Cluster.reset s.clusters = true)
    ∧ (let s := queued [entryOf 10 (some 0)] exitedIdle
      s.admissible 0 = false ∧ (∃ e ∈ (s.cluster 0).spawnQ, e.eligible.isSome = true)
        ∧ ∀ c ∈ s.ctxs, c.kind ≠ .seq → clusterKey c.loc = 0 → c.saved = false → c.ended = false →
            ∀ l < c.width, (c.lane l).st ≠ .runnable ∨ (c.lane l).halted = true) := by
  decide
def spilledIdle : State :=
  tuneLaunch (fun l => { l with record := { l.record with spill := 0x20100, spillN := 16, quota := 4 }, spillTail := [(0, 1)] }) pagedIdle
def formedIdle : State := tuneCluster (fun c => { c with formed := [{ launch := 0, entry := 0, members := [entryOf 10 (some 0)] }] }) pagedIdle
theorem hyp_BlockAndLensEvents_lens : (let s := spilledIdle
      let l := launch0 s
      l.spilled 0 ≠ 0 ∧ s.heldEntries 0 0 < l.record.quota ∧ s.heldAll 0 < 4096
        ∧ (match s.translate (lensWho 0 0) (l.spillPart 0 + 64) 32 .read with | (_, .ok _) => true | _ => false) = true)
    ∧ ((formedIdle.cluster 0).formed ≠ [] ∧ formedIdle.childFits (launch0 formedIdle) (locOf 0) = true ∧ formedIdle.restorable 0 = false) := by
  decide
/-- A warp that waits for its children for 4,096 cycles while the island's energy admits none; the same warp evicted, its
children done. -/
def stuckIdle : State :=
  let s := withOp (opOf (.jcwait 3 (BitVec.ofNat 64 loc0)) (.armed loc0 0)) (tuneLaunch (fun l => { l with record :=
    { l.record with ctxSlots := 1, context := 0x20000 } }) (waitIdle kWait (.pending 4)))
  let s1 := tuneCluster (fun c => { c with formed := [{ launch := 0, entry := 0, members := [entryOf 10 (some 0)] }], evictSince := [(0, 1)] }) s
  { (tuneCtx (fun c => { c with waitSince := 1 }) s1).setReg 0 0x140D00 0x100000000 with cyc := [(0, 4096)] }
theorem hyp_BlockAndLensEvents_eviction : (let s := stuckIdle
      s.joinWaiting (ctxOf s) = true ∧ (ctxOf s).waitSince ≠ 0 ∧ (ctxOf s).waitSince + 4096 ≤ Table.get s.cyc 0 0 + 1
        ∧ Table.get (s.cluster 0).evictSince 0 0 ≠ 0 ∧ Table.get (s.cluster 0).evictSince 0 0 + 4096 ≤ Table.get s.cyc 0 0 + 1
        ∧ s.childrenStuck (launch0 s) 0 = true ∧ (s.contextSlot (launch0 s) 0).isSome = true ∧ s.ctxs = [ctxOf s])
    ∧ (let s := tuneCtx (fun c => { c with saved := true, image := some (true, 0x20000) }) (waitIdle kWait .done)
      s.canRestore (ctxOf s) (locOf 0) = true) := by decide

/-- A ring of four slots of 32 bytes after its descriptor, at offset 64 of the scratchpad. -/
def ring0 : Ring := ringOf (loc0 + 64) 64 (32 + 2 ^ 32 * 4)
def copyOp : Op := opOf (.copy (.cpy false 1 1 64 0 32 1 1 0 0 0 0 false)) .waiting
def matrixOp : Op := opOf (.matrix 1 0 (.aczero 2)) .waiting
def grammarOp : Op := opOf (.grammar (.bind false 0 0)) .waiting
def racqOp : Op := opOf (.racq false 1 64) (.armed (loc0 + 64) 0)
def encoderOp : Op := opOf (.vcfg false 0) .waiting
def collOp : Op := opOf (.fabric (.coll 0 0x20000 [])) .waiting
def racqIdle : State := (tuneCluster (fun c => { c with claims := [4] }) (withOp racqOp idle)).wr (loc0 + 64) ring0.bytes
theorem hyp_EngineEvents : copyOp.copyReady = true ∧ (CCmd.cpy false 1 1 64 0 32 1 1 0 0 0 0 false).ring? = none
    ∧ (withOp copyOp idle).op? 4 = some copyOp
    ∧ (matrixOp.stage = .waiting ∧ matrixOp.resolved = true ∧ matrixOp.prePoison = none ∧ (withOp matrixOp idle).matrixTurn matrixOp 0 = true
      ∧ (let o := { matrixOp with stage := .cores [MWork.fresh 0] none }; (withOp o idle).matrixTurn o 0 = true ∧ (MWork.fresh 0).page = none))
    ∧ (let s := withOp grammarOp idle
      s.grammarReady grammarOp = true ∧ s.grammarBusy (clusterKey grammarOp.loc) = false
        ∧ ∀ x ∈ s.ops, clusterKey x.loc = clusterKey grammarOp.loc → x.id < grammarOp.id → s.grammarReady x = false)
    ∧ (let s := { tuneCluster (fun c => { c with hold := some ⟨3, 1, 1, some 0⟩ }) idle with cyc := [(0, 65536)] }
      (s.cluster 0).hold = some ⟨3, 1, 1, some 0⟩ ∧ 0 + 65536 ≤ Table.get s.cyc 0 0) := by decide
theorem hyp_EngineEvents_units : (racqIdle.ops = [racqOp] ∧ (racqIdle.cluster (clusterKey racqOp.loc)).claims = [4] ∧ racqIdle.badRead (loc0 + 64) 64 = false
      ∧ racqIdle.ringMalformed racqOp.who (racqIdle.ring (loc0 + 64)) = false ∧ (racqIdle.claim (racqIdle.ring (loc0 + 64)) false).isSome = true
      ∧ racqIdle.ringPermits (racqOp.who.as 2) (loc0 + 64) 64 true true = true)
    ∧ (encoderOp.isEncoder = true ∧ encoderOp.resolved = true ∧ encoderOp.prePoison = none ∧ ∀ x ∈ (withOp encoderOp idle).sessions, 4 ∉ x.queue)
    ∧ (collOp.isColl = true ∧ collOp.loc.die ≤ 1 ∧ (withOp collOp idle).ops = [collOp] ∧ (withOp collOp idle).fenceFree collOp = true)
    ∧ ((idle.gangBlock 1 0).isSome = true ∧ Memory.wf idle.mem = true ∧ Table.wf Core.reset idle.cores = true
      ∧ (idle.core ⟨0, 0, 0⟩).mirrored.length = 8 ∧ Table.wf 0 (idle.core ⟨0, 0, 0⟩).shadow = true) := by decide

/-- A pod of two devices; a collective of both, this one member 0, running; a bulk copy sent to the other. -/
def podIdle : State := { pagedIdle with caps := [(5, 2)] }
def collData : List Byte := leBytes 8 0x20100 ++ leBytes 8 0x20140 ++ leBytes 8 0x20180 ++ leBytes 8 0x20400 ++ leBytes 4 2 ++ leBytes 4 2
  ++ leBytes 4 2 ++ leBytes 4 0 ++ leBytes 8 0 ++ leBytes 8 0 ++ leBytes 2 0 ++ leBytes 2 1
def runningColl (n : Nat) : Op := opOf (.fabric (.coll 0 0x20000 collData)) (.running n)
def bulkReq : Request := .bulk 0x30000 [1, 2] 0 true
def sentOp : Op := opOf (.fabric (.rcpy 0 0 (2 ^ 40) 0x30000 0x20000 2)) .sent
def sentIdle : State :=
  let s := (withOp sentOp podIdle).setDie 0 { podIdle.die 0 with conns := [(1, Conn.fresh false 0)] }
  { s with outbox := [(4, 1, bulkReq)], ns := 1000000 }
theorem hyp_FabricEvents_packets : (podIdle.cap 3).testBit 0 = true ∧ (podIdle.connect 0 1).2 = none
    ∧ (let s := podIdle.setDie 0 { podIdle.die 0 with conns := [(1, { Conn.fresh false 0 with dead := true })] }
      (s.connect 0 1).2 = some (0x0C, 0x71) ∧ (s.conn? 0 1).map (fun c => c.dead) = some true)
    ∧ (sentIdle.op? 4 = some sentOp ∧ (1 : Nat) ≠ sentIdle.podNumber ∧ replyFits (.ok []) bulkReq = true
      ∧ (sentIdle.outbox.find? fun e => e.1 == 4) = some (4, 1, bulkReq) ∧ sentIdle.conn? 0 1 = some (Conn.fresh false 0)
      ∧ sentIdle.outstanding 0 1 = true ∧ (Conn.fresh false 0).since + 1000000 ≤ sentIdle.ns ∧ sentIdle.ops = [sentOp])
    ∧ (let s := idle.setDie 0 { idle.die 0 with staged := [⟨0, 0, 1, 0x20000, [1], 0⟩] }; (s.die 0).staged[0]? = some ⟨0, 0, 1, 0x20000, [1], 0⟩)
    ∧ (∀ c, idle.conn? 0 1 = some c → c.dead = false) ∧ (idle.reg 0 0x1E0018).getLsbD 0 = false := by
  refine ⟨by decide, by decide, by decide, by decide, by decide, fun c h => ?_, by decide⟩
  have hn : idle.conn? 0 1 = none := by decide
  rw [hn] at h
  cases h
/-- The pod with page 2 in the TLB of the collective engine. -/
def collIdle : State := podIdle.setDie 0 { podIdle.die 0 with
  tlb := (runningColl 0).collWho.units.map fun u => { unit := u, page := 2, entryAddr := 0, entry := 0x2001D, large := false } }
theorem hyp_FabricEvents_collectives : (let s := withOp (runningColl 0) collIdle
      let c := collOf 0 collData
      (s.collRunning 0).isSome = true ∧ 0 < 2 * c.steps ∧ (match Eng.collSend (runningColl 0) c 0 s with | (.ok b, _) => b | _ => false) = true)
    ∧ (let s := (withOp (runningColl 1) collIdle).wrN 0x20180 8 1
      (s.collRunning 0).isSome = true
        ∧ (match Eng.collReceive (runningColl 1) (collOf 0 collData) 0 s with | (.ok b, _) => b | _ => false) = true)
    ∧ (let s := { withOp (runningColl 1) collIdle with ns := 1000001 }
      (runningColl 1).time + 1000 * 1000 < s.ns ∧ (collOf 0 collData).timeout = 0) := by
  refine ⟨?_, ?_, ?_⟩ <;> decide +kernel

/-- A launch queue of four slots at address 0 with one record; a chimney of four slots. -/
def record0 : List Byte := ([1, 64 * 2 ^ 56 + 0x10000, 0, 0, 2 ^ 53 + 2 ^ 48 + 2 ^ 32 + 2 ^ 16 + 1, 0, 0, 0, 0, 0, 0x20000] : List Nat).flatMap (leBytes 8)
  ++ List.replicate 168 0
def queueIdle : State := ((idle.setReg 0 (qReg 0 1) 0x10004).setReg 0 (qReg 0 3) 1).wr 0 record0
def doneLaunch : State := { tuneLaunch (fun l => { l with started := true }) idle with ctxs := [], blocks := [], gangs := [] }
def heldLaunch : State := { tuneLaunch (fun l => { l with held := true }) doneLaunch with heldRecs := [0] }
set_option maxRecDepth 4000 in
theorem hyp_HearthEvents : record0.length = 256
    ∧ ((queueIdle.reg 0 (qReg 0 1)).getLsbD 17 = false ∧ queueIdle.place (256 * queueIdle.qTail 0) = .hbm 0
      ∧ (queueIdle.qTail 0 + 1) % queueIdle.qSize 0 < queueIdle.qSize 0)
    ∧ ((queueIdle.reg 0 (qReg 0 1)).getLsbD 16 = true ∧ (idle.reg 0 (qReg 0 1)).getLsbD 16 = false) := by decide
set_option maxRecDepth 4000 in
theorem hyp_HearthEvents_copy : (queueIdle.qEnabled 0 = true ∧ queueIdle.qHead 0 ≠ queueIdle.qTail 0 ∧ queueIdle.launches.length < 256
      ∧ (0, queueIdle.qHead 0) ∉ queueIdle.copied ∧ queueIdle.refuses (queueIdle.readBytes 0 256) = false) := by
  decide
/-- The queue and its TAIL as the tables of application cores admit them, and do not. -/
theorem hyp_HearthEvents_tables : (let s := queueIdle
      s.tablesPermit (masterWho 18 0) 256 256 false true = true ∧ 256 * s.qTail 0 = 256 ∧ s.firmwareMay 0 (qReg 0 3) true = true
        ∧ s.firmwareMay 0 (qReg 0 1) true = true)
    ∧ (let s := queueIdle.setReg 0 0x19FFF8 1
      s.tablesPermit (masterWho 18 0) 256 256 false true = false ∧ s.firmwareMay 0 (qReg 0 3) true = false) := by
  refine ⟨by decide, ⟨?_, by decide⟩⟩
  let s := queueIdle.setReg 0 0x19FFF8 1
  have hp : s.place 256 = .hbm 0 := by decide
  have hb : s.tablePermits 0 0 (masterWho 18 0) 256 256 false true = false := by decide
  unfold State.tablesPermit
  rw [hp]
  exact (congrArg (_ && ·) hb).trans (Bool.and_false _)
theorem hyp_HearthEvents_ends : (State.reset.launches = [] ∧ State.reset.gangs = [] ∧ State.reset.blocks = [] ∧ State.reset.ctxs = [])
    ∧ (doneLaunch.launch? 0 = some (launch0 doneLaunch) ∧ doneLaunch.launchOver (launch0 doneLaunch) = true ∧ (launch0 doneLaunch).status < 2 ^ 8)
    ∧ (let s := heldLaunch.setReg 0 (cReg 0 1) 4
      s.heldRecs = [(launch0 s).id] ∧ s.launch? 0 = some (launch0 s) ∧ s.chimneyOf (launch0 s) = 0 ∧ s.cRoom 0 = true)
    ∧ (let s := { (idle.setReg 0 (cReg 0 4) 0x10000).setReg 0 (cReg 0 5) 0x100000000 with chimneys := [(0, ⟨1, 0⟩)], ns := 1 }
      s.timeDue 0 = true) := by decide
theorem hyp_HearthEvents_idle : ∀ k, (State.reset.cluster k).formed = [] := fun _ => rfl

theorem hyp_DebugAndDeviceEvents : (let s := { debugged plainNop with run := none }
      (s.reg 0 0x200040).getLsbD (bits (0 : W64) 26 24) = true ∧ bits (0 : W64) 31 28 = 0 ∧ s.debugTarget 0 0 = some (ctxOf s) ∧ (ctxOf s).saved = false)
    ∧ (idle.reg 0 0x200040).getLsbD 0 = false ∧ bits (0x70000000 : W64) 31 28 = 7
    ∧ ((idle.revoke 0).ctxs.map fun c => (c.launch, c.ended)) = [(0, false)]
    ∧ (idle.reg 0 0x19FFF8).getLsbD 1 = false ∧ ((idle.setReg 0 0x19FFF8 2).reg 0 0x19FFF8).getLsbD 1 = true
    ∧ (let s := { idle with islCaps := [(0, 600)] }; s.eff 0 ≠ min (s.freq 0) (s.islCap 0))
    ∧ bits (idle.reg 0 0x160100) 15 0 < 5000 ∧ Table.wf 1500 idle.islCaps = true
    ∧ idle.appPlace 0x40 4 true true = some (.hbm 0) ∧ idle.badRead 0x40 4 = false ∧ idle.appPlace 0x40 8 true false = some (.hbm 0)
    ∧ idle.appPlace 0x40 1 false true = some (.hbm 0) ∧ idle.place 0x40 = .hbm 0 := by decide
/-- Every register that firmware writes by an event: admitted while checking is off, denied by empty tables. -/
theorem hyp_Firmware : (([0x100008, 0x100010, 0x1C0020, 0x140C20, 0x140C28, 0x200000, 0x200040, 0x200080, 0x200088, 0x200090, 0x200098, 0x2000A0
      , 0x19FFF8, 0x1A0000, 0x160000, 0x160100] : List Nat).all fun off => idle.firmwareMay 0 off true && !deniedIdle.firmwareMay 0 off true) = true
    ∧ idle.firmwareMay 0 0x19FFF0 false = true ∧ deniedIdle.firmwareMay 0 0x19FFF0 false = false
    ∧ (idle.regrant 0x200000 1).firmwareMay 0 0x200040 true = true := by decide
theorem hyp_DebugAndDeviceEvents_reads : idle.appPlace 0xFFE000160100 8 true false = some (.mgmt 0) ∧ (0 : Nat) < idle.cap 0
    ∧ (110 : Nat) ≤ 110 ∧ (100 : Nat) < 110 := by decide

/-! Further states that meet the conditions of the statements on returns, pages, tokens, schedules, atomics, floating point, engines,
saved contexts and errors. -/

/-- The commit of ERET stands behind nothing. -/
theorem hyp_ReturnFromHandler_commit : nopBench.behindLog (ctxOf nopBench) = false ∧ nopBench.behindGated (ctxOf nopBench) = false := by decide
/-- Nothing is held on page 2; the entry stands behind no access with a pending precondition. -/
theorem hyp_PageEvents_held : (∀ c ∈ idle.ctxs, ∀ x ∈ c.lanes, ∀ h, x.fetchHold = some h → h.2 ≠ 2)
    ∧ loggedIdle.gatedBefore (ctxOf loggedIdle).id storeEntry.seq = false := by
  refine ⟨fun c hc x hx h hh => ?_, by decide⟩
  have hn : idle.ctxs.all (fun c => c.lanes.all fun x => x.fetchHold.isNone) = true := by decide
  rw [List.all_eq_true] at hn
  have h1 := List.all_eq_true.mp (hn c hc) x hx
  rw [hh] at h1
  cases h1
/-- Four levels of tables at 0x2000, 0x4000, 0x6000 and 0x8000 (or a large leaf at the third), and the last entry. -/
def walkState (e3 e4 : Nat) : State :=
  ((((State.reset.setReg 0 0x100000 0x2001).wrN 0x2000 8 0x4001).wrN 0x4000 8 0x6001).wrN 0x6000 8 e3).wrN 0x8010 8 e4
def walkCases : List (Nat × Nat) := [(0x8001, 0x2001F), (0x4000001F, 0), (0x8001, 0), (0x8001, 0x8001), (0x8001, 0x20013)]
theorem hyp_PageEvents_walk : (walkCases.all fun p =>
    let s := walkState p.1 p.2
    (s.reg benchWho.die 0x100000).getLsbD 0 && (s.tlbHit benchWho.die benchWho.units 0x20010).isNone && s.badGranules.isEmpty && s.badWords.isEmpty
      && Table.wf Die.reset s.dies && Memory.wf s.mem && !(s.reg 0 0x19FFF8).getLsbD 0 && !(s.reg 1 0x19FFF8).getLsbD 0
      && s.readN 0x2000 8 == 0x4001 && s.readN 0x4000 8 == 0x6001 && s.readN 0x6000 8 == p.1 && s.readN 0x8010 8 == p.2
      && s.place (leafPa 0x2001F false 0x20010) == .hbm 0 && s.place (leafPa 0x4000001F true 0x20010) == .hbm 0) = true := by decide +kernel
/-- What those entries are: tables, leaves of both sizes that permit a write, none, a leaf without R, W and X. -/
theorem hyp_PageEvents_entries : ([(0x4001 : W64), 0x6001, 0x8001].all fun e => e.getLsbD 0 && !e.getLsbD 1) = true
    ∧ ([(0x2001F : W64), 0x4000001F].all fun e => e.getLsbD 0 && e.getLsbD 1 && e.getLsbD 2 && e.getLsbD 3 && e.getLsbD 4 && !e.getLsbD 12) = true
    ∧ bits 0x4000001F 25 16 = 0 ∧ (0 : W64).getLsbD 0 = false ∧ (0x20013 : W64).getLsbD 1 = true ∧ (0x20013 : W64).getLsbD 3 = false := by decide

/-- An operation with a poisoned precondition, and one already skipped for it. -/
def poisonedOp : Op := { opOf (.fencek) .waiting with pre := [(1, .poisoned 7)] }
def skippedOp : Op := opOf (.access (.load false) 1 4 [accAt 0]) (.finished (.skipped 7))
theorem hyp_TokenEvents_poisoned : (withOp poisonedOp idle).op? poisonedOp.id = some poisonedOp ∧ poisonedOp.resolved = true
    ∧ poisonedOp.prePoison = some 7 ∧ poisonedOp.cmd ≠ .rfence
    ∧ (let s := withOp skippedOp idle
      s.ops = [skippedOp] ∧ s.waitsAtEntry skippedOp = none ∧ (∀ c ∈ s.ctxs, c.commitQ = [] ∧ c.saved = false) ∧ s.lates = []
        ∧ (∀ l ∈ s.launches, l.dying = false) ∧ (s.cluster (clusterKey skippedOp.loc)).hold = none
        ∧ (ctxOf s).rdTok skippedOp.token = .pending skippedOp.id) := by decide
/-- The area of the bench at 0x20000: not mapped; mapped with NEXT 1 and room for 4, for 1; with an error. The page of the record is
the header's. -/
def areaState (cap : Nat) : State := (pagedIdle.wrN 0x20000 4 1).wrN 0x20004 4 cap
theorem hyp_TokenEvents_records : (idle.launch? doneOp.launch).map (fun l => l.record.poison) = some 0x20000
    ∧ (idle.reach doneOp.who 0x20000 12 .rmw).2 = .absent
    ∧ (∀ cap ∈ [1, 4], let r := (areaState cap).reach doneOp.who 0x20000 12 .rmw
      r.2 = .ok 0x20000 ∧ r.1.atomicPlace 0x20000 = true ∧ r.1.badRead 0x20000 12 = false ∧ Memory.wf r.1.mem = true
        ∧ r.1.readN 0x20000 4 = 1 ∧ r.1.readN 0x20004 4 = cap) := by decide +kernel
theorem hyp_TokenEvents_record : (let r := ((areaState 4).reach doneOp.who 0x20000 12 .rmw).1
      let q := (r.wrN 0x20000 4 2).reach doneOp.who (0x20000 + 32 + 32 * 1) 32 .write
      q.2 = .ok 0x20040 ∧ Memory.wf q.1.mem = true)
    ∧ doneOp.opc < 256 ∧ doneOp.token < 32 ∧ doneOp.loc.core < 32 ∧ doneOp.loc.cluster < 16 ∧ doneOp.loc.die < 2
    ∧ ({ areaState 4 with badGranules := [(0x1000, 1)] } : State).badRead 0x20000 12 = true := by decide +kernel
/-- A wait one of whose tokens is poisoned, its record readable, and one whose record was not made. -/
theorem hyp_TokenEvents_poisonedWaits : (∀ p ∈ [(kWait, TokSt.poisoned 1), (tWait, .poisoned 1), (kWait, .poisoned 0xFFFF)],
      let s := waitIdle p.1 p.2
      s.ctx? (ctxOf s).id = some (ctxOf s) ∧ ((ctxOf s).lane 0).st = .waiting p.1 ∧ (ctxOf s).toksWhere 4 TokSt.isPending = []
        ∧ (ctxOf s).poisonedIn 4 = [2] ∧ (ctxOf s).rdTok 2 = p.2)
    ∧ (let s := tuneCtx (fun c => { allSt (.waiting kWait) c with tok := [(2, .poisoned 1)], sr := { c.sr with prbase := 0x20000 } }) (areaState 4)
      s.quietRead (whoOf (ctxOf s)) ((ctxOf s).sr.prbase.toNat + 32 + 32 * 1) 32 = some 0x20040) := by decide
/-- A deferred trap at the entry of the next run. -/
def deferred0 : Deferred := { cause := 5, detail := 0, psn := true, token := 2, taddr := 0x10000, tepc := 0x10000, tval := 0, trec := 1 }
theorem hyp_TokenEvents_entry : (let s := tuneCtx (fun c => { c with lanes := c.lanes.map fun x => { x with fell := false, deferred := some deferred0 } }) idle
      s.run = none ∧ s.ctx? (ctxOf s).id = some (ctxOf s) ∧ (ctxOf s).ended = false ∧ (ctxOf s).saved = false ∧ (ctxOf s).commitQ = []
        ∧ (∀ x ∈ s.launches, x.dying = false) ∧ (ctxOf s).nextGroup (ctxOf s).fetchable = List.range 32
        ∧ (∀ x ∈ List.range 32, ((ctxOf s).lane x).fell = false) ∧ s.atBreak (ctxOf s) (List.range 32) ((ctxOf s).lane 0).pc = []
        ∧ ((ctxOf s).lane 0).deferred = some deferred0) := by decide
/-- The schedule: the idle bench with its run named next, or an event; its warp ready, none overdue, and the oldest; a warp that as many
runs have passed as may; a sequencer context. -/
theorem hyp_EventsComeBetweenRuns_turns : idle.run = none ∧ idle.tripped = false ∧ idle.recovery = false
    ∧ ({ idle with agenda := [.run 3] } : State).agenda = .run 3 :: []
    ∧ (match exec .spdm { idle.tick with agenda := [] } with | .next _ => true | _ => false) = true
    ∧ (List.range 32).Pairwise (· < ·) ∧ Table.wf Core.reset idle.cores = true ∧ (idle.core ⟨0, 0, 0⟩).active.length ≤ 8 := by decide
theorem hyp_EventsComeBetweenRuns_warps : idle.ctx? (ctxOf idle).id = some (ctxOf idle) ∧ (ctxOf idle).kind ≠ .seq
    ∧ (let s1 := idle.refreshActive (ctxOf idle).loc
      let rdy := (s1.warpsAt (ctxOf idle).loc).filter s1.ready
      overdue rdy = none ∧ rdy = [ctxOf idle] ∧ (ctxOf idle).id ∈ (s1.core (ctxOf idle).loc).active)
    ∧ (overdue [{ ctxOf idle with passed := 128 }]).isSome = true ∧ overdue [{ ctxOf idle with passed := 127 }] = none
    ∧ (let s := tuneCtx (fun c => { c with kind := .seq }) idle
      (ctxOf s).kind = .seq ∧ ∀ x ∈ s.ctxs, ¬ x.behind < (ctxOf s).behind) := by decide

/-- A float and a 64-bit atomic; two 16-bit halves. -/
theorem hyp_AtomicsAtHome_types : (∀ ty ≤ 3, (State.reset.wrN 0x40 8 7).badRead 0x40 (tyBits ty / 8) = false)
    ∧ Memory.wf (State.reset.wrN 0x40 8 7).mem = true ∧ (State.reset.wrN 0x40 8 7).readN 0x40 (tyBits 3 / 8) = (7 : W64).toNat % 2 ^ tyBits 3
    ∧ (State.reset.wrN 0x40 8 7).readN 0x40 (tyBits 3 / 8) ≠ (8 : W64).toNat % 2 ^ tyBits 3 := by decide
/-- Operands of every comparison, class and packing: numbers, an infinity, a NaN, a negative number. -/
theorem hyp_FloatLaws_operands : (∀ p ∈ [(0, 0x3F800000), (1, 0x3C00), (2, 0x3F80), (3, 0x38), (4, 0x38), (5, 0x10)], (fdec p.1 p.2).isNan = false)
    ∧ (∀ p ∈ [(0, 0x7FC00001), (1, 0x7E00), (2, 0x7FC0)], (fdec p.1 p.2).isNan = true ∧ p.2 < 2 ^ ((fmtOf p.1).mag + 1))
    ∧ fdec 0 0x7F800000 = .inf false ∧ fdec 0 0xBF800000 = .fin true 0x800000 (-23) ∧ (0xFF : W32).toNat % 256 = 255 := by decide
/-- Finite operands of every operation, with exact results in range: 1 + 1 and 0 + 0, by their values. -/
theorem hyp_FloatRounding_finite : fdec 0 0x3F800000 = .fin false 0x800000 (-23) ∧ fdec 0 0 = .fin false 0 (-149)
    ∧ fdec 0 (fmtOf 0).maxFin = .fin false 0xFFFFFF 104 ∧ fdec 1 0x3C00 = .fin false 0x400 (-10) ∧ (0x7F : W32).toNat % 256 ≠ 255 := by decide
theorem hyp_FloatRounding_range : |(0x800000 : ℝ) * 2 ^ (-23 : Int) + 0x800000 * 2 ^ (-23 : Int)| ≤ 0xFFFFFF * 2 ^ (104 : Int)
    ∧ (0 : ℝ) < 0x800000 * 2 ^ (-23 : Int) := by
  constructor <;> norm_num
/-- Nothing comes before the one command of an engine. -/
theorem hyp_EngineEvents_turns : (withOp matrixOp idle).inTurn matrixOp = true ∧ (withOp encoderOp idle).inTurn encoderOp = true
    ∧ (withOp collOp idle).inTurn collOp = true
    ∧ (let o := { matrixOp with stage := .cores [MWork.fresh 0] none }; (withOp o idle).inTurn o = true) := by decide
/-- A consumer's claim of the one slot published. -/
def consIdle : State :=
  (tuneCluster (fun c => { c with claims := [4] }) (withOp { racqOp with cmd := .racq true 1 64, stage := .armed (loc0 + 64) 1 } idle)).wr (loc0 + 64)
    { ring0 with ppub := 1, pclaim := 1 }.bytes
theorem hyp_EngineEvents_consumer : (let g := consIdle.ring (loc0 + 64)
      consIdle.badRead (loc0 + 64) 64 = false ∧ consIdle.ringMalformed racqOp.who g = false
        ∧ (consIdle.claim g true).any (fun x => !consIdle.badRead (x.1.countPa (bits x.2 15 0)) 4
          && consIdle.ringPermits (racqOp.who.as 2) (x.1.countPa (bits x.2 15 0)) 4 true false) = true) := by decide
/-- The block of the bench for MMA; a tile of FP32 in its scratchpad for ACLOAD and the drains, mirrored and equal, and differing. -/
theorem hyp_EngineEvents_matrix : (idle.gangBlock 1 0).any (fun b => decide (idle.core b.loc).latch.isNone && decide (2048 ≤ b.size)
        && tileAligned 128 0 128 0 && !idle.badRead (accPa b.loc 2) 4096
        && nth (idle.core b.loc).mirrored 2 true && decide (idle.accWords b.loc 2 ≠ ({ idle.core b.loc with shadow := [(2048, 1)] }).shadowWords 2)
        && decide (idle.accWords b.loc 2 = (idle.core b.loc).shadowWords 2)) = true
    ∧ bits (0x8000000000000000 : W64) 62 51 = 0 ∧ bits (0x8000000000000000 : W64) 50 32 + 64 ≤ 2048 ∧ mFamily 0 = mFamily 1
    ∧ (idle.launch? 0).map (fun l => l.record.ts) = some false := by decide +kernel
def tileOf (t : AccessType) (add : Bool) : Bool := (idle.gangBlock 1 0).any fun b =>
  match idle.tileCheck (matrixOp.mWho b 1) 1 t add (tileParts 128 0 128 0 b.loc.core) none with
  | (s1, .ok pas) => decide pas.Nodup && pas.all (fun pa => pa % 32 == 0 && !s1.badRead pa 32) && Memory.wf s1.mem
    && Table.wf Core.reset s1.cores && Table.wf 0 (s1.core b.loc).shadow && (s1.core b.loc).mirrored.length == 8
  | _ => false
theorem hyp_EngineEvents_tiles : tileOf .read false = true ∧ tileOf .rmw true = true ∧ tileOf .write false = true := by decide +kernel

theorem hyp_BlockAndLensEvents_spill : (let s := spilledIdle
      let l := launch0 s
      (s.rdVa (lensWho l.id 0) (l.spillPart 0 + 64 + 32 * (Table.get l.spillHead 0 0 % l.record.spillN)) 32).2.isSome = true
        ∧ Table.get l.spillHead 0 0 = 0) := by decide +kernel
theorem hyp_BlockAndLensEvents_saving : (let s := idle
      (∀ b ∈ stuckIdle.blocks, b.slotCtx = none) ∧ s.ctx? (ctxOf s).id = some (ctxOf s) ∧ (ctxOf s).width ≤ 64 ∧ (ctxOf s).vregs ≤ 160
        ∧ Memory.wf s.mem = true ∧ (s.ctxs.map fun x => x.id).Nodup ∧ (s.blocks.map fun x => x.id).Nodup
        ∧ (s.gangs.map fun g => s.savable g) = [true] ∧ (∀ c ∈ s.ctxs, c.width ≤ 64 ∧ c.vregs ≤ 160)
        ∧ (s.gangs.all fun g => s.ctxs.all fun c => c.gang == g.id && c.kind != .seq && !c.ended && !c.saved
            && (s.gangBlocks g).any fun b => b.id == c.block) = true
        ∧ ∀ b ∈ s.blocks, b.holds = false ∧ 0x40000 + s.blockImage b ≤ b.start) := by decide +kernel
/-- A gang saved whole. -/
def savedIdle : State :=
  let s := { idle with blocks := idle.blocks.map fun b => { b with saved := some 0x40000 } }
  tuneCtx (fun c => { c with saved := true, image := some (false, 0x41000) }) s
theorem hyp_BlockAndLensEvents_loading : (let s := savedIdle
      (s.gangs.all fun g => s.ctxs.all fun c => (s.gangBlocks g).any fun b => b.saved == some 0x40000 && b.id == c.block && c.gang == g.id) = true
        ∧ (s.ctxs.map fun x => x.id).Nodup ∧ (s.blocks.map fun x => x.id).Nodup
        ∧ ∀ c ∈ s.ctxs, c.kind ≠ .seq ∧ c.preempted = true ∧ c.ended = false ∧ c.monitors = [] ∧ ∀ x ∈ c.lanes, x.fetchHold = none) := by
  decide +kernel
theorem hyp_HearthEvents_readable : queueIdle.badRead (bits (queueIdle.reg 0 (qReg 0 0)) 51 8 * 256 + 256 * queueIdle.qHead 0) 256 = false := by decide
/-- The register files and the tile register of the bench's core; a word and a register in error that an instruction reads. -/
def badRegister (i : Instr) : State := { bench i with badVregs := [(3, 4, 0)] }
theorem hyp_DebugAndDeviceEvents_errors : (match idle.place loc0 with | .map _ _ _ _ _ => true | _ => false) = true
    ∧ idle.ctx? 3 = some (ctxOf idle) ∧ (ctxOf idle).id = 3 ∧ (ctxOf idle).ended = false ∧ (ctxOf idle).saved = false ∧ 4 < (ctxOf idle).vregs
    ∧ 0 < (ctxOf idle).width ∧ Table.wf false [((0x40 : Nat), true)] = true ∧ Table.wf 0 [((0x8 : Nat), (1 : Nat))] = true
    ∧ (let i := Instr.iadd (fn 0 v4 v4 v4 .zero 0 .f64)
      ((badRegister i).envOf i).map fun v => (v.checkFails, v.badRegister)) = some (none, some 0)
    ∧ (let i := Instr.trd (fn 0 v4 v4 s20 .zero 0 .f64)
      (({ holding i with badWords := [((loc0 + 0x400000 + 2048 * 4) / 4, true)] } : State).envOf i).map fun v =>
        (v.checkFails, v.badRegister, v.badFile.isSome)) = some (none, none, true) := by decide +kernel

/-! States for the clauses on commits, moves, grammars, claims, frames and evaluations. -/

/-- Nothing holds back what the idle bench's warp commits; an address of its scratchpad can be read, written and updated; its tokens are
free, and in other states pending, done and poisoned; it is not traced. -/
theorem hyp_Commits : (let c := ctxOf idle
      idle.behindLog c = false ∧ idle.behindGated c = false ∧ idle.ctx? c.id = some c ∧ Memory.wf idle.mem = true
        ∧ Table.wf Core.reset idle.cores = true ∧ Table.wf .free c.tok = true ∧ Table.wf 0 c.m = true ∧ c.rdTok 1 = .free
        ∧ (idle.tryAccess (whoOf c) 1 32 64 .rmw false).2 = .ok (loc0 + 64) ∧ (idle.tryAccess (whoOf c) 1 32 64 .write false).2 = .ok (loc0 + 64)
        ∧ (idle.tryAccess (whoOf c) 1 32 64 .write false).1.barrierPlace (· == (whoOf c).gang) 1 (loc0 + 64) 0 = true
        ∧ c.sr.trctl.getLsbD 2 = false ∧ (idle.commitWrite c none 1 4 0 [] 0 (.store 1 4)).isSome = true)
    ∧ (∀ t ∈ [TokSt.pending 9, .done, .poisoned 3],
      let s := tuneCtx (fun c => { c with tok := [(1, t)] }) idle
      (ctxOf s).rdTok 1 = t ∧ s.behindLog (ctxOf s) = false ∧ s.behindGated (ctxOf s) = false
        ∧ (s.tryAccess (whoOf (ctxOf s)) 1 32 64 .rmw false).2 = .ok (loc0 + 64)) := by decide +kernel
/-- Words and bytes of the matrix files, none twice; a bound slot, of the warp itself and none. -/
theorem hyp_Commits_files : (([(0, 1), (511, 2)] : List (Nat × W32)).map Prod.fst).Nodup ∧ (([(0, 1), (63, 2)] : List (Nat × Byte)).map Prod.fst).Nodup
    ∧ (let s := { idle with blocks := idle.blocks.map fun b => { b with slotCtx := some 3 } }
      (s.blocks.all fun b => s.block? (ctxOf s).block == some b && s.slotBound b && b.slotCtx == some 3) = true
        ∧ s.behindLog (ctxOf s) = false ∧ s.behindGated (ctxOf s) = false ∧ (ctxOf s).lanes.length = (ctxOf s).width ∧ (ctxOf s).commitQ = [])
    ∧ (idle.blocks.all fun b => idle.block? (ctxOf idle).block == some b && !idle.slotBound b) = true := by decide +kernel
/-- Every status of a binding and an unbinding: done; four bound; not a multiple; overlapping; outside; not found; found. -/
theorem hyp_ResidencyBinding_statuses :
    (let b := idle.blocks.headD { id := 0, launch := 0, gang := 0, index := 0, loc := ⟨0, 0, 0⟩, base := 0, size := 0, succSlot := none, child := false, holds := false
                                  gen := 0, relaunched := false, killed := false, saved := none, cost := 0, slotCtx := none, stat := SlotStat.reset }
    let four := ([0, 1024, 2048, 3072] : List W64).foldl (fun rs o => (resbRegions 5 1 b false o 1024 rs).2) []
    [(resbRegions 5 1 b false 4096 1024 four).1, (resbRegions 5 1 b false 512 1024 []).1, (resbRegions 5 1 b false 1024 2048 four).1
      , (resbRegions 5 1 b false 524288 1024 []).1, (resbRegions 5 1 b true 0 1024 []).1, (resbRegions 5 1 b true 2048 1024 four).1]
      = [2, 3, 3, 3, 4, 0])
    ∧ (idle.block? (ctxOf idle).block).isSome = true ∧ (idle.launch? (ctxOf idle).launch).isSome = true
    ∧ (idle.gang? (ctxOf idle).gang).isSome = true := by decide +kernel
/-- A barrier of one arrival in the bench's scratchpad with a wait armed on it, one that is malformed, and a record's area. -/
def phase0 : Barrier := { phase := 0, lpsn := false, psn := false, scope := 0, exparr := 1, pendarr := 1, lrec := 0xFFFF, expbytes := 0
                          prec := 0xFFFF, pendbytes := 0, rsv := false }
def armedOp : Op := opOf (.pbwait true 0 1 64) (.armed (loc0 + 64) 0)
theorem hyp_BarrierInstructions_objects : (let s := (withOp armedOp idle).wr (loc0 + 64) phase0.bytes
      s.badRead (loc0 + 64) 32 = false ∧ Memory.wf s.mem = true ∧ s.barrier (loc0 + 64) = phase0 ∧ s.malformed 1 (loc0 + 64) phase0 = false
        ∧ s.ops = [armedOp] ∧ s.armedWait (loc0 + 64) = true
        ∧ Memory.wf (s.newRecord armedOp.who (recordBytes 0x68 1 0 0x10 5 ⟨0, 0, 0⟩ 0 0 64 2)).1.mem = true)
    ∧ idle.malformed 1 (loc0 + 64) (idle.barrier (loc0 + 64)) = true ∧ idle.armedWait (loc0 + 64) = false := by decide +kernel
/-- A launch that holds no counter bank of the core, and one that holds bank 2; the clusters and the pod of reset. -/
theorem hyp_SystemInstructions_registers : bankOf (idle.banksAt (ctxOf idle).loc) (ctxOf idle).launch = none
    ∧ bankOf [Bank.reset, Bank.reset, { Bank.reset with launch := some 0 }] 0 = some 2
    ∧ idle.cap 0 < 16 ∧ idle.cap 1 < 16 ∧ idle.cap 5 < 2048 ∧ idle.cap 4 < 1024 := by decide

/-- A copy of two bytes within the scratchpad: where its bytes stand in every state that differs in memory alone. -/
def moveOp : Op := opOf (.copy (.cpy false 1 1 64 0 2 1 1 0 0 0 0 false)) .waiting
theorem hyp_EngineEvents_places (m bg bw os) : let u : State := { withOp moveOp idle with mem := m, badGranules := bg, badWords := bw, ops := os }
    ∀ x < 2, u.tryAccess (moveOp.who.as 2) 1 1 (BitVec.ofNat 64 x) .read false = (u, .ok (loc0 + x))
      ∧ u.tryAccess (moveOp.who.as 2) 1 1 (BitVec.ofNat 64 (64 + x)) .write false = (u, .ok (loc0 + 64 + x)) := by
  intro u x hx
  interval_cases x <;> with_unfolding_all exact ⟨rfl, rfl⟩
theorem hyp_EngineEvents_moves : (let s := withOp moveOp idle
      Memory.wf s.mem = true ∧ ∀ x < 2, s.badRead (loc0 + x) 1 = false)
    ∧ ¬ ((2 : Nat) ≤ 2 → (64 : Nat) ≤ 32) := by decide
/-- A ring with room for a producer, and none for a consumer. -/
theorem hyp_EngineEvents_claims : ring0.pclaim < 2 ^ 16 ∧ ring0.cclaim < 2 ^ 16 ∧ ring0.slotBytes < 2 ^ 24 ∧ 1 ≤ ring0.nslots ∧ ring0.nslots ≤ 256
    ∧ (ring0.pclaim + 2 ^ 16 - ring0.cfree % 2 ^ 16) % 2 ^ 16 < ring0.nslots ∧ ring0.cclaim = ring0.ppub ∧ -2 ^ 31 ≤ ring0.slotBase
    ∧ ring0.slotBase < 2 ^ 31 ∧ ring0.ppub < 2 ^ 16 ∧ ring0.cfree < 2 ^ 16 ∧ ring0.prec < 2 ^ 16 ∧ ring0.rmask < 2 ^ 256 ∧ ring0.rsv = false := by
  decide
/-- A grammar of one rule at 0x20000, its item column 0 with BF16 1.0; its row table at 0x20010. -/
def ruleWho : Who := (grammarOp.who).as 3
def glbIdle : State := idle.setDie 0 { idle.die 0 with
  tlb := ruleWho.units.map fun u => { unit := u, page := 2, entryAddr := 0, entry := 0x2001D, large := false } }
def ruleIdle : State := { glbIdle with mem := [(0x20000, 1), (0x20002, 1), (0x20004, 0x80), (0x20005, 0x3F)] }
def ruleHead : GHead := { vt := 0, nrules := 1, nrows := 1, ncols := 1, rules := 0x20000, ruleBytes := 8, rows := 0x20010, bad := none }
/-- The words of its table stand at their places in every state that differs in memory and clusters alone. -/
theorem hyp_EngineEvents_words (m bg bw os cl) (i : Nat) (hi : i < 2) :
    let u : State := { ruleIdle with mem := m, badGranules := bg, badWords := bw, ops := os, clusters := cl }
    u.tryAccess ruleWho 0 4 (BitVec.ofNat 64 (0x20000 + 4 * i)) .read false = (u, .ok (0x20000 + 4 * i)) := by
  intro u
  have h0 : ∀ i < 2, (BitVec.ofNat 64 (0x20000 + 4 * i)).toNat = 0x20000 + 4 * i := by decide
  have h1 : (u.reg ruleWho.die 0x100000).getLsbD 0 = true := by show (glbIdle.reg ruleWho.die 0x100000).getLsbD 0 = true; decide
  have h2 : u.tlbHit ruleWho.die ruleWho.units (0x20000 + 4 * i) = some (.leaf 0 0x2001D false) := by
    show glbIdle.tlbHit ruleWho.die ruleWho.units (0x20000 + 4 * i) = some (.leaf 0 0x2001D false)
    have : ∀ i < 2, glbIdle.tlbHit ruleWho.die ruleWho.units (0x20000 + 4 * i) = some (.leaf 0 0x2001D false) := by decide
    exact this i hi
  have h3 : u.place (0x20000 + 4 * i) = .hbm 0 := by
    show glbIdle.place (0x20000 + 4 * i) = .hbm 0
    have : ∀ i < 2, glbIdle.place (0x20000 + 4 * i) = .hbm 0 := by decide
    exact this i hi
  have h4 : u.tablesPermit ruleWho (0x20000 + 4 * i) 4 AccessType.read.fetches AccessType.read.writes = true := by
    show glbIdle.tablesPermit ruleWho (0x20000 + 4 * i) 4 AccessType.read.fetches AccessType.read.writes = true
    have : ∀ i < 2, glbIdle.tablesPermit ruleWho (0x20000 + 4 * i) 4 AccessType.read.fetches AccessType.read.writes = true := by decide
    exact this i hi
  have h5 : ∀ i < 2, leafPa 0x2001D false (0x20000 + 4 * i) = 0x20000 + 4 * i := by decide
  have h6 : leafPermits 0x2001D .read = true := by decide
  have h7 : ∀ va ea pa, u.countMigration ruleWho va ea 0x2001D pa = u := by intro va ea pa; simp [State.countMigration]
  have h8 : (0x20000 + 4 * i) % 4 = 0 := by omega
  have h9 : (0x20000 + 4 * i) / 2 ^ 56 = 0 := by omega
  have h10 : (0x2001D : W64).getLsbD 12 = false := by decide
  simp only [State.tryAccess, State.translateRaw, h0 i hi, h1, h2, Option.getD_some, h5 i hi, h6, h3, h9, h8, State.performedAt]
  simp only [Option.isNone_some, Bool.false_and, Bool.false_eq_true, if_false, beq_self_eq_true, if_true, bne_self_eq_false, Bool.not_true, h4, h7, h3]
theorem hyp_EngineEvents_rules : ruleHead.nrules = [(1, [0x3F80])].length ∧ ruleHead.nrules * 1 ≤ 131072
    ∧ (ruleIdle.cluster (clusterKey ⟨0, 0, 0⟩)).gkept = [] ∧ ruleIdle.badGranules = [] ∧ ruleIdle.badWords = [] ∧ Memory.wf ruleIdle.mem = true
    ∧ Table.wf Cluster.reset ruleIdle.clusters = true ∧ ruleIdle.readN 0x20000 4 = 1 + 2 ^ 16 * 1 ∧ ruleIdle.readN 0x20004 4 = 0x3F80
    ∧ (0x20000 + 4 ≤ rvPa ⟨0, 0, 0⟩ 0) ∧ Nat.testBit 0x3F80 31 = false ∧ nbits 0x3F80 30 16 < ruleHead.ncols := by decide +kernel
/-- Its descriptor at 64 of the scratchpad, x at 192, y at 128: a GMV comes to its end. -/
def gmvBytes : List (Nat × BitVec 8) := ([(0, 1), (4, 1), (8, 1), (12, 1), (18, 2), (24, 8), (32, 0x10), (34, 2), (48, 1)] : List (Nat × BitVec 8)).map
  fun p => (loc0 + 64 + p.1, p.2)
def gmvIdle : State := { ruleIdle with mem := ruleIdle.mem ++ gmvBytes }
def gmvChain : Bool :=
  let l : Loc := ⟨0, 0, 0⟩
  match Eng.gDesc ruleWho false 64 .read gmvIdle with
  | (.ok dpa, s1) =>
    match Eng.block l dpa 64 16 0 s1 with
    | (.ok bs, s2) =>
      let h := gHead bs 48
      match Eng.xRange ruleWho 1 192 h.ncols s2 with
      | (.ok pas, s3) =>
        match Eng.yRange ruleWho 1 false 128 h.nrows s3 with
        | (.ok ys, s4) =>
          match Eng.collect pas (fun q => Eng.once l (Eng.get q.2 4 q.1 0 0)) s4 with
          | (.ok xs, s5) =>
            match Eng.rules ruleWho l h 1 (fun c b => nth xs (c + b) 0) 0 0 h.nrules h.rules [] s5 with
            | (.ok _, s6) =>
              match Eng.rowTable ruleWho l h 0 s6 with
              | (.ok rows, s7) =>
                leNat ((bs.drop 0x30).take 4) == 1 && h.bad.isNone && (s2.cluster (clusterKey l)).gkept.isEmpty && Memory.wf s7.mem
                  && s7.badGranules.isEmpty && s7.badWords.isEmpty && rows == [0] && h.nrules == 1 && ys == [(128, loc0 + 128)]
                  && decide (rvPa l 131072 ≤ loc0 + 128 ∨ loc0 + 128 + 4 ≤ rvPa l 0)
              | _ => false
            | _ => false
          | _ => false
        | _ => false
      | _ => false
    | _ => false
  | _ => false
theorem hyp_EngineEvents_gmv : gmvChain = true := by decide +kernel
/-- A frame of two samples by two that can be read is coded. -/
def session0 : Session :=
  { handle := 0, key := 0, launch := 0, codec := 0, width := 2, height := 2, d10 := false, gop := 1, qp := 20, rc := 0, pitch := 256, fps := 1000
    target := 0, peak := 0, vbv := 0, units := 1, queue := [], frames := 0, bytes := 0, sinceKey := 0, dropped := false, sizes := [], coded := none
    closed := false }
theorem hyp_EngineEvents_frame : session0.coded = none
    ∧ (match Eng.codeFrame encoderOp (encoderOp.who.as 3) session0 false 0x20000 ruleIdle with | (.ok _, _) => true | _ => false) = true :=
  ⟨rfl, by decide +kernel⟩
/-- The bench's launch with nothing of it started: its one gang fits. -/
def unstarted : State := tuneLaunch (fun l => { l with nextGang := 0 }) { idle with gangs := [], blocks := [], ctxs := [] }
theorem hyp_HearthEvents_admission : (let s := unstarted
      s.launches = [launch0 s] ∧ s.gangs = [] ∧ s.blocks = [] ∧ s.ctxs = [] ∧ (launch0 s).record.gangs = 1 ∧ (launch0 s).nextGang = 0
        ∧ s.mayAdmit (launch0 s) = true
        ∧ (s.findGang (launch0 s) 0 [] (s.clusterOrder [])).map (fun p => (p.1, p.2.map Prod.fst)) = some (0, [⟨0, 0, 0⟩])
        ∧ s.admits (launch0 s) 0 0 ⟨0, 0, 0⟩ = some 0 ∧ (launch0 s).started = true ∧ (launch0 s).record.energy < 8
        ∧ (s.regs.map Prod.fst).Pairwise (· < ·) ∧ s.used 0 + 1 * (s.weight (launch0 s).record.energy * (launch0 s).record.warps) < 2 ^ 32)
    := by decide +kernel
theorem hyp_HearthEvents_formed : ∀ k, (unstarted.cluster k).formed = [] := fun k => by
  have h : unstarted.clusters = [] := by decide
  simp [State.cluster, h, Table.get, Cluster.reset]

/-! The root of trust (19_device.md R397, R398): expected values of FIPS 202 and RFC 8032. -/

/-- A number as n bytes, the first the most significant. -/
def beBytes (n x : Nat) : List Byte := (leBytes n x).reverse
/-- SHAKE256 of nothing. -/
theorem test_shake256 : shake256 [] 16 = beBytes 16 0x46B9DD2B0BA88D13233B3FEB743EEB24 := by decide +kernel
/-- RFC 8032, section 7.4, the Ed448 key and signature of eleven bytes, as a stage of firmware: 8 bytes of version, 3 of code. -/
def stage0 : FwStage :=
  { key := beBytes 57 0xdcea9e78f35a1bf3499a831b10b86c90aac01cd84b67a0109b55a36e9328b1e365fce161d71ce7131a543ea4cb5f7e9f1d8b00696447001400
    version := 0xB063EC7440543E0C, code := [0x26, 0x5E, 0x0C]
    signature := beBytes 57 0x1f0a8888ce25e8d458a21130879b840a9089d999aaba039eaf3e3afa090a09d389dba82c4ff2ae8ac5cdfb7c55e94d5d961a29fe0109941e00
      ++ beBytes 57 0xb8dbdeea6d3b051068df7254c0cdc129cbe62db2dc957dbb47b51fd3f213fb8698f064774250a5028961c9bf8ffd973fe5d5c206492b140e00 }
theorem test_ed448 : ed448Verifies stage0.key (beBytes 11 0x0c3e544074ec63b0265e0c) stage0.signature = true := by decide +kernel
/-- A device whose fused digest is that key's, with an update of that stage alone. -/
def updated : State := { idle with fusedKey := shake256 stage0.key 64, newImage := some ⟨[stage0]⟩ }
theorem hyp_DebugAndDeviceEvents_boot : updated.newImage = some ⟨[stage0]⟩ ∧ (∀ x ∈ [stage0], updated.stageOk x = true) := by
  refine ⟨rfl, fun x h => ?_⟩
  obtain rfl := List.mem_singleton.mp h
  have hb : stageBytes stage0 = beBytes 11 0x0c3e544074ec63b0265e0c := by decide
  have hv : updated.version ≤ stage0.version := by decide
  have hk : updated.fusedKey = shake256 stage0.key 64 := by simp only [updated]
  simp only [State.stageOk, hb, test_ed448, hv, hk, beq_self_eq_true, decide_true, Bool.and_self]
/-- A stage of an older version than the fused one. -/
theorem hyp_DebugAndDeviceEvents_recovery : ({ updated with version := 2 ^ 64 } : State).stageOk stage0 = false
    ∧ ({ updated with installed := some ⟨[stage0]⟩ } : State).installed ≠ none ∧ ∀ d ≤ 1, (updated.reg d 0x19FFF8).getLsbD 1 = false := by
  refine ⟨?_, by simp, by decide⟩
  simp [State.stageOk, stage0]

end Sys2Proof.Tests
end

section
/-! PROOFS. The checks of R35 (02_formats.md) and the context classes of Table 1.4 (01_machine.md). -/

namespace Sys2Proof.Machine

/-- The class part of Table 1.4 for a sequencer context, as a proposition. -/
theorem classOk_seq_iff (k : Kind) : classOk .seq k = true ↔
    k.info.op / 16 = 0 ∧ k ∉ [Kind.enrol, .park, .strike, .exitSucc] ∨ k.info.op / 16 ∈ [1, 6, 8, 9, 12, 13, 14]
      ∨ k ∈ [Kind.ldu, .stu, .atomu]
      ∨ k ∈ [Kind.cpy, .cpyRing, .cpygGather, .cpygScatter, .rinit, .racqProd, .racqCons, .rrelPub, .rrelFree] := by
  cases k <;> decide

/-- Settles O8: Table 1.4 read off `classOk`, with the rule on v registers added for the sequencer. -/
theorem contextClasses : Obligations.ContextClasses := by
  unfold Obligations.ContextClasses
  intro k f
  refine ⟨?_, ?_, ?_⟩
  · simp [contextOk, classOk, and_assoc]
  · simp [contextOk, classOk]
  · have hv : contextOk .seq k f = true ↔ classOk .seq k = true ∧ namesV k f = false := by simp [contextOk]
    rw [hv, and_comm, classOk_seq_iff]

/-- Every instruction of the map is executed by `execIsa`, or, where it looks up the spawn table, by `execTable`. -/
theorem exec_of_view {i : Instr} {k : Kind} {f : Fields} (h : i.view = some (k, f)) :
    (∃ body, ∀ s, exec i s = execIsa k f body s) ∨ (∃ body, ∀ s, exec i s = execTable k f body s) := by
  cases i <;> cases h
  case exitSucc | sbind | spawn => exact .inr ⟨_, fun _ => rfl⟩
  all_goals exact .inl ⟨_, fun _ => rfl⟩

/-- An instruction whose checks fail looks up no table. -/
theorem Env.looked_of_checkFails {v : Env} {p : Nat × W64} (h : v.checkFails = some p) : v.looked = v.s := by
  simp [Env.looked, h]

/-- An instruction of the map that looks up the spawn table is executed where its look-ups are counted. -/
theorem execTable_envOf {s : State} {i : Instr} {v : Env} (body : Env → Res) (h : s.envOf i = some v) :
    execTable v.k v.f body s = execIsa v.k v.f body v.looked := by
  obtain ⟨-, hr, hc, hs⟩ := s.envOf_eq h
  obtain ⟨vs, vr, vc, vk, vf⟩ := v
  simp only at hr hc hs
  subst hs
  simp only [execTable, hr, hc]

/-- A failing check of R35 steps 2 to 4 traps, whatever the instruction. -/
theorem exec_of_checkFails {i : Instr} {s : State} {v : Env} {cause : Nat} {a : W64} (hv : s.envOf i = some v)
    (hf : v.checkFails = some (cause, a)) : exec i s = .next (v.counted.trapTo v.c.id { v.plainTrap cause with taddr := a }) := by
  obtain ⟨hview, -, -, hs⟩ := s.envOf_eq hv
  have hisa : ∀ body, execIsa v.k v.f body s = .next (v.counted.trapTo v.c.id { v.plainTrap cause with taddr := a }) := fun body => by
    rw [execIsa_envOf body hv, v.execute_check hf]
  rcases exec_of_view hview with ⟨body, he⟩ | ⟨body, he⟩
  · rw [he, hisa]
  · rw [he, execTable_envOf body hv, Env.looked_of_checkFails hf, hs, hisa]

/-- The width that bounds a SHFL's segment, written with the launch's WIDTH (R97). -/
theorem Env.wholeWidth_eq (v : Env) : v.wholeWidth =
    if v.c.kind = .seq then ((v.s.launch? v.c.launch).map fun l => 16 * 2 ^ l.record.width).getD 64 else v.c.width := by
  simp only [Env.wholeWidth, beq_iff_eq]
  rfl

/-- The segment of a SHFL from its M operand (R97). -/
theorem Env.segment_eq (v : Env) : v.segment =
    if nbits v.f.m.toNat 5 3 = 0 then v.wholeWidth else 2 ^ nbits v.f.m.toNat 5 3 := by
  simp [Env.segment, Env.m]

/-- An ill-formed encoding is found before anything else. -/
theorem Env.checkFails_encoding {v : Env} (h : encOk v.k v.f = false) : v.checkFails = some (cIllegalInstr, v.pc) := by
  simp [Env.checkFails, h]

/-- A TRAP or BKPT that is not first (R32) and a SHFL whose segment is too wide (R97) are illegal instructions too. -/
theorem Env.checkFails_placement {v : Env} (h : ((v.k = .trap ∨ v.k = .bkpt) ∧ v.r.count ≠ 0) ∨ (v.k = .shfl ∧ v.wholeWidth < v.segment)) :
    v.checkFails = some (cIllegalInstr, v.pc) := by
  rcases h with ⟨hk, hc⟩ | ⟨hk, hw⟩
  · simp [Env.checkFails, hk, hc]
  · simp [Env.checkFails, hk, hw]

/-- The checks that remain once encoding and placement are right: context, then operands, then registers written twice. -/
theorem Env.checkFails_placed {v : Env} (he : encOk v.k v.f = true) (hfirst : v.k = .trap ∨ v.k = .bkpt → v.r.count = 0)
    (hnarrow : v.k = .shfl → v.segment ≤ v.wholeWidth) : v.checkFails =
      if contextOk v.c.kind v.k v.f = false then some (cContext, v.r.pc)
      else if operandsOk v.c.vregs v.k v.f = false ∨ v.r.pc ∈ v.r.clash then some (cIllegalOperand, v.r.pc) else none := by
  have h1 : ((v.k == .trap || v.k == .bkpt) && v.r.count != 0) = false := by simpa using hfirst
  have h2 : (v.k == .shfl && decide (v.wholeWidth < v.segment)) = false := by simpa using hnarrow
  simp only [Env.checkFails, Env.pc, he, h1, h2, Bool.not_true, Bool.not_eq_true', Bool.false_eq_true, if_false, List.contains_iff_mem]
  by_cases ho : operandsOk v.c.vregs v.k v.f = false <;> simp [ho]

/-- Settles O7: `execute_check` gives the trap for every instruction of the map, and the equations of `checkFails` the order. -/
theorem failedChecksTrap : Obligations.FailedChecksTrap := by
  unfold Obligations.FailedChecksTrap
  refine ⟨fun i s v cause a hv hf => exec_of_checkFails hv hf, fun v => ?_⟩
  simp only [← Env.wholeWidth_eq, ← Env.segment_eq]
  refine ⟨Env.checkFails_encoding, fun h => ?_, fun he hfirst hnarrow => ?_⟩
  · exact Env.checkFails_placement (by simpa using h)
  · rw [Env.checkFails_placed he hfirst hnarrow]
    refine ⟨fun hc => ?_, fun hc ho => ?_, fun hc ho hn => ?_⟩
    · rw [if_pos hc]; rfl
    · rw [if_neg (by simp [hc]), if_pos ho]; rfl
    · rw [if_neg (by simp [hc]), if_neg (by simp [ho, hn])]

end Sys2Proof.Machine
end

section
/-! PROOFS. Events of the Hearth that change its own registers and lists (18_launch.md R377 to R380, R390 to R393): how an event
between runs is shown, and what each of them leaves. -/

namespace Sys2Proof.Machine

/-! How an event is shown. -/

/-- An event that is possible between runs leaves what it gives, followed by what follows every event. -/
theorem event_of_between {s t : State} (h : s.between) : event s (some t) = .next t.quiesce := by
  obtain ⟨hr, ht, hc⟩ := h
  simp [event, hr, ht, hc]

/-- How an event is shown: its arm is `event` of something that is t where pre holds. -/
theorem happens_of_event {i : Instr} {pre : State → Prop} {t : State → State} {r : State → Option State}
    (hx : ∀ s, exec i s = event s (r s)) (hr : ∀ s, pre s → r s = some (t s)) : Happens i pre t := by
  intro s hb hp
  rw [hx, hr s hp, event_of_between hb]

/-- How an event by which firmware writes a register is shown. -/
theorem firmware_of_event {i : Instr} {die off : Nat} {pre : State → Prop} {t u : State → State}
    (hx : ∀ s, exec i s = event s (some (s.byFirmware die off (u s)))) (hu : ∀ s, pre s → u s = t s) : Firmware i die off pre t := by
  refine ⟨happens_of_event hx fun s h => ?_, happens_of_event hx fun s h => ?_⟩
  · simp [State.byFirmware, h.2, hu s h.1]
  · simp [State.byFirmware, h]

/-! What a write and a register leave to read. -/

/-- A write to memory leaves the registers. -/
@[simp] theorem State.wr_regs (s : State) (pa : Nat) (bs : List Byte) : (s.wr pa bs).regs = s.regs := by rw [s.wr_eq]

/-- Each register reads the same after a write to memory. -/
@[simp] theorem State.wr_reg (s : State) (pa : Nat) (bs : List Byte) (die off : Nat) : (s.wr pa bs).reg die off = s.reg die off := by
  simp [State.reg]

/-- What bytes read depends on memory alone. -/
theorem State.readBytes_congr {s t : State} (h : s.mem = t.mem) (pa n : Nat) : s.readBytes pa n = t.readBytes pa n := by
  induction n generalizing pa with
  | zero => rfl
  | succ n ih => simp [State.readBytes, State.readByte, h, ih]

@[simp] theorem State.readBytes_setReg (s : State) (die off : Nat) (v : W64) (pa n : Nat) :
    (s.setReg die off v).readBytes pa n = s.readBytes pa n := 
  State.readBytes_congr (s.setReg_mem die off v) pa n

/-- A read that meets no error reads memory and changes nothing. -/
theorem State.readFree_sound {s : State} {pa n : Nat} (h : s.badRead pa n = false) : s.readFree pa n = (s, s.readBytes pa n) := by
  simp [State.readFree, h]

/-! Queues. -/

/-- TAIL of a queue with no fault moves on (R377). -/
theorem State.queueAppend_open {s : State} {q : Nat} (hfault : (s.reg 0 (qReg q 1)).getLsbD 17 = false)
    (htail : (s.qTail q + 1) % s.qSize q < s.qSize q) :
    s.queueAppend q = s.setReg 0 (qReg q 3) (BitVec.ofNat 64 ((s.qTail q + 1) % s.qSize q)) := by
  have : ¬ s.qSize q ≤ (s.qTail q + 1) % s.qSize q := by omega
  simp only [State.queueAppend, hfault, this, decide_false, Bool.or_false, Bool.false_eq_true, if_false]

/-- Moving a queue's TAIL after a write to memory. -/
theorem State.queueAppend_wr {s : State} {q : Nat} (pa : Nat) (bs : List Byte) (hfault : (s.reg 0 (qReg q 1)).getLsbD 17 = false)
    (htail : (s.qTail q + 1) % s.qSize q < s.qSize q) :
    (s.wr pa bs).queueAppend q = (s.wr pa bs).setReg 0 (qReg q 3) (BitVec.ofNat 64 ((s.qTail q + 1) % s.qSize q)) := by
  have ht : (s.wr pa bs).qTail q = s.qTail q := by simp [State.qTail]
  have hz : (s.wr pa bs).qSize q = s.qSize q := by simp [State.qSize]
  rw [State.queueAppend_open (by simpa using hfault) (by rw [ht, hz]; exact htail), ht, hz]

/-- The append of a record to a queue in the HBM: stored where the tables of master 18 permit it, and TAIL written where
firmware may. -/
theorem State.appendRecord_hbm {s : State} {q st : Nat} {record : List Byte} (hq : q < 64) (hl : record.length = 256)
    (hp : s.place (s.queueSlot q) = .hbm st) :
    s.appendRecord q record =
      let s1 := if s.tablesPermit (masterWho 18 0) (s.queueSlot q) 256 false true then s.wr (s.queueSlot q) record else s
      some (s1.byFirmware 0 (qReg q 3) (s1.queueAppend q)) := by
  have : ¬ 63 < q := by omega
  simp [State.appendRecord, this, hl, hp]

/-- A record that both tables permit is stored, and TAIL moves on. -/
theorem State.appendRecord_admitted {s : State} {q st : Nat} {record : List Byte} (hq : q < 64) (hl : record.length = 256)
    (hp : s.place (s.queueSlot q) = .hbm st) (hfault : (s.reg 0 (qReg q 1)).getLsbD 17 = false)
    (htail : (s.qTail q + 1) % s.qSize q < s.qSize q)
    (hperm : s.tablesPermit (masterWho 18 0) (s.queueSlot q) 256 false true = true)
    (hmay : (s.wr (s.queueSlot q) record).firmwareMay 0 (qReg q 3) true = true) :
    s.appendRecord q record =
      some ((s.wr (s.queueSlot q) record).setReg 0 (qReg q 3) (BitVec.ofNat 64 ((s.qTail q + 1) % s.qSize q))) := by
  rw [State.appendRecord_hbm hq hl hp]
  simp only [hperm, if_true, State.byFirmware, hmay, State.queueAppend_wr _ _ hfault htail]

/-- A record that neither table permits leaves everything as it was. -/
theorem State.appendRecord_denied {s : State} {q st : Nat} {record : List Byte} (hq : q < 64) (hl : record.length = 256)
    (hp : s.place (s.queueSlot q) = .hbm st) (hperm : s.tablesPermit (masterWho 18 0) (s.queueSlot q) 256 false true = false)
    (hmay : s.firmwareMay 0 (qReg q 3) true = false) : s.appendRecord q record = some s := by
  rw [State.appendRecord_hbm hq hl hp]
  simp only [hperm, Bool.false_eq_true, if_false, State.byFirmware, hmay]

/-- QCTL of a queue that is not enabled is written alone (R377). -/
theorem State.qctlWrite_disabled {s : State} {q : Nat} (value : W64) (h : (s.reg 0 (qReg q 1)).getLsbD 16 = false) :
    s.qctlWrite q value = s.setReg 0 (qReg q 1) (value &&& 0x7FFFF) := by
  simp only [State.qctlWrite, h, Bool.false_eq_true, if_false]

/-- QCTL of an enabled queue: HEAD and TAIL go back to 0, and no slot counts as copied (R377). -/
theorem State.qctlWrite_enabled {s : State} {q : Nat} (value : W64) (h : (s.reg 0 (qReg q 1)).getLsbD 16 = true) :
    s.qctlWrite q value = ({ (s.setReg 0 (qReg q 2) 0).setReg 0 (qReg q 3) 0 with copied := s.copied.filter fun p => p.1 != q } : State).setReg 0
      (qReg q 1) (value &&& 0x7FFFF) := by
  simp only [State.qctlWrite, h, if_true]

/-- A record that is neither refused nor cancelled becomes an active launch (R378). -/
theorem State.takeRecord_active {s : State} {q : Nat} {bs : List Byte} (h : s.refuses bs = false) :
    s.takeRecord q bs false =
      { s with nextId := s.nextId + 1, launches := s.launches ++ [launchOf s.nextId q s.ns (recordOf bs) 0] } := by
  simp [State.takeRecord, h]

/-- The copy of a sound record that was not taken before (R378): HEAD moves on and the record is taken. -/
theorem State.launchCopy_sound {s : State} {q : Nat} (hq : q < 64) (he : s.qEnabled q = true) (hne : s.qHead q ≠ s.qTail q)
    (hroom : s.launches.length < 256) (hnew : (q, s.qHead q) ∉ s.copied)
    (hbad : s.badRead (bits (s.reg 0 (qReg q 0)) 51 8 * 256 + 256 * s.qHead q) 256 = false) :
    s.launchCopy q = some ((s.setReg 0 (qReg q 2) (BitVec.ofNat 64 ((s.qHead q + 1) % s.qSize q))).takeRecord q
      (s.readBytes (bits (s.reg 0 (qReg q 0)) 51 8 * 256 + 256 * s.qHead q) 256) false) := by
  have hq' : ¬ 63 < q := by omega
  have hroom' : ¬ 256 ≤ s.launches.length := by omega
  have hbad' : ∀ off v, (s.setReg 0 off v).badRead (bits (s.reg 0 (qReg q 0)) 51 8 * 256 + 256 * s.qHead q) 256 = false :=
    fun _ _ => hbad
  simp [State.launchCopy, hq', he, hne, hroom', hnew, State.readFree_sound (hbad' _ _)]

/-! Chimneys and completion. -/

/-- The end of a launch (R390): what is left of it goes, its result record is written where it has one, and its completion is
delivered. -/
theorem State.launchComplete_over {s : State} {l : Launch} (hl : s.launch? l.id = some l) (ho : s.launchOver l = true) :
    s.launchComplete l.id = some ((if l.started = true ∧ l.record.result ≠ 0 then
      (s.forget l).hearthWrite l.record.result l.resultBytes else s.forget l).deliver l.id) := by
  simp [State.launchComplete, hl, ho]

/-- The first held completion is written once its chimney has room (R392). -/
theorem State.heldRelease_head {s : State} {l : Launch} {rest : List Nat} (hh : s.heldRecs = l.id :: rest)
    (hl : s.launch? l.id = some l) (hr : s.cRoom (s.chimneyOf l) = true) :
    s.heldRelease (s.chimneyOf l) = some (s.writeCompletion l (s.chimneyOf l)).releaseKeys := by
  simp [State.heldRelease, hh, hl, hr]

@[simp] theorem leBytes_length (n x : Nat) : (leBytes n x).length = n := by
  induction n generalizing x with
  | zero => rfl
  | succ n ih => simp [leBytes, ih]

/-- Little-endian bytes read back as the number, as far as they hold it (00_scope.md R2). -/
theorem leNat_leBytes (n x : Nat) : leNat (leBytes n x) = x % 256 ^ n := by
  induction n generalizing x with
  | zero => simp [leBytes, leNat, Nat.mod_one]
  | succ n ih =>
    have hp : 256 ^ (n + 1) = 256 * 256 ^ n := Nat.pow_succ'
    rw [leBytes, leNat, ih, BitVec.toNat_ofNat, hp, Nat.mod_mul]

@[simp] theorem Launch.completion_length (l : Launch) (now : Nat) : (l.completion now).length = 32 := by
  simp [Launch.completion]

/-- The first word of a completion record is the launch's TAG (Table 18.3). -/
theorem Launch.completion_tag (l : Launch) (now : Nat) : leNat ((l.completion now).take 8) = l.record.tag.toNat := by
  simp only [Launch.completion, List.append_assoc]
  rw [List.take_left' (leBytes_length 8 _), leNat_leBytes]
  exact Nat.mod_eq_of_lt l.record.tag.isLt

/-- The top byte of the second word is the launch's status (Table 18.3). -/
theorem Launch.completion_status (l : Launch) (now : Nat) (h : l.status < 2 ^ 8) :
    leNat (((l.completion now).drop 8).take 8) / 2 ^ 56 = l.status := by
  simp only [Launch.completion, List.append_assoc]
  rw [List.drop_left' (leBytes_length 8 _), List.take_left' (leBytes_length 8 _), leNat_leBytes]
  omega

end Sys2Proof.Machine
end

section
/-! PROOFS. Where a gang fits (01_machine.md R7 to R9): what a core that admits a block has to spare, and what the cores picked for
a gang are. -/

namespace Sys2Proof.Machine

/-! A core that admits a block. -/

/-- A fold that keeps what it has or takes the next element answers with its start or with an element. -/
theorem foldl_keeps_or_takes {α : Type} {g : Option α → α → Option α} (hg : ∀ o a b, g o a = some b → o = some b ∨ b = a)
    {l : List α} {o : Option α} {b : α} (h : l.foldl g o = some b) : o = some b ∨ b ∈ l := by
  induction l generalizing o with
  | nil => exact .inl h
  | cons a r ih =>
    rcases ih h with h | h
    · rcases hg o a b h with h | rfl
      · exact .inl h
      · exact .inr List.mem_cons_self
    · exact .inr (List.mem_cons_of_mem _ h)

/-- A region is put where it lies free of every area that is taken. -/
theorem State.regionBase_free {s : State} {key lin idx n b : Nat} {c : Loc} (h : s.regionBase key lin idx n c = some b) :
    areaFree (s.takenAreas c (Region.mine key lin idx)) n b = true := by
  unfold State.regionBase at h
  simp only at h
  split at h
  · split at h
    · cases h; assumption
    · cases h
  · have hmin : ∀ (o : Option Nat) (a b : Nat), (match o with | some x => some (min x a) | none => some a) = some b →
        o = some b ∨ b = a := by
      intro o a b ho
      cases o with
      | none => exact .inr (by simpa using ho.symm)
      | some x => rcases min_choice x a with hm | hm <;> simp_all
    rcases foldl_keeps_or_takes hmin h with h | h
    · cases h
    · exact (List.mem_filter.mp h).2

/-- What a core that admits a block has: slots and registers, free files where the gang has a sequencer, a free area. -/
theorem State.admits_some {s : State} {l : Launch} {lin idx b : Nat} {c : Loc} (h : s.admits l lin idx c = some b) :
    s.slotsOk c l.record.warps (l.record.warps * l.record.warpBytes) (s.reserveAt c l.record.reserve) = true
    ∧ (l.record.hasSeq = true → (s.core c).holder = none)
    ∧ areaFree (s.takenAreas c (Region.mine l.record.key lin idx)) l.record.spBytes b = true := by
  unfold State.admits at h
  simp only at h
  split at h
  · cases h
  · rename_i hroom
    simp only [Bool.or_eq_true, Bool.not_eq_true', Bool.and_eq_true, Option.isSome_iff_ne_none, not_or, not_and,
      Bool.not_eq_false, ne_eq, not_not] at hroom
    split at h
    · cases h
    · rename_i b' hb
      split at h
      · cases h
      · cases h
        exact ⟨hroom.1, hroom.2, State.regionBase_free hb⟩

/-- The area of a block on a core is taken. -/
theorem State.mem_takenAreas {s : State} {x : Block} {c : Loc} (own : Region → Bool) (hx : x ∈ s.blocks) (hc : x.loc = c)
    (hs : x.saved = none) : (x.base, x.size) ∈ s.takenAreas c own := by
  refine List.mem_append_left _ (List.mem_map.mpr ⟨x, List.mem_filter.mpr ⟨hx, ?_⟩, rfl⟩)
  simp [hc, hs]

/-- A core that admits a block has room for its warps, its registers and its region (R8). -/
theorem State.admits_room {s : State} {l : Launch} {lin idx b : Nat} {c : Loc} (h : s.admits l lin idx c = some b) :
    (s.coreLoad c).1 + l.record.warps ≤ 48 ∧ (s.coreLoad c).2 + l.record.warps * l.record.warpBytes ≤ 524288
    ∧ b + l.record.spBytes ≤ 524288
    ∧ ∀ x ∈ s.blocks, x.loc = c → x.saved = none → x.size = 0 ∨ b + l.record.spBytes ≤ x.base ∨ x.base + x.size ≤ b := by
  obtain ⟨hslots, -, harea⟩ := State.admits_some h
  simp only [State.slotsOk, Bool.and_eq_true, decide_eq_true_eq] at hslots
  simp only [areaFree, Bool.and_eq_true, decide_eq_true_eq, List.all_eq_true] at harea
  obtain ⟨hend, hfree⟩ := harea
  refine ⟨by omega, hslots.2, hend, fun x hx hc hs => ?_⟩
  simpa [or_assoc] using hfree _ (State.mem_takenAreas _ hx hc hs)

/-! The cores of a gang. -/

/-- What a core picked for a block is: of the gang's cluster, and one that admits the block there. -/
def State.Picked (s : State) (l : Launch) (lin ck idx : Nat) (p : Loc × Nat) : Prop :=
  clusterKey p.1 = ck ∧ p.1.core < 24 ∧ s.admits l lin idx p.1 = some p.2

/-- The cores of a cluster, in whatever order. -/
theorem mem_coreOrder {ck : Nat} {pref : List Nat} {c : Loc} (h : c ∈ coreOrder ck pref) : clusterKey c = ck ∧ c.core < 24 := by
  simp only [coreOrder, List.mem_map, List.mem_eraseDups, List.mem_append, List.mem_filter, List.contains_iff_mem, List.mem_range] at h
  obtain ⟨k, hk, rfl⟩ := h
  obtain ⟨i, hi, rfl⟩ : ∃ i < 24, 25 * ck + i = k := by tauto
  simp only [clusterKey, locOf]
  omega

/-- A core that holds a tag of a gang in a cluster is one of the cluster. -/
theorem State.mem_tagged {s : State} {key lin ck : Nat} {p : Nat × Loc} (h : p ∈ s.tagged key lin ck) :
    clusterKey p.2 = ck ∧ p.2.core < 24 := by
  unfold State.tagged at h
  split at h
  · cases h
  · simp only [List.mem_flatMap, List.mem_map, List.mem_filter] at h
    obtain ⟨c, hc, r, -, rfl⟩ := h
    exact mem_coreOrder hc

/-- Picking a core for the next block: one of the cluster that admits it and is not taken. -/
theorem State.pickBlocks_cons {s : State} {l : Launch} {lin ck i : Nat} {pref rest : List Nat} {taken ps : List (Loc × Nat)}
    (h : s.pickBlocks l lin ck pref (i :: rest) taken = some ps) :
    ∃ p, s.Picked l lin ck i p ∧ p.1 ∉ taken.map Prod.fst ∧ s.pickBlocks l lin ck pref rest (taken ++ [p]) = some ps := by
  unfold State.pickBlocks at h
  simp only at h
  split at h
  · cases h
  · split at h
    · rename_i p hp
      obtain ⟨c, hc, hfit⟩ := List.exists_of_findSome?_eq_some hp
      have hck : clusterKey c = ck ∧ c.core < 24 := by
        split at hc
        · rename_i q hq
          obtain rfl := List.mem_singleton.mp hc
          exact State.mem_tagged (List.mem_of_find?_eq_some hq)
        · exact mem_coreOrder (List.mem_of_mem_filter hc)
      split at hfit
      · cases hfit
      · rename_i hnew
        obtain ⟨b, hb, rfl⟩ := Option.map_eq_some_iff.mp hfit
        exact ⟨(c, b), ⟨hck.1, hck.2, hb⟩, by simpa using hnew, h⟩
    · cases h

/-- The cores picked for some blocks: one for each, in their order, all distinct. -/
theorem State.pickBlocks_some {s : State} {l : Launch} {lin ck : Nat} {pref idxs : List Nat} {taken ps : List (Loc × Nat)}
    (h : s.pickBlocks l lin ck pref idxs taken = some ps) (hd : (taken.map Prod.fst).Nodup) :
    (ps.map Prod.fst).Nodup ∧ ∃ new, ps = taken ++ new ∧ List.Forall₂ (s.Picked l lin ck) idxs new := by
  induction idxs generalizing taken with
  | nil =>
    cases h
    exact ⟨hd, [], (List.append_nil _).symm, .nil⟩
  | cons i rest ih =>
    obtain ⟨p, hp, hnew, hrest⟩ := State.pickBlocks_cons h
    obtain ⟨hps, new, rfl, hall⟩ := ih hrest (by
      rw [List.map_append]
      exact List.Nodup.append hd (List.nodup_singleton _) (by simpa using hnew))
    exact ⟨hps, p :: new, by simp, .cons hp hall⟩

/-- A gang fits in one of the clusters tried, its sequencer context free where it has one, each block on a core picked for it. -/
theorem State.findGang_some {s : State} {l : Launch} {lin ck : Nat} {pref cks : List Nat} {ps : List (Loc × Nat)}
    (h : s.findGang l lin pref cks = some (ck, ps)) :
    ck ∈ cks ∧ (l.record.hasSeq = true → (s.freeSeq ck).isSome = true) ∧ (ps.map Prod.fst).Nodup
    ∧ List.Forall₂ (s.Picked l lin ck) (List.range l.record.blocks) ps := by
  obtain ⟨k, hk, hf⟩ := List.exists_of_findSome?_eq_some h
  split at hf
  · cases hf
  · rename_i hfree
    obtain ⟨qs, hqs, heq⟩ := Option.map_eq_some_iff.mp hf
    cases heq
    obtain ⟨hd, new, rfl, hall⟩ := State.pickBlocks_some hqs List.nodup_nil
    refine ⟨hk, fun hseq => ?_, hd, hall⟩
    simp only [hseq, Bool.or_eq_true, Bool.true_and, not_or, Option.isNone_iff_eq_none] at hfree
    exact Option.isSome_iff_ne_none.mpr hfree.2

/-- The core picked for each block of a gang by its index. -/
theorem State.picked_getElem? {s : State} {l : Launch} {lin ck n i : Nat} {ps : List (Loc × Nat)} {p : Loc × Nat}
    (h : List.Forall₂ (s.Picked l lin ck) (List.range n) ps) (hi : ps[i]? = some p) : s.Picked l lin ck i p := by
  obtain ⟨hlt, rfl⟩ := List.getElem?_eq_some_iff.mp hi
  have hget := (List.forall₂_iff_get.mp h).2 i (by rw [h.length_eq]; exact hlt) hlt
  simpa using hget

end Sys2Proof.Machine
end

section
/-! PROOFS. What the operations that start a gang leave of what the Hearth has placed and of the registers: each one's frame. -/

namespace Sys2Proof.Machine

/-- What the Hearth has placed, the id that comes next, and the registers. -/
structure Roster where
  launches : List Launch
  gangs : List Gang
  blocks : List Block
  ctxs : List Ctx
  nextId : Nat
  regs : Table W64

/-- The roster of a state. -/
def State.roster (s : State) : Roster :=
  { launches := s.launches, gangs := s.gangs, blocks := s.blocks, ctxs := s.ctxs, nextId := s.nextId, regs := s.regs }

/-- One of two states that have the same roster. -/
theorem State.roster_ite {c : Prop} [Decidable c] {u v : State} {r : Roster} (hu : u.roster = r) (hv : v.roster = r) :
    (if c then u else v).roster = r := by
  split
  · exact hu
  · exact hv

section frames
variable (s : State)
@[simp] theorem State.setCore_roster (l : Loc) (c : Core) : (s.setCore l c).roster = s.roster := rfl
@[simp] theorem State.setCluster_roster (k : Nat) (c : Cluster) : (s.setCluster k c).roster = s.roster := rfl
@[simp] theorem State.settleJoins_roster : s.settleJoins.roster = s.roster := by rw [s.settleJoins_eq]; rfl
@[simp] theorem State.wr_roster (pa : Nat) (bs : List Byte) : (s.wr pa bs).roster = s.roster := by rw [s.wr_eq]; rfl
@[simp] theorem State.zeroArea_roster (a n : Nat) (keep : List (Nat × Nat)) : (s.zeroArea a n keep).roster = s.roster := by
  unfold State.zeroArea; rw [State.settleJoins_roster]; rfl
@[simp] theorem State.clearAccs_roster (l : Loc) : (s.clearAccs l).roster = s.roster := by simp [State.clearAccs]
@[simp] theorem State.clearTiles_roster (l : Loc) : (s.clearTiles l).roster = s.roster := by
  unfold State.clearTiles
  simp only [State.setCore_roster, State.clearAccs_roster, State.wr_roster, State.zeroArea_roster]
@[simp] theorem State.setBanks_roster (l : Loc) (bs : List Bank) : (s.setBanks l bs).roster = s.roster := by
  unfold State.setBanks; split <;> simp
/-- Taking a counter bank places nothing. -/
@[simp] theorem State.takeBank_roster (launch : Nat) (l : Loc) : (s.takeBank launch l).roster = s.roster := by
  unfold State.takeBank
  simp only
  split
  · rfl
  · exact State.setBanks_roster ..
end frames

/-! Writes of the Hearth, which may meet an error and count it in registers (19_device.md R404). -/

/-- Nothing was placed between two states: they differ in registers at most. -/
def State.SamePlaced (s t : State) : Prop := t.roster = { s.roster with regs := t.regs }

theorem State.SamePlaced.refl (s : State) : s.SamePlaced s := rfl

theorem State.SamePlaced.trans {s t u : State} (h : s.SamePlaced t) (h' : t.SamePlaced u) : s.SamePlaced u := by
  unfold State.SamePlaced at *
  rw [h', h]

theorem State.SamePlaced.of_roster {s t : State} (h : t.roster = s.roster) : s.SamePlaced t := by
  have hr : t.regs = s.regs := congrArg Roster.regs h
  rw [State.SamePlaced, h, hr]
  rfl

theorem State.errIrq_samePlaced (s : State) (die : Nat) : s.SamePlaced (s.errIrq die) := by
  unfold State.errIrq
  simp only
  split <;> rfl

theorem State.countUnc_samePlaced (s : State) (pa : Nat) : s.SamePlaced (s.countUnc pa) :=
  State.SamePlaced.trans (t := ((s.bumpReg _ _).setReg _ _ _).setReg _ _ _) rfl (State.errIrq_samePlaced _ _)

/-- The walk of the Hearth's address. -/
theorem State.hearthPa_samePlaced (s : State) (va : Nat) (t : AccessType) : s.SamePlaced (s.hearthPa va t).1 := by
  unfold State.hearthPa
  split
  · rfl
  · split
    · rfl
    · exact s.countUnc_samePlaced _
    · rfl

theorem State.hearthWrite_samePlaced (s : State) (va : Nat) (bs : List Byte) : s.SamePlaced (s.hearthWrite va bs) := by
  unfold State.hearthWrite
  refine List.foldlRecOn (motive := fun p : State × List Byte => s.SamePlaced p.1) _ _ (.refl s) fun p hp a _ => ?_
  refine hp.trans ((p.1.hearthPa_samePlaced a.1 .write).trans ?_)
  simp only
  split <;> rename_i h <;> rw [h]
  · exact .of_roster (State.wr_roster ..)
  · exact .refl _

/-- The first admission of a launch that was started before does nothing. -/
theorem State.firstAdmission_started {s : State} {l : Launch} (h : l.started = true) : s.firstAdmission l = s := by
  simp [State.firstAdmission, h]

/-- The first admission of a launch marks it started and places nothing (R390). -/
theorem State.firstAdmission_unstarted {s : State} {l : Launch} (h : l.started = false) :
    ∃ (u : State) (lost : Bool), s.SamePlaced u ∧
      s.firstAdmission l = u.updLaunch l.id fun x => { x with started := true, start := s.ns, resLost := lost } := by
  unfold State.firstAdmission
  simp only [h, Bool.false_eq_true, if_false]
  refine ⟨_, _, ?_, rfl⟩
  have hresult : s.SamePlaced (if l.record.result == 0 then s else s.hearthWrite l.record.result (zeros 0xC0)) := by
    split
    · exact .refl s
    · exact s.hearthWrite_samePlaced ..
  have hheaders : ∀ u : State, u.SamePlaced (if l.record.quota == 0 then u
      else (List.range 16).foldl (fun s ck => s.hearthWrite (l.spillPart ck) (zeros 64)) u) := fun u => by
    split
    · exact .refl u
    · exact List.foldlRecOn _ _ (.refl u) fun t ht ck _ => ht.trans (t.hearthWrite_samePlaced ..)
  exact (hresult.trans (hheaders _)).trans (.of_roster rfl)

end Sys2Proof.Machine
end

section
/-! PROOFS. What the start of a gang leaves (01_machine.md R9, R10; 18_launch.md R384): its blocks, the contexts of each, its sequencer
context, its launch. -/

namespace Sys2Proof.Machine

theorem nth_eq_getD {α : Type} (l : List α) (i : Nat) (d : α) : nth l i d = (l[i]?).getD d := by
  induction l generalizing i with
  | nil => simp [nth]
  | cons x r ih => cases i <;> simp [nth, ih]

/-! Contexts as they start (R10). -/

/-- A context in its start state: of the gang and the launch, with the arguments and no other register or token. -/
structure Ctx.StartedFor (l : Launch) (gid : Nat) (c : Ctx) : Prop where
  gang : c.gang = gid
  launch : c.launch = l.id
  v : c.v = []
  p : c.p = []
  m : c.m = []
  tok : c.tok = []
  s : c.s = argTable l.record.args
  ended : c.ended = false
  sr : c.sr = { SysRegs.start l.record with dbgRev := l.rev }
  lanes : c.lanes.length = c.width

/-- A warp of a block in its start state, every lane runnable at an address past pads there. -/
structure Ctx.WarpOf (l : Launch) (b : Block) (pc : W64) (c : Ctx) : Prop extends c.StartedFor l b.gang where
  kind : c.kind = .lane
  block : c.block = b.id
  loc : c.loc = b.loc
  width : c.width = l.record.lanes
  vregs : c.vregs = l.record.vregs
  entry : ∃ u : State, ∀ j < c.width, (c.lane j).pc = u.pastPads c.loc pc ∧ (c.lane j).st = .runnable

/-- The sequencer context of a gang in its start state, its lane runnable at the entry that the launch declares. -/
structure Ctx.SequencerOf (l : Launch) (gid ck : Nat) (c : Ctx) : Prop extends c.StartedFor l gid where
  kind : c.kind = .seq
  declared : l.record.hasSeq = true
  width : c.width = 1
  loc : c.loc = ⟨ck / 8, ck % 8, 24⟩
  entry : ∃ u : State, (c.lane 0).pc = u.pastPads c.loc (l.record.entry l.record.seqOff)
  runnable : (c.lane 0).st = .runnable

/-- The i-th warp of a block as `startWarps` starts it, with no successor argument. -/
def State.newWarp (s : State) (l : Launch) (b : Block) (i : Nat) (pc : W64) (cost : Nat) (gens : Nat → Nat) : Ctx :=
  let c := Ctx.start s.nextId .lane l b.gang b.id i b.loc (s.freeSlot b.loc) l.record.lanes (s.pastPads b.loc pc)
  { c with lanes := (List.range c.lanes.length).map fun j => { c.lane j with gen := gens j }, behind := s.nextId, cost := cost }

/-- The warps of a block start one after the other. -/
theorem State.startWarps_succ (s : State) (l : Launch) (b : Block) (n : Nat) (pc : W64) (cost : Nat) (gens : Nat → Nat) :
    s.startWarps l b (n + 1) pc none cost gens =
      let t := s.startWarps l b n pc none cost gens
      { t with ctxs := t.ctxs ++ [t.newWarp l b n pc cost gens], nextId := t.nextId + 1 } := by
  unfold State.startWarps
  rw [List.range_succ, List.foldl_append, List.foldl_cons, List.foldl_nil]
  rfl

/-- A lane below the width of a context in its start state. -/
theorem Ctx.start_lane {id gang block warp slotNo width j : Nat} {kind : CtxKind} {l : Launch} {loc : Loc} {pc : W64} (hj : j < width) :
    (Ctx.start id kind l gang block warp loc slotNo width pc).lane j = Lane.start pc := by
  simp [Ctx.lane, Ctx.start, nth_eq_getD, hj]

/-- A lane below the width of a new warp is one in its start state, but for its generation. -/
theorem State.newWarp_lane {s : State} {l : Launch} {b : Block} {i cost j : Nat} {pc : W64} {gens : Nat → Nat} (hj : j < l.record.lanes) :
    (s.newWarp l b i pc cost gens).lane j = { Lane.start (s.pastPads b.loc pc) with gen := gens j } := by
  rw [← Ctx.start_lane (id := s.nextId) (kind := .lane) (l := l) (gang := b.gang) (block := b.id) (warp := i) (loc := b.loc)
    (slotNo := s.freeSlot b.loc) hj]
  simp [Ctx.lane, State.newWarp, nth_eq_getD, Ctx.start, hj]

theorem State.newWarp_warpOf (s : State) (l : Launch) (b : Block) (i : Nat) (pc : W64) (cost : Nat) (gens : Nat → Nat) :
    (s.newWarp l b i pc cost gens).WarpOf l b pc where
  gang := rfl
  launch := rfl
  v := rfl
  p := rfl
  m := rfl
  tok := rfl
  s := by simp only [State.newWarp, Ctx.start]
  ended := rfl
  sr := rfl
  lanes := by simp [State.newWarp, Ctx.start]
  kind := rfl
  block := rfl
  loc := rfl
  width := rfl
  vregs := rfl
  entry := ⟨s, fun j hj => by rw [State.newWarp_lane hj]; exact ⟨rfl, rfl⟩⟩

/-- The start of n warps of a block (R10): its warps and nothing else. -/
theorem State.startWarps_spec (s : State) (l : Launch) (b : Block) (n : Nat) (pc : W64) (cost : Nat) (gens : Nat → Nat) :
    ∃ ws : List Ctx, (s.startWarps l b n pc none cost gens).roster =
        { s.roster with ctxs := s.ctxs ++ ws, nextId := s.nextId + n }
      ∧ ws.length = n ∧ ∀ c ∈ ws, c.WarpOf l b pc := by
  induction n with
  | zero => exact ⟨[], by simp [State.startWarps, State.roster], rfl, by simp⟩
  | succ n ih =>
    obtain ⟨ws, hroster, hlen, hws⟩ := ih
    rw [State.startWarps_succ]
    generalize s.startWarps l b n pc none cost gens = t at hroster ⊢
    refine ⟨ws ++ [t.newWarp l b n pc cost gens], ?_, by simp [hlen], fun c hc => ?_⟩
    · have hctxs : t.ctxs = s.ctxs ++ ws := congrArg Roster.ctxs hroster
      have hid : t.nextId = s.nextId + n := congrArg Roster.nextId hroster
      calc _ = { t.roster with ctxs := t.ctxs ++ [t.newWarp l b n pc cost gens], nextId := t.nextId + 1 } := rfl
        _ = _ := by rw [hroster, hctxs, hid, List.append_assoc]; rfl
    · rcases List.mem_append.mp hc with hc | hc
      · exact hws c hc
      · obtain rfl := List.mem_singleton.mp hc
        exact t.newWarp_warpOf ..

/-! A block (R10, R384). -/

/-- A block as `startBlock` starts it. -/
def State.newBlock (s : State) (l : Launch) (gid idx : Nat) (c : Loc) (base : Nat) (relaunched : Bool) : Block :=
  { id := s.nextId, launch := l.id, gang := gid, index := idx, loc := c, base := base, size := l.record.spBytes
    succSlot := none, child := false, holds := l.record.hasSeq, gen := 0, relaunched := relaunched, killed := false
    saved := none, cost := s.weight l.record.energy * l.record.warps, slotCtx := none, stat := SlotStat.reset }

/-- A block starts in two parts: its place is made ready, where it alone is added; then its cost is charged and its warps start. -/
theorem State.startBlock_eq (s : State) (l : Launch) (gid lin idx : Nat) (c : Loc) (base : Nat) (relaunched : Bool) :
    ∃ u : State, u.roster = { s.roster with nextId := s.nextId + 1, blocks := s.blocks ++ [s.newBlock l gid idx c base relaunched] }
      ∧ s.startBlock l gid lin idx c base relaunched =
        (u.charge (clusterKey c) (s.weight l.record.energy * l.record.warps) 0).startWarps l (s.newBlock l gid idx c base relaunched)
          l.record.warps (BitVec.ofNat 64 l.record.lane) none (s.weight l.record.energy) fun _ => 0 := by
  refine ⟨_, ?_, rfl⟩
  refine State.roster_ite ?_ ((State.takeBank_roster ..).trans ?_) <;>
    exact State.roster_ite ((State.clearTiles_roster ..).trans (State.zeroArea_roster ..)) (State.zeroArea_roster ..)

/-- What charging an island leaves in the registers depends on the registers alone. -/
theorem State.charge_regs_congr {s t : State} (h : s.regs = t.regs) (ck plus minus : Nat) :
    (s.charge ck plus minus).regs = (t.charge ck plus minus).regs := by
  simp [State.charge, State.reg, h]

/-- The start of a block: the block, its warps, its cost on the island, and nothing else. -/
theorem State.startBlock_spec (s : State) (l : Launch) (gid lin idx : Nat) (c : Loc) (base : Nat) (relaunched : Bool) :
    ∃ ws : List Ctx, (s.startBlock l gid lin idx c base relaunched).roster =
        { s.roster with
          blocks := s.blocks ++ [s.newBlock l gid idx c base relaunched], ctxs := s.ctxs ++ ws
          nextId := s.nextId + 1 + l.record.warps
          regs := (s.charge (clusterKey c) (s.weight l.record.energy * l.record.warps) 0).regs }
      ∧ ws.length = l.record.warps
      ∧ ∀ x ∈ ws, x.WarpOf l (s.newBlock l gid idx c base relaunched) (BitVec.ofNat 64 l.record.lane) := by
  obtain ⟨u, hu, heq⟩ := s.startBlock_eq l gid lin idx c base relaunched
  rw [heq]
  obtain ⟨ws, hroster, hlen, hws⟩ := State.startWarps_spec (u.charge (clusterKey c) (s.weight l.record.energy * l.record.warps) 0) l
    (s.newBlock l gid idx c base relaunched) l.record.warps (BitVec.ofNat 64 l.record.lane) (s.weight l.record.energy) fun _ => 0
  refine ⟨ws, ?_, hlen, hws⟩
  rw [hroster]
  have hregs := State.charge_regs_congr (congrArg Roster.regs hu : u.regs = s.regs) (clusterKey c)
    (s.weight l.record.energy * l.record.warps) 0
  have hctxs : u.ctxs = s.ctxs := congrArg Roster.ctxs hu
  have hid : u.nextId = s.nextId + 1 := congrArg Roster.nextId hu
  calc _ = { u.roster with
              ctxs := u.ctxs ++ ws, nextId := u.nextId + l.record.warps
              regs := (u.charge (clusterKey c) (s.weight l.record.energy * l.record.warps) 0).regs } := rfl
    _ = _ := by
      rw [hregs, hu, hctxs, hid]

end Sys2Proof.Machine
end

section
/-! PROOFS. What `startGang` leaves: the blocks of a gang with their warps, its sequencer context, its launch. -/

namespace Sys2Proof.Machine

/-! The blocks of a gang. -/

/-- The warps of a block among some contexts. -/
def blockWarps (b : Block) (cs : List Ctx) : List Ctx := cs.filter fun c => c.kind == .lane && c.block == b.id

theorem blockWarps_append (b : Block) (cs ds : List Ctx) : blockWarps b (cs ++ ds) = blockWarps b cs ++ blockWarps b ds :=
  List.filter_append ..

/-- The warps that a block starts with are its own. -/
theorem blockWarps_own {l : Launch} {b : Block} {pc : W64} {ws : List Ctx} (h : ∀ c ∈ ws, c.WarpOf l b pc) : blockWarps b ws = ws :=
  List.filter_eq_self.mpr fun c hc => by simp [(h c hc).kind, (h c hc).block]

/-- Contexts none of which is of a block hold none of its warps. -/
theorem blockWarps_eq_nil {b : Block} {cs : List Ctx} (h : ∀ c ∈ cs, c.kind = .lane → c.block ≠ b.id) : blockWarps b cs = [] :=
  List.filter_eq_nil_iff.mpr fun c hc => by simpa using h c hc

/-- The blocks bs and contexts cs that a gang of a launch starts for some places (index, core, base), with ids from `first` on. -/
structure GangStart (l : Launch) (gid first : Nat) (ps : List (Nat × Loc × Nat)) (bs : List Block) (cs : List Ctx) : Prop where
  length : bs.length = ps.length
  id_ge : ∀ b ∈ bs, first ≤ b.id
  block : ∀ (i : Nat) (b : Block) (p : Nat × Loc × Nat), bs[i]? = some b → ps[i]? = some p →
    ∃ u : State, b = u.newBlock l gid p.1 p.2.1 p.2.2 false
  warps : ∀ b ∈ bs, (blockWarps b cs).length = l.record.warps
  warp : ∀ c ∈ cs, ∃ b ∈ bs, b.gang = gid ∧ c.WarpOf l b (BitVec.ofNat 64 l.record.lane)

theorem GangStart.nil (l : Launch) (gid first : Nat) : GangStart l gid first [] [] [] where
  length := rfl
  id_ge := by simp
  block := by simp
  warps := by simp
  warp := by simp

/-- A block started before others, with ids below theirs. -/
theorem GangStart.cons {l : Launch} {gid first : Nat} {p : Nat × Loc × Nat} {ps : List (Nat × Loc × Nat)} {bs : List Block} {cs ws : List Ctx}
    {s : State} (h : GangStart l gid first ps bs cs) (hfirst : s.nextId < first) (hlen : ws.length = l.record.warps)
    (hws : ∀ c ∈ ws, c.WarpOf l (s.newBlock l gid p.1 p.2.1 p.2.2 false) (BitVec.ofNat 64 l.record.lane)) :
    GangStart l gid s.nextId (p :: ps) (s.newBlock l gid p.1 p.2.1 p.2.2 false :: bs) (ws ++ cs) where
  length := by simp [h.length]
  id_ge := by
    rintro b (_ | ⟨_, hb⟩)
    · exact Nat.le_refl _
    · have := h.id_ge b hb; omega
  block := by
    rintro (_ | i) b q hb hq
    · cases hb; cases hq; exact ⟨s, rfl⟩
    · exact h.block i b q hb hq
  warps := by
    rintro b (_ | ⟨_, hb⟩)
    · have hcs : blockWarps (s.newBlock l gid p.1 p.2.1 p.2.2 false) cs = [] := blockWarps_eq_nil fun c hc _ he => by
        obtain ⟨b, hb, -, hw⟩ := h.warp c hc
        have hge := h.id_ge b hb
        have hid : b.id = s.nextId := hw.block.symm.trans he
        omega
      rw [blockWarps_append, blockWarps_own hws, hcs, List.append_nil, hlen]
    · have hge := h.id_ge b hb
      have hnil : blockWarps b ws = [] := blockWarps_eq_nil fun c hc _ he => by
        have hid : s.nextId = b.id := (hws c hc).block.symm.trans he
        omega
      rw [blockWarps_append, hnil, List.nil_append, h.warps b hb]
  warp := by
    intro c hc
    rcases List.mem_append.mp hc with hc | hc
    · exact ⟨_, List.mem_cons_self, rfl, hws c hc⟩
    · obtain ⟨b, hb, hw⟩ := h.warp c hc
      exact ⟨b, List.mem_cons_of_mem _ hb, hw⟩

/-- The blocks of a gang started at some places, one after the other. -/
def State.startBlocks (s : State) (l : Launch) (gid lin : Nat) (ps : List (Nat × Loc × Nat)) : State :=
  ps.foldl (fun s p => s.startBlock l gid lin p.1 p.2.1 p.2.2 false) s

/-- The start of the blocks of a gang adds them and their warps, and places nothing else. -/
theorem State.startBlocks_spec (s : State) (l : Launch) (gid lin : Nat) (ps : List (Nat × Loc × Nat)) :
    ∃ (bs : List Block) (cs : List Ctx), GangStart l gid s.nextId ps bs cs
      ∧ (s.startBlocks l gid lin ps).launches = s.launches ∧ (s.startBlocks l gid lin ps).gangs = s.gangs
      ∧ (s.startBlocks l gid lin ps).blocks = s.blocks ++ bs ∧ (s.startBlocks l gid lin ps).ctxs = s.ctxs ++ cs := by
  induction ps generalizing s with
  | nil => exact ⟨[], [], .nil l gid _, rfl, rfl, (List.append_nil _).symm, (List.append_nil _).symm⟩
  | cons p ps ih =>
    obtain ⟨ws, hroster, hlen, hws⟩ := s.startBlock_spec l gid lin p.1 p.2.1 p.2.2 false
    have hstep : s.startBlocks l gid lin (p :: ps) = (s.startBlock l gid lin p.1 p.2.1 p.2.2 false).startBlocks l gid lin ps := rfl
    rw [hstep]
    generalize s.startBlock l gid lin p.1 p.2.1 p.2.2 false = t at hroster ⊢
    obtain ⟨bs, cs, hstart, hlaunches, hgangs, hblocks, hctxs⟩ := ih t
    have hid : t.nextId = s.nextId + 1 + l.record.warps := congrArg Roster.nextId hroster
    have hb : t.blocks = s.blocks ++ [s.newBlock l gid p.1 p.2.1 p.2.2 false] := congrArg Roster.blocks hroster
    have hc : t.ctxs = s.ctxs ++ ws := congrArg Roster.ctxs hroster
    refine ⟨_ :: bs, ws ++ cs, hstart.cons (s := s) (by omega) hlen hws, ?_, ?_, ?_, ?_⟩
    · exact hlaunches.trans (congrArg Roster.launches hroster)
    · exact hgangs.trans (congrArg Roster.gangs hroster)
    · rw [hblocks, hb, List.append_assoc]; rfl
    · rw [hctxs, hc, List.append_assoc]

/-! A gang. -/

/-- A gang as `startGang` starts it. -/
def newGang (l : Launch) (lin ck gid : Nat) : Gang :=
  { id := gid, launch := l.id, linear := lin, die := ck / 8, cluster := ck % 8
    seqCtx := if l.record.hasSeq then some (gid + 1) else none, order := gid, saved := false, image := 0 }

/-- The places of a gang's blocks with their indices. -/
def indexed (ps : List (Loc × Nat)) : List (Nat × Loc × Nat) := (List.range ps.length).zip ps

theorem indexed_getElem? {ps : List (Loc × Nat)} {i : Nat} {p : Loc × Nat} (h : ps[i]? = some p) : (indexed ps)[i]? = some (i, p) := by
  obtain ⟨hlt, rfl⟩ := List.getElem?_eq_some_iff.mp h
  simp [indexed, hlt]

@[simp] theorem indexed_length (ps : List (Loc × Nat)) : (indexed ps).length = ps.length := by simp [indexed]

/-- A sequencer context as `startGang` starts it, with the number it takes. -/
def State.newSequencer (s : State) (l : Launch) (gid ck no : Nat) : Ctx :=
  { Ctx.start (gid + 1) .seq l gid 0 0 ⟨ck / 8, ck % 8, 24⟩ no 1
      (s.pastPads ⟨ck / 8, ck % 8, 24⟩ (l.record.entry l.record.seqOff)) with behind := gid + 1 }

theorem State.newSequencer_sequencerOf (s : State) {l : Launch} (gid ck no : Nat) (hseq : l.record.hasSeq = true) :
    (s.newSequencer l gid ck no).SequencerOf l gid ck where
  gang := rfl
  launch := rfl
  v := rfl
  p := rfl
  m := rfl
  tok := rfl
  s := by simp only [State.newSequencer, Ctx.start]
  ended := rfl
  sr := rfl
  lanes := rfl
  kind := rfl
  declared := hseq
  width := rfl
  loc := rfl
  entry := ⟨s, rfl⟩
  runnable := rfl

/-- Contexts put in place of a state's own. -/
theorem State.roster_withCtxs {u v : State} (h : u.roster = v.roster) (cs : List Ctx) :
    ({ u with ctxs := cs } : State).roster = { v.roster with ctxs := cs } :=
  congrArg (fun r : Roster => { r with ctxs := cs }) h

/-- A gang starts in three parts: its launch is admitted, where that is the first time; the gang is added, with a sequencer context
where its launch declares one; then its blocks start, and the launch moves on to its next gang. -/
theorem State.startGang_eq (s : State) (l : Launch) (lin ck : Nat) (ps : List (Loc × Nat)) :
    ∃ (u : State) (seqs : List Ctx),
      u.roster = { (s.firstAdmission l).roster with
        gangs := (s.firstAdmission l).gangs ++ [newGang l lin ck (s.firstAdmission l).nextId]
        ctxs := (s.firstAdmission l).ctxs ++ seqs, nextId := (s.firstAdmission l).nextId + 2 }
      ∧ seqs.length = (if l.record.hasSeq = true then 1 else 0)
      ∧ (∀ c ∈ seqs, c.SequencerOf l (s.firstAdmission l).nextId ck)
      ∧ s.startGang l lin ck ps = (u.startBlocks l (s.firstAdmission l).nextId lin (indexed ps)).updLaunch l.id fun x =>
          { x with nextGang := lin + 1 } := by
  let s0 := s.firstAdmission l
  let s1 : State := { s0 with gangs := s0.gangs ++ [newGang l lin ck s0.nextId], nextId := s0.nextId + 2 }
  by_cases hseq : l.record.hasSeq = true
  · refine ⟨_, [s.newSequencer l s0.nextId ck ((s1.freeSeq ck).getD 0)], ?_, by simp [hseq], ?_, rfl⟩
    · refine (congrArg State.roster (if_pos hseq)).trans (State.roster_withCtxs (v := s1) ?_ _)
      exact State.roster_ite (State.zeroArea_roster ..) ((State.takeBank_roster ..).trans (State.zeroArea_roster ..))
    · intro c hc
      obtain rfl := List.mem_singleton.mp hc
      exact s.newSequencer_sequencerOf _ _ _ hseq
  · refine ⟨_, [], ?_, by simp [hseq], by simp, rfl⟩
    rw [List.append_nil]
    exact congrArg State.roster (if_neg hseq)

end Sys2Proof.Machine
end

section
/-! PROOFS. What the start of a gang leaves of the machine, of its launch and of its island's USED (18_launch.md R384). -/

namespace Sys2Proof.Machine

/-- The first admission of a launch starts no gang, block or context. -/
theorem State.firstAdmission_placed (s : State) (l : Launch) :
    (s.firstAdmission l).gangs = s.gangs ∧ (s.firstAdmission l).blocks = s.blocks ∧ (s.firstAdmission l).ctxs = s.ctxs := by
  cases hs : l.started with
  | true => simp [State.firstAdmission_started hs]
  | false =>
    obtain ⟨u, lost, hu, heq⟩ := State.firstAdmission_unstarted (s := s) hs
    rw [heq]
    exact ⟨congrArg Roster.gangs hu, congrArg Roster.blocks hu, congrArg Roster.ctxs hu⟩

/-- The start of a gang adds the gang, its blocks with their warps, and a sequencer context where its launch declares one. -/
theorem State.startGang_placed (s : State) (l : Launch) (lin ck : Nat) (ps : List (Loc × Nat)) :
    ∃ (gid first : Nat) (bs : List Block) (ws seqs : List Ctx),
      (s.startGang l lin ck ps).gangs = s.gangs ++ [newGang l lin ck gid]
      ∧ (s.startGang l lin ck ps).blocks = s.blocks ++ bs
      ∧ (s.startGang l lin ck ps).ctxs = s.ctxs ++ (seqs ++ ws)
      ∧ GangStart l gid first (indexed ps) bs ws
      ∧ seqs.length = (if l.record.hasSeq = true then 1 else 0) ∧ ∀ c ∈ seqs, c.SequencerOf l gid ck := by
  obtain ⟨u, seqs, hroster, hlen, hseqs, heq⟩ := s.startGang_eq l lin ck ps
  obtain ⟨bs, ws, hstart, -, hgangs, hblocks, hctxs⟩ := u.startBlocks_spec l (s.firstAdmission l).nextId lin (indexed ps)
  obtain ⟨hg, hb, hc⟩ := s.firstAdmission_placed l
  have hug : u.gangs = (s.firstAdmission l).gangs ++ [newGang l lin ck (s.firstAdmission l).nextId] := congrArg Roster.gangs hroster
  have hub : u.blocks = (s.firstAdmission l).blocks := congrArg Roster.blocks hroster
  have huc : u.ctxs = (s.firstAdmission l).ctxs ++ seqs := congrArg Roster.ctxs hroster
  rw [heq]
  refine ⟨_, _, bs, ws, seqs, ?_, ?_, ?_, hstart, hlen, hseqs⟩
  · rw [State.updLaunch_gangs, hgangs, hug, hg]
  · rw [State.updLaunch_blocks, hblocks, hub, hb]
  · rw [State.updLaunch_ctxs, hctxs, huc, hc, List.append_assoc]

/-- The warps of a block of a new gang among all its contexts. -/
theorem GangStart.warps_of_all {l : Launch} {gid first ck : Nat} {ps : List (Nat × Loc × Nat)} {bs : List Block} {ws seqs : List Ctx}
    {b : Block} (h : GangStart l gid first ps bs ws) (hseqs : ∀ c ∈ seqs, c.SequencerOf l gid ck) (hb : b ∈ bs) :
    (blockWarps b (seqs ++ ws)).length = l.record.warps := by
  have hnil : blockWarps b seqs = [] := blockWarps_eq_nil fun c hc hk => by
    rw [(hseqs c hc).kind] at hk
    cases hk
  rw [blockWarps_append, hnil, List.nil_append, h.warps b hb]

/-- The sequencer contexts among all the contexts of a new gang. -/
theorem GangStart.sequencers_of_all {l : Launch} {gid first ck : Nat} {ps : List (Nat × Loc × Nat)} {bs : List Block} {ws seqs : List Ctx}
    (h : GangStart l gid first ps bs ws) (hseqs : ∀ c ∈ seqs, c.SequencerOf l gid ck) :
    (seqs ++ ws).filter (fun c => c.kind == .seq) = seqs := by
  have hall : seqs.filter (fun c => c.kind == .seq) = seqs := List.filter_eq_self.mpr fun c hc => by simp [(hseqs c hc).kind]
  have hnone : ws.filter (fun c => c.kind == .seq) = [] := List.filter_eq_nil_iff.mpr fun c hc => by
    obtain ⟨b, -, -, hw⟩ := h.warp c hc
    simp [hw.kind]
  rw [List.filter_append, hall, hnone, List.append_nil]

/-! The launch. -/

/-- The first admission of a launch marks it started and changes no launch's id or record. -/
theorem State.firstAdmission_launches (s : State) (l : Launch) :
    ∃ g : Launch → Launch, (s.firstAdmission l).launches = s.launches.map g
      ∧ ∀ x, (g x).id = x.id ∧ (g x).record = x.record ∧ (x.id = l.id → l.started = x.started → (g x).started = true) := by
  cases hs : l.started with
  | true => exact ⟨id, by simp [State.firstAdmission_started hs], fun x => ⟨rfl, rfl, fun _ h => h.symm⟩⟩
  | false =>
    obtain ⟨u, lost, hu, heq⟩ := State.firstAdmission_unstarted (s := s) hs
    have hl : u.launches = s.launches := congrArg Roster.launches hu
    rw [heq, State.updLaunch_launches, hl]
    refine ⟨_, rfl, fun x => ?_⟩
    by_cases hx : x.id = l.id <;> simp [hx]

/-- The start of a gang moves its launch on to the next one, started, and changes no launch's id or record. -/
theorem State.startGang_launches (s : State) (l : Launch) (lin ck : Nat) (ps : List (Loc × Nat)) :
    ∃ g : Launch → Launch, (s.startGang l lin ck ps).launches = s.launches.map g
      ∧ ∀ x, (g x).id = x.id ∧ (g x).record = x.record
        ∧ (x.id = l.id → (g x).nextGang = lin + 1 ∧ (l.started = x.started → (g x).started = true)) := by
  obtain ⟨u, seqs, hroster, -, -, heq⟩ := s.startGang_eq l lin ck ps
  obtain ⟨bs, ws, -, hlaunches, -⟩ := u.startBlocks_spec l (s.firstAdmission l).nextId lin (indexed ps)
  obtain ⟨g, hg, hfirst⟩ := s.firstAdmission_launches l
  have hu : u.launches = s.launches.map g := (congrArg Roster.launches hroster).trans hg
  rw [heq, State.updLaunch_launches, hlaunches, hu, updWhere, List.map_map]
  refine ⟨_, rfl, fun x => ?_⟩
  obtain ⟨hid, hrec, hst⟩ := hfirst x
  by_cases hx : x.id = l.id
  · simpa [hid, hrec, hx] using hst hx
  · simp [hid, hrec, hx]

/-! Tables whose keys rise, whatever their defaults: the registers. -/

section tables
variable {α : Type}

theorem Table.above_iff {k : Nat} {t : List (Nat × α)} : Table.above k t = true ↔ ∀ j ∈ t.map Prod.fst, k < j := by
  simp [Table.above]

variable [DecidableEq α]

/-- A write at another key is not seen. -/
theorem Table.get_set_of_ne {k q : Nat} (hq : q ≠ k) (x d e : α) (t : List (Nat × α)) :
    Table.get (Table.set t k x d) q e = Table.get t q e := by
  have hk : k ≠ q := hq.symm
  induction t with
  | nil => unfold Table.set; split <;> simp [hk]
  | cons p r ih =>
    obtain ⟨j, y⟩ := p
    unfold Table.set
    split
    · simp [ih]
    · split
      · rename_i hj
        split <;> simp [hj, hk]
      · split <;> simp [hk]

/-- A write is read back where the keys rise. -/
theorem Table.get_set_self_of_rising {k : Nat} {x d : α} {t : List (Nat × α)} (h : (t.map Prod.fst).Pairwise (· < ·)) :
    Table.get (Table.set t k x d) k d = x := by
  induction t with
  | nil => unfold Table.set; split <;> simp_all
  | cons p r ih =>
    obtain ⟨j, y⟩ := p
    obtain ⟨habove, hr⟩ := List.pairwise_cons.mp h
    have habove := Table.above_iff.mpr habove
    unfold Table.set
    split
    · rename_i hj
      simp [show j ≠ k by omega, ih hr]
    · split
      · rename_i hj
        subst hj
        split <;> simp_all [Table.get_of_above habove]
      · rename_i hlt hne
        split <;> simp_all [Table.get_of_above (Table.above_mono habove (by omega : k ≤ j))]

/-- A write keeps the keys rising. -/
theorem Table.rising_set {k : Nat} {x d : α} {t : List (Nat × α)} (h : (t.map Prod.fst).Pairwise (· < ·)) :
    ((Table.set t k x d).map Prod.fst).Pairwise (· < ·) := by
  induction t with
  | nil => unfold Table.set; split <;> simp
  | cons p r ih =>
    obtain ⟨j, y⟩ := p
    obtain ⟨habove, hr⟩ := List.pairwise_cons.mp h
    unfold Table.set
    split
    · rename_i hj
      exact List.pairwise_cons.mpr ⟨Table.above_iff.mp (Table.above_set (Table.above_iff.mpr habove) hj), ih hr⟩
    · split
      · rename_i hj
        subst hj
        split
        · exact hr
        · exact h
      · split
        · exact h
        · refine List.pairwise_cons.mpr ⟨fun i hi => ?_, h⟩
          rcases List.mem_cons.mp hi with hi | hi
          · have : i = j := hi
            omega
          · have : j < i := habove i hi
            omega

end tables

/-! Energy (R384). -/

/-- The registers' keys rise. -/
def State.RegsRise (s : State) : Prop := (s.regs.map Prod.fst).Pairwise (· < ·)

theorem State.charge_regsRise {s : State} (h : s.RegsRise) (ck plus minus : Nat) : (s.charge ck plus minus).RegsRise :=
  Table.rising_set h

/-- A charge is seen in USED of its island, as far as it holds it. -/
theorem State.charge_used {s : State} (h : s.RegsRise) {ck plus : Nat} (hmax : s.used ck + plus < 2 ^ 32) :
    (s.charge ck plus 0).used ck = s.used ck + plus := by
  have hreg : (s.charge ck plus 0).reg 0 (0x140D00 + 8 * ck) =
      BitVec.ofNat 64 (bits (s.reg 0 (0x140D00 + 8 * ck)) 31 0 + 2 ^ 32 * (s.used ck + plus)) :=
    Table.get_set_self_of_rising h
  have hlow : bits (s.reg 0 (0x140D00 + 8 * ck)) 31 0 < 2 ^ 32 := Nat.mod_lt _ (by decide)
  generalize s.used ck + plus = n at hreg hmax ⊢
  generalize bits (s.reg 0 (0x140D00 + 8 * ck)) 31 0 = low at hreg hlow
  rw [State.used, hreg, bits, nbits, BitVec.toNat_ofNat, Nat.shiftRight_eq_div_pow]
  omega

/-- A charge leaves the weights of the energy classes. -/
theorem State.charge_weight (s : State) (ck plus minus e : Nat) (he : e < 8) : (s.charge ck plus minus).weight e = s.weight e := by
  have hreg : (s.charge ck plus minus).reg 0 (0x140C00 + 8 * (e / 4)) = s.reg 0 (0x140C00 + 8 * (e / 4)) :=
    Table.get_set_of_ne (by omega) ..
  simp only [State.weight, hreg]

/-- The start of the blocks of a gang on one cluster charges its island for each. -/
theorem State.startBlocks_used {s : State} {l : Launch} {ck : Nat} (gid lin : Nat) {ps : List (Nat × Loc × Nat)} (he : l.record.energy < 8)
    (hrise : s.RegsRise) (hck : ∀ p ∈ ps, clusterKey p.2.1 = ck)
    (hmax : s.used ck + ps.length * (s.weight l.record.energy * l.record.warps) < 2 ^ 32) :
    (s.startBlocks l gid lin ps).used ck = s.used ck + ps.length * (s.weight l.record.energy * l.record.warps) := by
  induction ps generalizing s with
  | nil => simp [State.startBlocks]
  | cons p ps ih =>
    obtain ⟨ws, hroster, -, -⟩ := s.startBlock_spec l gid lin p.1 p.2.1 p.2.2 false
    have hstep : s.startBlocks l gid lin (p :: ps) = (s.startBlock l gid lin p.1 p.2.1 p.2.2 false).startBlocks l gid lin ps := rfl
    rw [hstep]
    generalize s.startBlock l gid lin p.1 p.2.1 p.2.2 false = t at hroster ⊢
    rw [hck p List.mem_cons_self] at hroster
    rw [List.length_cons, Nat.succ_mul] at hmax ⊢
    generalize hcost : s.weight l.record.energy * l.record.warps = cost at hroster hmax ⊢
    have hregs : t.regs = (s.charge ck cost 0).regs := congrArg Roster.regs hroster
    have hused : t.used ck = s.used ck + cost := by
      rw [← State.charge_used hrise (by omega : s.used ck + cost < 2 ^ 32)]
      simp only [State.used, State.reg, hregs]
    have hweight : t.weight l.record.energy * l.record.warps = cost := by
      rw [← hcost, ← s.charge_weight ck cost 0 _ he]
      simp only [State.weight, State.reg, hregs]
    have ht : t.RegsRise := by
      rw [State.RegsRise, hregs]
      exact State.charge_regsRise hrise ck cost 0
    have := ih ht (fun q hq => hck q (List.mem_cons_of_mem _ hq)) (by rw [hused, hweight]; omega)
    rw [this, hused, hweight]
    omega

/-- The start of a gang of a launch that was started before charges its island for each of its blocks. -/
theorem State.startGang_used {s : State} {l : Launch} {lin ck : Nat} {ps : List (Loc × Nat)} (hs : l.started = true) (he : l.record.energy < 8)
    (hrise : s.RegsRise) (hck : ∀ p ∈ ps, clusterKey p.1 = ck)
    (hmax : s.used ck + ps.length * (s.weight l.record.energy * l.record.warps) < 2 ^ 32) :
    (s.startGang l lin ck ps).used ck = s.used ck + ps.length * (s.weight l.record.energy * l.record.warps) := by
  obtain ⟨u, seqs, hroster, -, -, heq⟩ := s.startGang_eq l lin ck ps
  rw [State.firstAdmission_started hs] at hroster heq
  have hregs : u.regs = s.regs := congrArg Roster.regs hroster
  have hused : u.used ck = s.used ck := by simp only [State.used, State.reg, hregs]
  have hweight : u.weight l.record.energy = s.weight l.record.energy := by simp only [State.weight, State.reg, hregs]
  have hplaces : ∀ p ∈ indexed ps, clusterKey p.2.1 = ck := fun p hp => hck p.2 (List.of_mem_zip hp).2
  have hblocks := State.startBlocks_used (s := u) s.nextId lin he (by rw [State.RegsRise, hregs]; exact hrise) hplaces
    (by rw [hused, hweight, indexed_length]; exact hmax)
  rw [hused, hweight, indexed_length] at hblocks
  rw [heq]
  exact hblocks

end Sys2Proof.Machine
end

section
/-! PROOFS. Evaluations of the Hearth (18_launch.md R381) of a machine that runs nothing, and the statement on the Hearth's events from
the parts before. -/

namespace Sys2Proof.Machine

/-! Evaluations. -/

/-- A machine on which no gang, block, context or formed warp stands. -/
structure State.Vacant (s : State) : Prop where
  gangs : s.gangs = []
  blocks : s.blocks = []
  ctxs : s.ctxs = []
  formed : ∀ k, (s.cluster k).formed = []

/-- Such a machine has no warps to place or restore. -/
theorem State.Vacant.admitWarps {s : State} (h : s.Vacant) (ck : Nat) (pref : List Nat) : s.admitWarps ck pref = s := by
  simp [State.admitWarps, h.ctxs, h.formed]

/-- Nor gangs. -/
theorem State.Vacant.restoreGangs {s : State} (h : s.Vacant) (ls : List Launch) : s.restoreGangs ls = s := by
  refine List.foldlRecOn (motive := fun t => t = s) ls _ rfl fun t ht l _ => ?_
  simp [ht, h.gangs]

/-- So an evaluation admits gangs alone. -/
theorem State.Vacant.admitNow {s : State} (h : s.Vacant) (pref : List Nat) :
    s.sweep.admitNow pref = s.admitAll s.ranked pref (s.clusterOrder pref) := by
  have hsweep : s.sweep = s := by simp [State.sweep, h.blocks, h.gangs]
  have hwarps : s.clusterKeys.foldl (fun s ck => s.admitWarps ck pref) s = s :=
    List.foldlRecOn (motive := fun t => t = s) _ _ rfl fun t ht ck _ => by rw [ht, h.admitWarps]
  simp only [hsweep, State.admitNow, hwarps, h.restoreGangs]

/-- Nothing is pre-empted where no launch may be admitted. -/
theorem State.preemptAll_none {s : State} {ls : List Launch} (h : ∀ x ∈ ls, ∀ y, s.launch? x.id = some y → s.mayAdmit y = false)
    (pref cks : List Nat) : s.preemptAll ls pref cks = s := by
  induction ls generalizing cks with
  | nil => rfl
  | cons x r ih =>
    have hrest := ih fun z hz => h z (List.mem_cons_of_mem _ hz)
    unfold State.preemptAll
    cases hy : s.launch? x.id with
    | none => simp only; exact hrest _
    | some y =>
      have hrisk : s.atRisk y = false := by simp [State.atRisk, h x List.mem_cons_self y hy]
      simp only [hrisk, Bool.false_and, Bool.false_eq_true, if_false]
      exact hrest _

/-- An evaluation with no launch changes nothing. -/
theorem State.evaluate_idle {s : State} (h : s.Vacant) (hl : s.launches = []) (pref : List Nat) : s.evaluate pref = s := by
  have hr : s.ranked = [] := by simp [State.ranked, hl]
  have hnow : s.sweep.admitNow pref = s := by rw [h.admitNow, hr]; rfl
  rw [State.evaluate, hnow, hr]
  rfl

/-- The launch of one gang that fits is admitted with it, concurrent or not. -/
theorem State.admitLaunch_one {s : State} {l : Launch} {pref cks : List Nat} {ck : Nat} {ps : List (Loc × Nat)} (hl : s.launches = [l])
    (hg : l.record.gangs = 1) (hn : l.nextGang = 0) (hm : s.mayAdmit l = true) (hf : s.findGang l 0 pref cks = some (ck, ps)) :
    s.admitLaunch l pref cks = (s.startGang l 0 ck ps, []) := by
  have hfind : s.launch? l.id = some l := by simp [State.launch?, hl]
  have hgangs : s.admitGangs l.id pref cks l.record.gangs = s.startGang l 0 ck ps := by
    simp [hg, State.admitGangs, hfind, hm, hn, hf]
  obtain ⟨g, hmap, hspec⟩ := s.startGang_launches l 0 ck ps
  obtain ⟨hid, hrec, hnext⟩ := hspec l
  have hwhole : ((s.startGang l 0 ck ps).launch? l.id).any (fun x => x.nextGang == x.record.gangs) = true := by
    simp [State.launch?, hmap, hl, hid, hrec, hg, (hnext rfl).1]
  simp [State.admitLaunch, hm, State.admitWhole, hgangs, hwhole]

/-- An evaluation with one launch, whose one gang fits, starts that gang. -/
theorem State.evaluate_one {s : State} {l : Launch} {pref : List Nat} {ck : Nat} {ps : List (Loc × Nat)} (h : s.Vacant)
    (hl : s.launches = [l]) (hg : l.record.gangs = 1) (hn : l.nextGang = 0) (hm : s.mayAdmit l = true)
    (hf : s.findGang l 0 pref (s.clusterOrder pref) = some (ck, ps)) : s.evaluate pref = s.startGang l 0 ck ps := by
  have hr : s.ranked = [l] := by simp [State.ranked, hl, insertRank]
  have hnow : s.sweep.admitNow pref = s.startGang l 0 ck ps := by
    rw [h.admitNow, hr]
    simp [State.admitAll, State.admitLaunch_one hl hg hn hm hf]
  rw [State.evaluate, hnow]
  refine State.preemptAll_none (fun x _ y hy => ?_) pref _
  obtain ⟨g, hmap, hspec⟩ := s.startGang_launches l 0 ck ps
  obtain ⟨-, hrec, hnext⟩ := hspec l
  have hy : y = g l := by
    have := List.mem_of_find?_eq_some hy
    rwa [hmap, hl, List.map_singleton, List.mem_singleton] at this
  simp [hy, State.mayAdmit, hrec, hg, (hnext rfl).1]

/-- Settles O59: each event from what its arm gives where it is possible, the gang's place from `findGang_some` and `admits_room`, its
start from `startGang_placed`, `startGang_launches` and `startGang_used`. -/
theorem hearthEvents : Obligations.HearthEvents := by
  unfold Obligations.HearthEvents
  refine ⟨?append, ?qctl, ?copy, ?evaluate, ?fits, ?room, ?gang, ?complete, ?release, ?time, ?cancel, ?key, ?words⟩
  case append =>
    intro q st record hq hl
    refine ⟨happens_of_event (fun _ => rfl) fun s h => ?_, happens_of_event (fun _ => rfl) fun s h => ?_⟩
    · obtain ⟨⟨hfault, htail, hplace⟩, hperm, hmay⟩ := h
      exact State.appendRecord_admitted hq hl hplace hfault htail hperm hmay
    · obtain ⟨⟨-, -, hplace⟩, hperm, hmay⟩ := h
      exact State.appendRecord_denied hq hl hplace hperm hmay
  case qctl =>
    intro q value hq
    have hx : ∀ s, exec (.qctlWrite q value) s = event s (some (s.byFirmware 0 (qReg q 1) (s.qctlWrite q value))) :=
      fun s => congrArg (event s) (if_pos hq)
    exact ⟨firmware_of_event hx fun s h => State.qctlWrite_disabled value h, firmware_of_event hx fun s h => State.qctlWrite_enabled value h⟩
  case copy =>
    intro q hq
    refine happens_of_event (fun _ => rfl) fun s h => ?_
    obtain ⟨he, hne, hroom, hnew, hbad, href⟩ := h
    exact (State.launchCopy_sound hq he hne hroom hnew hbad).trans (congrArg some (State.takeRecord_active (s := s.setReg ..) href))
  case evaluate =>
    intro place
    refine ⟨happens_of_event (fun _ => rfl) fun s _ => rfl, fun s hl hg hb hc hf => State.evaluate_idle ⟨hg, hb, hc, hf⟩ hl place, ?_⟩
    intro s l ck ps hl hg hb hc hf hone hnext hmay hfind
    exact State.evaluate_one ⟨hg, hb, hc, hf⟩ hl hone hnext hmay hfind
  case fits =>
    intro s l lin ck pref cks ps h
    obtain ⟨hck, hseq, hnodup, hall⟩ := State.findGang_some h
    exact ⟨hck, by simpa using hall.length_eq.symm, hnodup, hseq, fun i c b hi => State.picked_getElem? hall hi⟩
  case room =>
    intro s l lin idx b c h
    obtain ⟨hslots, hregs, hend, hfree⟩ := State.admits_room h
    exact ⟨hslots, hregs, hend, (State.admits_some h).2.1, hfree⟩
  case gang =>
    intro s l lin ck ps hown
    obtain ⟨gid, first, bs, ws, seqs, hgangs, hblocks, hctxs, hstart, hseqs, hseq⟩ := s.startGang_placed l lin ck ps
    obtain ⟨g, hmap, hspec⟩ := s.startGang_launches l lin ck ps
    refine ⟨newGang l lin ck gid, bs, seqs ++ ws, hgangs, hblocks, hctxs, ⟨rfl, rfl, rfl, rfl, rfl⟩, ?_, ?_, ?_, ?_, ?_, ?_⟩
    · rw [hstart.length, indexed_length]
    · intro i b p hb hp
      have hwarps := hstart.warps_of_all hseq (List.mem_of_getElem? hb)
      obtain ⟨u, rfl⟩ := hstart.block i b _ hb (indexed_getElem? hp)
      exact ⟨rfl, rfl, rfl, rfl, rfl, rfl, rfl, rfl, rfl, rfl, rfl, hwarps⟩
    · intro c hc
      rcases List.mem_append.mp hc with hc | hc
      · have h := hseq c hc
        exact ⟨h.gang, h.launch, h.v, h.p, h.m, h.tok, h.s, h.ended, h.sr, h.lanes,
          .inl ⟨h.kind, h.declared, h.width, h.loc, h.entry, h.runnable⟩⟩
      · obtain ⟨b, hb, hgang, h⟩ := hstart.warp c hc
        obtain ⟨u, hentry⟩ := h.entry
        exact ⟨h.gang.trans hgang, h.launch, h.v, h.p, h.m, h.tok, h.s, h.ended, h.sr, h.lanes,
          .inr ⟨h.kind, h.width, h.vregs, ⟨b, hb, h.block, h.loc⟩, u, hentry⟩⟩
    · rw [hstart.sequencers_of_all hseq, hseqs]
    · intro x hx hid
      rw [hmap] at hx
      obtain ⟨y, hy, rfl⟩ := List.mem_map.mp hx
      obtain ⟨hyid, -, hnext⟩ := hspec y
      have hyl : y.id = l.id := hyid.symm.trans hid
      exact ⟨(hnext hyl).1, (hnext hyl).2 (by rw [hown y hy hyl])⟩
    · exact fun hs he _ hrise hck hmax => State.startGang_used hs he hrise hck hmax
  case complete =>
    exact fun l => happens_of_event (fun _ => rfl) fun s h => State.launchComplete_over h.1 h.2
  case release =>
    rintro c l rest
    refine happens_of_event (fun _ => rfl) fun s h => ?_
    obtain ⟨hheld, hl, rfl, hroom⟩ := h
    exact State.heldRelease_head hheld hl hroom
  case time =>
    exact fun c hc => happens_of_event (fun _ => rfl) fun s h => by simp [State.chimneyTime, hc, h]
  case cancel =>
    exact fun tag => firmware_of_event (fun _ => rfl) fun s _ => rfl
  case key =>
    exact fun key => firmware_of_event (fun _ => rfl) fun s _ => by simp [State.keyFree]
  case words =>
    exact fun l now h => ⟨l.completion_length now, l.completion_tag now, l.completion_status now h⟩

end Sys2Proof.Machine
end

section
/-! PROOFS. The opcode map read both ways (02_formats.md R37, Table 2.8): the kind that OP, SUB, M and X0 name, and the OP values
that no kind has. -/

namespace Sys2Proof

/-- What besides OP and SUB tells a kind from the others of its OP: bits of M, or of the low byte of X0 (Table 2.8). -/
def Kind.chosen (k : Kind) (m x0 : Nat) : Prop :=
  match k with
  | .cpy => nbits x0 7 7 ≠ 1
  | .cpyRing => nbits x0 7 7 = 1
  | .rrelPub | .vcfg => nbits m 7 7 ≠ 1
  | .rrelPubLast | .vcfgClose => nbits m 7 7 = 1
  | .sctlStat => nbits m 2 0 = 0
  | .sctlDlen => nbits m 2 0 = 1
  | .sctlYlen => nbits m 2 0 = 2
  | .sctlElen => nbits m 2 0 = 3
  | .sctlStop => nbits m 2 0 = 4
  | _ => True

/-- The OP of a kind, with a SUB it lists and the bits that choose it, names that kind. -/
theorem Kind.ofOp_info {k : Kind} {sub m x0 : Nat} (hs : sub ∈ k.info.subs) (hc : k.chosen m x0) :
    Kind.ofOp k.info.op sub m x0 = .ok k := by
  cases k
  case iadd | isub | imul | imad | icmp | vote | shfl | qswap | redux | scan | fmin | fmax | fcmp | ld | st | ldu | stu | fence | tkarr
      | pbarr | atom | red | fatom | fred | atomu | mma | mmas | ratom => rfl
  case cpy | vcfg => exact if_neg (by simpa [Kind.chosen] using hc)
  case cpyRing | vcfgClose => exact if_pos (by simpa [Kind.chosen] using hc)
  case rrelPub =>
    obtain rfl := List.mem_singleton.mp hs
    exact if_neg (by simpa [Kind.chosen] using hc)
  case rrelPubLast =>
    obtain rfl := List.mem_singleton.mp hs
    exact if_pos (by simpa [Kind.chosen] using hc)
  case sctlStat | sctlDlen | sctlYlen | sctlElen | sctlStop =>
    conv => lhs; whnf
    rw [show nbits m 2 0 = _ from hc]
    rfl
  all_goals
    obtain rfl := List.mem_singleton.mp hs
    rfl

/-- The kind that an OP value names has that OP. -/
theorem Kind.ofOp_ok {op sub m x0 : Nat} {k : Kind} (h : Kind.ofOp op sub m x0 = .ok k) : k.info.op = op := by
  unfold Kind.ofOp at h
  split at h
  all_goals repeat' split at h
  all_goals cases h
  all_goals rfl

/-- No OP value of a kind is rejected as unlisted. -/
theorem Kind.ofOp_listed (k : Kind) (sub m x0 : Nat) : Kind.ofOp k.info.op sub m x0 ≠ .error .opcode := by
  intro h
  cases k
  case exitL | exitSucc | imin | imax | iabs | ineg | andL | orL | xorL | andn | orn | xnor | shl | shr | sha | rol | popc | clz | ctz
      | brev | mov | movI32 | movI64 | acdrain | acdrainAdd | cpygGather | cpygScatter | racqProd | racqCons | sctlStat | sctlDlen
      | sctlYlen | sctlElen | sctlStop | collAr | collRs | collAg =>
    conv at h => lhs; whnf
    split at h <;> cases h
  case cpy | cpyRing | rrelPub | rrelPubLast | rrelFree | vcfg | vcfgClose =>
    change ite _ _ _ = _ at h
    repeat' split at h
    all_goals cases h
  all_goals cases h

/-- An OP value rejected for another reason than that it is unlisted is the OP of some kind. -/
theorem Kind.ofOp_error {op sub m x0 : Nat} {r : Reject} (h : Kind.ofOp op sub m x0 = .error r) (hr : r ≠ .opcode) :
    ∃ k : Kind, k.info.op = op := by
  unfold Kind.ofOp at h
  split at h
  case h_12 => exact ⟨.exitL, rfl⟩
  case h_18 => exact ⟨.imin, rfl⟩
  case h_19 => exact ⟨.iabs, rfl⟩
  case h_20 => exact ⟨.andL, rfl⟩
  case h_21 => exact ⟨.shl, rfl⟩
  case h_22 => exact ⟨.popc, rfl⟩
  case h_27 => exact ⟨.mov, rfl⟩
  case h_99 => exact ⟨.acdrain, rfl⟩
  case h_114 => exact ⟨.cpy, rfl⟩
  case h_115 => exact ⟨.cpygGather, rfl⟩
  case h_117 => exact ⟨.racqProd, rfl⟩
  case h_118 => exact ⟨.rrelPub, rfl⟩
  case h_120 => exact ⟨.sctlStat, rfl⟩
  case h_129 => exact ⟨.collAr, rfl⟩
  case h_132 => exact ⟨.vcfg, rfl⟩
  case h_144 =>
    cases h
    exact absurd rfl hr
  all_goals cases h

end Sys2Proof
end

section
/-! PROOFS. The bits of an instruction and its fields (02_formats.md R18 to R25): packing and reading back, bytes and numbers. -/

namespace Sys2Proof

/-- Bits of a number, as a quotient and a remainder. -/
theorem nbits_eq (x hi lo : Nat) : nbits x hi lo = x / 2 ^ lo % 2 ^ (hi + 1 - lo) := by
  rw [nbits, Nat.shiftRight_eq_div_pow]

/-- The byte of an operand reads as that operand (Table 2.5). -/
theorem Reg.ofByte_byte (r : Reg) : Reg.ofByte r.byte = r := by
  unfold Reg.ofByte
  cases r with
  | v n => exact dif_pos n.isLt
  | s n =>
    rw [Reg.byte, dif_neg (by omega), dif_pos (by omega)]
    exact congrArg Reg.s (Fin.ext (Nat.add_sub_cancel_left ..))
  | e n =>
    rw [Reg.byte, dif_neg (by omega), dif_neg (by omega), dif_pos (by omega)]
    exact congrArg Reg.e (Fin.ext (Nat.add_sub_cancel_left ..))
  | reserved n =>
    rw [Reg.byte, dif_neg (by omega), dif_neg (by omega), dif_neg (by omega), dif_pos (by omega)]
    exact congrArg Reg.reserved (Fin.ext (Nat.add_sub_cancel_left ..))
  | zero => rfl

/-- An operand has the byte it was read from (Table 2.5). -/
theorem Reg.byte_ofByte {n : Nat} (h : n < 256) : (Reg.ofByte n).byte = n := by
  unfold Reg.ofByte
  split_ifs <;> simp only [Reg.byte] <;> omega

theorem Reg.byte_lt (r : Reg) : r.byte < 256 := by
  cases r <;> simp only [Reg.byte] <;> omega

theorem bitOf_lt (b : Bool) : bitOf b < 2 := by cases b <;> decide

@[simp] theorem bitOf_beq_one (b : Bool) : (bitOf b == 1) = b := by cases b <;> rfl

theorem bitOf_beq {n : Nat} (h : n < 2) : bitOf (n == 1) = n := by
  interval_cases n <;> rfl

/-- An instruction's bits are those numbers whose bits, field by field, are its fields (Table 2.2). -/
theorem Fields.bits_eq_iff {f : Fields} {op x : Nat} (hop : op < 256) : f.bits op = x ↔
    nbits x 1 0 = f.ext.bits.1 ∧ nbits x 2 2 = bitOf f.last ∧ nbits x 10 3 = op ∧ nbits x 13 11 = f.sub.val
    ∧ nbits x 16 14 = f.pg.val ∧ nbits x 17 17 = bitOf f.pn ∧ nbits x 22 18 = f.kw.val ∧ nbits x 23 23 = bitOf f.kv
    ∧ nbits x 31 24 = f.d.byte ∧ nbits x 39 32 = f.a.byte ∧ nbits x 47 40 = f.b.byte ∧ nbits x 55 48 = f.c.byte
    ∧ nbits x 63 56 = f.m.toNat ∧ x / 2 ^ 64 = f.ext.bits.2 := by
  have hlen : f.ext.bits.1 < 4 := by cases f.ext <;> simp [Ext.bits]
  have hlast := bitOf_lt f.last
  have hpn := bitOf_lt f.pn
  have hkv := bitOf_lt f.kv
  have hd := f.d.byte_lt
  have ha := f.a.byte_lt
  have hb := f.b.byte_lt
  have hc := f.c.byte_lt
  have hm := f.m.isLt
  simp only [nbits_eq, Fields.bits]
  norm_num only at hm ⊢
  constructor
  · rintro rfl
    refine ⟨?_, ?_, ?_, ?_, ?_, ?_, ?_, ?_, ?_, ?_, ?_, ?_, ?_, ?_⟩ <;> omega
  · omega

/-- The fields of an instruction's bits are its fields. -/
theorem fieldsOf_bits (f : Fields) {op : Nat} (hop : op < 256) : fieldsOf (f.bits op) f.ext = f := by
  obtain ⟨-, hlast, -, hsub, hpg, hpn, hkw, hkv, hd, ha, hb, hc, hm, -⟩ := (Fields.bits_eq_iff hop).mp (Eq.refl (f.bits op))
  unfold fieldsOf
  rw [hlast, hpn, hkv, hd, ha, hb, hc]
  simp only [Reg.ofByte_byte, bitOf_beq_one]
  rw [show Fin.ofNat 8 _ = f.sub from Fin.ext hsub, show Fin.ofNat 8 _ = f.pg from Fin.ext hpg,
    show Fin.ofNat 32 _ = f.kw from Fin.ext hkw, show BitVec.ofNat 8 _ = f.m from BitVec.eq_of_toNat_eq ((BitVec.toNat_ofNat ..).trans hm)]

/-- Fields read from a number have its bits, where the extension has those above the first 64 and the length code. -/
theorem bits_fieldsOf {x : Nat} {e : Ext} (hlen : nbits x 1 0 = e.bits.1) (hext : x / 2 ^ 64 = e.bits.2) :
    (fieldsOf x e).bits (nbits x 10 3) = x := by
  have hlt : ∀ hi lo, nbits x hi lo < 2 ^ (hi + 1 - lo) := fun hi lo => Nat.mod_lt _ (Nat.two_pow_pos _)
  rw [Fields.bits_eq_iff (hlt 10 3)]
  refine ⟨hlen, (bitOf_beq (hlt 2 2)).symm, rfl, rfl, rfl, (bitOf_beq (hlt 17 17)).symm, rfl, (bitOf_beq (hlt 23 23)).symm,
    (Reg.byte_ofByte (hlt 31 24)).symm, (Reg.byte_ofByte (hlt 39 32)).symm, (Reg.byte_ofByte (hlt 47 40)).symm,
    (Reg.byte_ofByte (hlt 55 48)).symm, (BitVec.toNat_ofNat ..).symm, hext⟩

/-! Extension words. -/

/-- No kind accepts two formats of one length (R21). -/
theorem Kind.fmts_differ (k : Kind) : ¬ (1 ∈ k.info.fmts ∧ 2 ∈ k.info.fmts) ∧ ¬ (3 ∈ k.info.fmts ∧ 4 ∈ k.info.fmts) := by
  cases k <;> decide

theorem extOf_bits {k : Kind} {e : Ext} {x : Nat} (hf : e.fmt ∈ k.info.fmts) (hx : x / 2 ^ 64 = e.bits.2) :
    extOf k.info.fmts e.bits.1 x = some e := by
  obtain ⟨h12, h34⟩ := k.fmts_differ
  have h2 : x >>> 64 = e.bits.2 := by rw [Nat.shiftRight_eq_div_pow, hx]
  have h3 : x >>> 96 = e.bits.2 / 2 ^ 32 := by rw [← h2]; rw [← Nat.shiftRight_eq_div_pow, ← Nat.shiftRight_add]
  unfold extOf
  simp only [h2, h3, List.contains_iff_mem]
  cases e with
  | f64 => exact if_pos hf
  | f96i imm =>
    rw [Ext.bits]
    simp only [Ext.fmt] at hf
    simp [hf]
  | f96x x0 =>
    simp only [Ext.fmt] at hf
    rw [Ext.bits]
    have : 1 ∉ k.info.fmts := fun h => h12 ⟨h, hf⟩
    simp [hf, this]
  | f128i imm =>
    simp only [Ext.fmt] at hf
    rw [Ext.bits]
    simp [hf]
  | f128x km x0 =>
    simp only [Ext.fmt] at hf
    have : 3 ∉ k.info.fmts := fun h => h34 ⟨h, hf⟩
    rw [Ext.bits]
    have h1 : BitVec.ofNat 32 (km.toNat + 2 ^ 32 * x0.toNat) = km := by
      apply BitVec.eq_of_toNat_eq
      rw [BitVec.toNat_ofNat]
      omega
    have h2 : BitVec.ofNat 32 ((km.toNat + 2 ^ 32 * x0.toNat) / 2 ^ 32) = x0 := by
      apply BitVec.eq_of_toNat_eq
      rw [BitVec.toNat_ofNat]
      omega
    simp [hf, this]
    exact ⟨h1, h2⟩

/-- An extension that a number's bits give has its length code, and, of an instruction of that length, its bits above the first 64. -/
theorem bits_extOf {fmts : List Nat} {len x : Nat} {e : Ext} (h : extOf fmts len x = some e) (hx : x < 256 ^ lenBytes len) :
    e.bits = (len, x / 2 ^ 64) ∧ len < 3 := by
  unfold extOf at h
  rw [Nat.shiftRight_eq_div_pow, Nat.shiftRight_eq_div_pow] at h
  split at h <;> simp only [lenBytes] at hx <;> norm_num only at hx
  · split_ifs at h
    cases h
    exact ⟨Prod.ext rfl (by simp only [Ext.bits]; omega), by decide⟩
  · split_ifs at h <;> cases h <;>
      exact ⟨Prod.ext rfl (by simp only [Ext.bits, BitVec.toNat_ofNat]; omega), by decide⟩
  · split_ifs at h <;> cases h <;>
      exact ⟨Prod.ext rfl (by simp only [Ext.bits, BitVec.toNat_ofNat]; omega), by decide⟩
  · cases h

/-- The byte of X0 that the decoder looks at, and where no extension word can be an immediate, X0's own. -/
def lowX0 (len x : Nat) : Nat := if len == 1 then nbits x 71 64 else if len == 2 then nbits x 103 96 else 0

theorem lowX0_eq {f : Fields} {x : Nat} (hx : x / 2 ^ 64 = f.ext.bits.2) (h1 : f.ext.fmt ≠ 1) (h3 : f.ext.fmt ≠ 3) :
    lowX0 f.ext.bits.1 x = f.x % 256 := by
  have h96 : x / 2 ^ 96 = f.ext.bits.2 / 2 ^ 32 := by omega
  simp only [lowX0, nbits_eq, hx, h96, Fields.x]
  cases he : f.ext with
  | f64 => simp [Ext.bits, Ext.x0?]
  | f96i imm => simp [he, Ext.fmt] at h1
  | f96x x0 => simp [Ext.bits, Ext.x0?]
  | f128i imm => simp [he, Ext.fmt] at h3
  | f128x km x0 =>
    simp [Ext.bits, Ext.x0?]
    omega

/-! Bytes. -/

/-- A number is the bytes it was read from. -/
theorem leBytes_leNat (bs : List Byte) : leBytes bs.length (leNat bs) = bs := by
  induction bs with
  | nil => rfl
  | cons b t ih =>
    have hb := b.isLt
    have h1 : BitVec.ofNat 8 (leNat (b :: t)) = b := by
      apply BitVec.eq_of_toNat_eq
      rw [BitVec.toNat_ofNat, leNat]
      omega
    have h2 : leNat (b :: t) / 256 = leNat t := by rw [leNat]; omega
    rw [List.length_cons, leBytes, h1, h2, ih]

theorem leNat_lt (bs : List Byte) : leNat bs < 256 ^ bs.length := by
  induction bs with
  | nil => decide
  | cons b t ih =>
    have hb := b.isLt
    rw [leNat, List.length_cons, Nat.pow_succ]
    omega

/-- The kind of an instruction of the map, with its fields, is that instruction. -/
theorem Instr.ofKind_of_view {i : Instr} {k : Kind} {f : Fields} (h : i.view = some (k, f)) : Instr.ofKind k f = i := by
  cases i <;> cases h <;> rfl

@[simp] theorem Instr.view_ofKind (k : Kind) (f : Fields) : (Instr.ofKind k f).view = some (k, f) := by
  cases k <;> rfl

/-- The first bytes of a number are its low ones. -/
theorem leNat_take (n : Nat) (bs : List Byte) : leNat (bs.take n) = leNat bs % 256 ^ n := by
  induction bs generalizing n with
  | nil => simp [leNat]
  | cons b t ih =>
    have hb := b.isLt
    cases n with
    | zero => simp [leNat, Nat.mod_one]
    | succ n =>
      have hmod : (b.toNat + 256 * leNat t) % (256 * 256 ^ n) = b.toNat + 256 * (leNat t % 256 ^ n) := by
        rw [Nat.mod_mul]
        congr 2
        · omega
        · congr 1; omega
      rw [List.take_succ_cons, leNat, leNat, ih, Nat.pow_succ', hmod]

theorem lenBytes_pos (code : Nat) : 0 < lenBytes code := by unfold lenBytes; split <;> decide

/-- The low bits of a number are those of its first bytes. -/
theorem mod_pow_mod_four (x : Nat) {n : Nat} (hn : 0 < n) : x % 256 ^ n % 4 = x % 4 :=
  Nat.mod_mod_of_dvd x ((by decide : 4 ∣ 256).trans (dvd_pow_self 256 hn.ne'))

/-- The decoder takes the bytes that the length code asks for, in the low bits of the first of them (Table 2.1). -/
theorem decode_eq (bs : List Byte) : decode bs = if bs.length < lenBytes (leNat bs % 4) then .bad .short
    else decodeNat (leNat bs % 256 ^ lenBytes (leNat bs % 4)) := by
  cases bs with
  | nil => rfl
  | cons b t =>
    have hlow : leNat (b :: t) % 4 = b.toNat % 4 := by rw [leNat]; omega
    rw [decode, hlow, leNat_take]

/-- The bytes of a number that is long enough for its length code decode as that number, whatever follows. -/
theorem decode_leBytes {n x : Nat} (rest : List Byte) (hn : lenBytes (x % 4) = n) (hx : x < 256 ^ n) :
    decode (leBytes n x ++ rest) = decodeNat x := by
  have hlow : leNat (leBytes n x ++ rest) % 256 ^ n = x := by
    rw [← leNat_take, List.take_left' (Machine.leBytes_length n x), Machine.leNat_leBytes, Nat.mod_eq_of_lt hx]
  have hcode : leNat (leBytes n x ++ rest) % 4 = x % 4 := by
    rw [← mod_pow_mod_four _ (hn ▸ lenBytes_pos _ : 0 < n), hlow]
  rw [decode_eq, hcode, hn, hlow, if_neg (by simp)]

end Sys2Proof
end

section
/-! PROOFS. Decoder and encoder are inverse to each other (02_formats.md R15 to R25, R37), and unlisted OP and SUB values are no
instruction. -/

namespace Sys2Proof

theorem Kind.op_lt (k : Kind) : k.info.op < 256 := by
  cases k <;> decide

/-- A bit that a mask admits nowhere is clear. -/
theorem bit_clear_of_and_eq_zero {x mask i : Nat} (h : x &&& mask = 0) (hi : mask.testBit i = true) : nbits x i i = 0 := by
  have hbit := congrArg (Nat.testBit · i) h
  simp only [Nat.testBit_and, hi, Bool.and_true, Nat.zero_testBit] at hbit
  rw [nbits_eq]
  rw [Nat.testBit_eq_decide_div_mod_eq] at hbit
  have hi : i + 1 - i = 1 := by omega
  rw [hi]
  have := of_decide_eq_false hbit
  omega

/-- The bits that choose among the kinds of one OP are right in a well-formed instruction. -/
theorem encOk_chosen {k : Kind} {f : Fields} {x0 : Nat} (h : encOk k f = true) (hx : f.ext.fmt ≠ 1 → f.ext.fmt ≠ 3 → x0 = f.x % 256) :
    k.chosen f.m.toNat x0 := by
  have hfmt := Machine.encOk_fmt h
  have hextra := Machine.encOk_extra h
  unfold encOk at h
  simp only [Bool.and_eq_true, beq_iff_eq] at h
  obtain ⟨⟨⟨⟨-, hm⟩, hxb⟩, -⟩, -⟩ := h
  have hbit : nbits (f.x % 256) 7 7 = nbits f.x 7 7 := by simp only [nbits_eq]; omega
  have htop : f.m.getLsbD 7 = true → nbits f.m.toNat 7 7 = 1 := fun h => by
    simpa [nbits_eq, BitVec.getLsbD, Nat.testBit_eq_decide_div_mod_eq] using h
  cases k
  case cpy =>
    rw [Kind.chosen, hx (by rintro he; simp [he, Kind.info] at hfmt) (by rintro he; simp [he, Kind.info] at hfmt), hbit,
      bit_clear_of_and_eq_zero hxb (by decide)]
    decide
  case cpyRing =>
    have hring : (f.x.testBit 7 && nbits f.x 4 3 != 0) = true := hextra
    rw [Bool.and_eq_true, Nat.testBit_eq_decide_div_mod_eq, decide_eq_true_eq] at hring
    rw [Kind.chosen, hx (by rintro he; simp [he, Kind.info] at hfmt) (by rintro he; simp [he, Kind.info] at hfmt), hbit, nbits_eq]
    exact hring.1
  case rrelPub | vcfg =>
    rw [Kind.chosen, bit_clear_of_and_eq_zero hm (by decide)]
    decide
  case rrelPubLast =>
    have hlast : (f.m.getLsbD 7 && (f.ext.x0?.isNone || nbits f.x 4 3 != 0)) = true := hextra
    exact htop (Bool.and_eq_true _ _ ▸ hlast).1
  case vcfgClose => exact htop hextra
  case sctlStat | sctlDlen | sctlYlen | sctlElen | sctlStop =>
    have hsel : (nbits f.m.toNat 2 0 == _) = true := hextra
    exact eq_of_beq hsel
  all_goals trivial

/-- A well-formed instruction's bits decode to it. -/
theorem decodeNat_bits {k : Kind} {f : Fields} (h : encOk k f = true) :
    decodeNat (f.bits k.info.op) = .ok (Instr.ofKind k f) (lenBytes f.ext.bits.1) := by
  obtain ⟨hlen, -, hop, hsub, -, -, -, -, -, -, -, -, hm, hext⟩ := (Fields.bits_eq_iff k.op_lt).mp (Eq.refl (f.bits k.info.op))
  have hpad : (f.ext.bits.1 == 3) = false := by cases f.ext <;> rfl
  have hkind : Kind.ofOp k.info.op f.sub.val f.m.toNat (lowX0 f.ext.bits.1 (f.bits k.info.op)) = .ok k :=
    Kind.ofOp_info (Machine.encOk_sub h) (encOk_chosen h fun h1 h3 => lowX0_eq hext h1 h3)
  unfold lowX0 at hkind
  simp only [decodeNat, hlen, hpad, hop, hsub, hm, hkind, extOf_bits (Machine.encOk_fmt h) hext, fieldsOf_bits f k.op_lt, h, if_true,
    Bool.false_eq_true, if_false]

/-- What the decoder has found where it answers an instruction: its kind, its extension, and well-formed fields. -/
theorem decodeNat_ok {x n : Nat} {i : Instr} (h : decodeNat x = .ok i n) : ∃ k e, k.info.op = nbits x 10 3 ∧
    extOf k.info.fmts (nbits x 1 0) x = some e ∧ encOk k (fieldsOf x e) = true ∧ i = Instr.ofKind k (fieldsOf x e) ∧ n = lenBytes (nbits x 1 0) := by
  unfold decodeNat at h
  simp only at h
  split at h
  · cases h
  · split at h
    · cases h
    · rename_i k hk
      split at h
      · cases h
      · rename_i e he
        split at h
        · cases h
          exact ⟨k, e, Kind.ofOp_ok hk, he, ‹_›, rfl, rfl⟩
        · cases h

/-- An extension's bits above the first 64 fit in its length. -/
theorem Ext.bits_lt (e : Ext) : 2 ^ 64 * (e.bits.2 + 1) ≤ 256 ^ lenBytes e.bits.1 := by
  cases e <;> simp only [Ext.bits, lenBytes] <;> omega

/-- The bits of an instruction fit in its length. -/
theorem Fields.bits_lt (f : Fields) {op : Nat} (hop : op < 256) : f.bits op < 256 ^ lenBytes f.ext.bits.1 := by
  obtain ⟨-, -, -, -, -, -, -, -, -, -, -, -, -, hext⟩ := (Fields.bits_eq_iff hop).mp (Eq.refl (f.bits op))
  have := f.ext.bits_lt
  omega

/-- An OP value that names no kind is rejected for the reason the map gives. -/
theorem decodeNat_of_error {x : Nat} {r : Reject} (hlen : nbits x 1 0 ≠ 3)
    (h : Kind.ofOp (nbits x 10 3) (nbits x 13 11) (nbits x 63 56) (lowX0 (nbits x 1 0) x) = .error r) : decodeNat x = .bad r := by
  unfold lowX0 at h
  simp only [decodeNat, beq_eq_false_iff_ne.mpr hlen, h, Bool.false_eq_true, if_false]

/-- A kind that does not list the SUB value is rejected, and not as unlisted. -/
theorem decodeNat_of_sub {x : Nat} {k : Kind} (hlen : nbits x 1 0 ≠ 3)
    (h : Kind.ofOp (nbits x 10 3) (nbits x 13 11) (nbits x 63 56) (lowX0 (nbits x 1 0) x) = .ok k)
    (hsub : nbits x 13 11 ∉ k.info.subs) : ∃ r, decodeNat x = .bad r ∧ r ≠ .opcode := by
  unfold lowX0 at h
  simp only [decodeNat, beq_eq_false_iff_ne.mpr hlen, h, Bool.false_eq_true, if_false]
  split
  · exact ⟨_, rfl, by decide⟩
  · rename_i e _
    have hbad : encOk k (fieldsOf x e) = false := by
      by_contra hok
      exact hsub (Machine.encOk_sub (Bool.not_eq_false _ ▸ hok))
    have hnot : (k.info.subs.contains (fieldsOf x e).sub.val) = false := by
      rw [← Bool.not_eq_true, List.contains_iff_mem]
      exact hsub
    rw [if_neg (by simp [hbad])]
    exact ⟨.sub, by simp only [rejectOf, hnot, Bool.not_false, if_true], by decide⟩

/-- Settles O2: the bits of the fields are read back one by one, and the kind from OP, SUB and the bits that choose it. -/
theorem decodeOfEncode : Obligations.DecodeOfEncode := by
  unfold Obligations.DecodeOfEncode
  intro i bs rest hw he
  cases hv : i.view with
  | none => simp [encode, encodeNat, hv] at he
  | some p =>
    obtain ⟨k, f⟩ := p
    simp only [Instr.wellFormed, hv] at hw
    simp only [encode, encodeNat, hv, Option.map_some, Option.some.injEq] at he
    subst he
    obtain ⟨hlen, -⟩ := (Fields.bits_eq_iff k.op_lt).mp (Eq.refl (f.bits k.info.op))
    rw [decode_leBytes (x := f.bits k.info.op) rest (congrArg lenBytes hlen) (f.bits_lt k.op_lt), decodeNat_bits hw, Instr.ofKind_of_view hv,
      Machine.leBytes_length]

/-- Settles O3: the fields that were read pack into the bits they were read from. -/
theorem encodeOfDecode : Obligations.EncodeOfDecode := by
  unfold Obligations.EncodeOfDecode
  intro bs i n h
  have hfirst : leNat bs % 4 = (bs.headD 0).toNat % 4 := by
    cases bs with
    | nil => rfl
    | cons b t => simp only [leNat, List.headD_cons]; omega
  rw [decode_eq] at h
  split at h
  · cases h
  · rename_i hlong
    obtain ⟨k, e, hop, hext, hok, rfl, rfl⟩ := decodeNat_ok h
    have hcode : nbits (leNat bs % 256 ^ lenBytes (leNat bs % 4)) 1 0 = leNat bs % 4 := mod_pow_mod_four _ (lenBytes_pos _)
    rw [hcode] at hext ⊢
    obtain ⟨hbits, hlt⟩ := bits_extOf hext (Nat.mod_lt _ (Nat.pow_pos (by decide)))
    refine ⟨by simpa [Instr.wellFormed] using hok, ?_, congrArg lenBytes hfirst, ?_⟩
    · have hx := bits_fieldsOf (hcode.trans (congrArg Prod.fst hbits).symm) (congrArg Prod.snd hbits).symm
      rw [encode, encodeNat, Instr.view_ofKind]
      simp only [Option.map_some, Option.some.injEq]
      rw [hop, hx, show (fieldsOf _ e).ext = e from rfl, hbits, ← leNat_take]
      have hlen : (bs.take (lenBytes (leNat bs % 4))).length = lenBytes (leNat bs % 4) := by
        rw [List.length_take]; omega
      simpa only [hlen] using leBytes_leNat (bs.take (lenBytes (leNat bs % 4)))
    · generalize leNat bs % 4 = code at hlt
      interval_cases code <;> simp [lenBytes]

/-- Settles O4: what `Kind.ofOp` answers tells whether OP is listed; a kind that does not list SUB is rejected for that. -/
theorem unlistedOpcodesRejected : Obligations.UnlistedOpcodesRejected := by
  unfold Obligations.UnlistedOpcodesRejected
  intro x hlen
  cases hop : Kind.ofOp (nbits x 10 3) (nbits x 13 11) (nbits x 63 56) (lowX0 (nbits x 1 0) x) with
  | ok k => exact ⟨fun hno => absurd (Kind.ofOp_ok hop) (hno k), fun _ hsub => decodeNat_of_sub hlen hop (hsub k (Kind.ofOp_ok hop))⟩
  | error r =>
    refine ⟨fun hno => ?_, fun ⟨k, hk⟩ _ => ⟨r, decodeNat_of_error hlen hop, ?_⟩⟩
    · rw [decodeNat_of_error hlen hop]
      by_contra hr
      obtain ⟨k, hk⟩ := Kind.ofOp_error hop fun h => hr (congrArg _ h)
      exact hno k hk
    · rintro rfl
      exact k.ofOp_listed _ _ _ (hk ▸ hop)

end Sys2Proof
end

section
/-! PROOFS. The fetch of an open run (02_formats.md R15, 07_memory.md R149): `State.codeAt` looks a page up in the TLBs of a core,
and a sequencer context in its cluster's alone, so that the two part for a sequencer context that stands at a core. -/

namespace Sys2Proof.Machine

/-- A sequencer context that stands at core 0, with an open run at 0x10000; the page of its code is cached in that core's own TLB,
and in no table and no other TLB. -/
def strayBench (code : List Byte) : State :=
  let s := (State.reset.placeCode code).openBench .lane
  ({ s with ctxs := s.ctxs.map fun c => { c with kind := .seq } } : State).setDie 0
    { Die.reset with tlb := [{ unit := 0, page := 1, entryAddr := 0, entry := 0x10011, large := false }] }

/-- Its context. -/
def strayCtx : Ctx :=
  { Ctx.start 3 .lane (launchOf 0 0 0 (benchRec false) 0) 1 2 0 ⟨0, 0, 0⟩ 0 32 0x10000 with kind := .seq }

/-- Its run. -/
def strayRun : Run :=
  { ctx := 3, lanes := List.range 32, first := 0x10000, pc := 0x10000, count := 0, e := [], held := [], effs := [], jumps := [], clash := [] }

/-- NOP, that does not end its run. -/
def strayNop : Instr := .nop (fieldsWith false 0 .zero .zero .zero .zero 0 .f64)

/-- Its eight bytes. -/
def nopCode : List Byte := leBytes 8 0x00FFFFFFFF01C000
/-- Two pad words. -/
def padCode : List Byte := leBytes 8 0x0000000300000003

/-- Whether an outcome leaves a run open. -/
def leavesRun (o : Host.Outcome State Fault Refusal) : Bool :=
  match o with
  | .next s => s.run.isSome
  | _ => false

/-- Whether an outcome leaves die 0 a notice. -/
def leavesNotice (o : Host.Outcome State Fault Refusal) : Bool :=
  match o with
  | .next s => !(s.die 0).posted.isEmpty
  | _ => false

/-- The NOP stands on a page of code that can be read. -/
theorem strayBench_nop_codeAt : (strayBench nopCode).codeAt strayCtx 0x10000 0x10000 :=
  ⟨by decide, by decide, ⟨0, 0x10011, false, by decide⟩, ⟨0, by decide⟩, by decide, by decide, by decide⟩

/-- So do the pad words. -/
theorem strayBench_pad_codeAt : (strayBench padCode).codeAt strayCtx 0x10000 0x10000 :=
  ⟨by decide, by decide, ⟨0, 0x10011, false, by decide⟩, ⟨0, by decide⟩, by decide, by decide, by decide⟩

/-- Refutes O5: the context's fetch misses its cluster's TLB, finds no table, and is held, where the NOP would go on. -/
theorem not_stepRunsDecoded : ¬ Obligations.StepRunsDecoded := by
  unfold Obligations.StepRunsDecoded
  intro h
  have hstep := (h (strayBench nopCode) strayRun strayCtx 0x10000 strayNop 8 (by decide) (by decide) strayBench_nop_codeAt (by decide)).1
  have hgoes := congrArg leavesRun hstep
  revert hgoes
  decide

/-- Refutes O6: the fetch of a pad word there is held and its page noticed, where the illegal-instruction trap would be taken. -/
theorem not_fetchTraps : ¬ Obligations.FetchTraps := by
  unfold Obligations.FetchTraps
  intro h
  have hfirst := (h (strayBench padCode) strayRun strayCtx (by decide) (by decide)).1 (.inl rfl)
  have hstep := hfirst.1 0x10000 ⟨strayBench_pad_codeAt, fun i n hd => by
    have hpad : decode ((strayBench padCode).readBytes (0x10000 + strayRun.pc.toNat % 32) (32 - strayRun.pc.toNat % 32)) = .pad := by decide
    rw [hpad] at hd
    cases hd⟩
  have hnotice := congrArg leavesNotice hstep
  revert hnotice
  decide

end Sys2Proof.Machine
end

section
/-! PROOFS. The dispatch of a token-producing instruction (02_formats.md R28, R33; 09_tokens_barriers.md R185). -/

namespace Sys2Proof.Machine

/-- The change of one context of a state, as a map over the contexts. -/
theorem updWhere_id_eq (cs : List Ctx) (id : Nat) (g : Ctx → Ctx) :
    updWhere cs (fun c => c.id == id) g = cs.map fun x => if x.id = id then g x else x := by
  simp [updWhere]

@[simp] theorem Ctx.forgetMet_seqNo (c : Ctx) (ks : List Nat) : (c.forgetMet ks).seqNo = c.seqNo := by
  unfold Ctx.forgetMet; split <;> rfl

/-- How a precondition stands in a context when it is dispatched upon (R185). -/
def Ctx.preOf (c : Ctx) (k : Nat) : Nat × Pre :=
  (k, match c.rdTok k with
    | .pending op => Pre.on op
    | .poisoned r => Pre.poisoned r
    | _ => Pre.met)

theorem Ctx.preOf_pending {c : Ctx} {k : Nat} (h : (c.rdTok k).isPending = true) : ∃ op, c.preOf k = (k, .on op) := by
  unfold Ctx.preOf
  cases ht : c.rdTok k with
  | pending op => exact ⟨op, rfl⟩
  | free | done | poisoned => simp [ht, TokSt.isPending] at h

/-- An operation that waits for a pending precondition stays as it is. -/
theorem State.advanceOp_unresolved {s : State} {id : Nat} {o : Op} (ho : s.op? id = some o) (h : o.resolved = false) : s.advanceOp id = s := by
  simp [State.advanceOp, ho, h]

/-- The newest operation is found by its number. -/
theorem State.op?_newest {s : State} {ops : List Op} {o : Op} (hops : s.ops = ops ++ [o]) (h : ∀ x ∈ ops, x.id < o.id) :
    s.op? o.id = some o := by
  rw [State.op?, hops, List.find?_append, List.find?_eq_none.mpr fun x hx => by simpa using (h x hx).ne]
  simp

theorem Cmd.captured_eq {cmd : Cmd} (c : Ctx) (h : ∀ m q x, cmd ≠ .matrix m q x) : cmd.captured c = cmd := by
  cases cmd
  case matrix m q x => exact absurd rfl (h m q x)
  all_goals rfl

/-- The operation that a dispatch makes (R33): each precondition as it stands. -/
def State.issued (s : State) (c : Ctx) (pc : W64) (k : Nat) (pres : List Nat) (opc : Nat) (rel acq : Bool) (scope : Nat) (d : Dst)
    (cmd : Cmd) : Op :=
  { id := s.nextId, ctx := c.id, launch := c.launch, gang := c.gang, block := c.block, kind := c.kind, loc := c.loc
    token := k, opc := opc, pc := pc, rel := rel, acq := acq, scope := scope, dst := d, cmd := cmd, stage := .waiting
    time := s.ns, pre := pres.map c.preOf }

/-- A dispatch of no matrix command, on no session, with a precondition pending: its operation waits, and its token is pending on it. -/
theorem State.dispatch_pending {s : State} {c : Ctx} {pc : W64} {k : Nat} {pres : List Nat} {opc : Nat} {rel acq : Bool} {scope : Nat}
    {d : Dst} {cmd : Cmd} (htok : (c.rdTok k).isPending = false) (hroom : s.queueFull c cmd = false)
    (hses : s.cmdSession c.launch cmd = none) (hnew : ∀ o ∈ s.ops, o.id < s.nextId) (hpre : ∃ j ∈ pres, (c.rdTok j).isPending = true)
    (hmat : ∀ m q x, cmd ≠ .matrix m q x) : s.dispatch c pc k pres opc rel acq scope d cmd = some { s with
      nextId := s.nextId + 1
      ops := s.ops ++ [s.issued c pc k pres opc rel acq scope d cmd]
      ctxs := s.ctxs.map fun x => if x.id = c.id then (x.forgetMet [k]).wrTok k (.pending s.nextId) else x } := by
  obtain ⟨j, hj, hpend⟩ := hpre
  let o := s.issued c pc k pres opc rel acq scope d cmd
  have hseq : ∀ x : Ctx, { ((x.forgetMet [k]).wrTok k (.pending s.nextId)) with seqNo := x.seqNo }
      = (x.forgetMet [k]).wrTok k (.pending s.nextId) := fun x => by
    rw [← x.forgetMet_seqNo [k]]
    rfl
  have hwaits : o.resolved = false := by
    obtain ⟨op, hop⟩ := Ctx.preOf_pending hpend
    have hmem : (j, Pre.on op) ∈ o.pre := List.mem_map.mpr ⟨j, hj, hop⟩
    exact List.all_eq_false.mpr ⟨_, hmem, by simp⟩
  unfold State.dispatch
  simp only [htok, hroom, hses, Bool.or_self, Bool.false_eq_true, if_false, Option.some.injEq]
  rw [Cmd.captured_eq c hmat]
  refine (State.advanceOp_unresolved (id := o.id) (State.op?_newest rfl hnew) hwaits).trans ?_
  rw [State.updCtx, updWhere_id_eq]
  exact congrArg (fun g : Ctx → Ctx => ({ s with
    nextId := s.nextId + 1, ops := s.ops ++ [o], ctxs := s.ctxs.map fun x => if x.id = c.id then g x else x } : State)) (funext hseq)

/-- Settles O35: an operation with a pending precondition is not moved on. -/
theorem dispatchMakesPending : Obligations.DispatchMakesPending := by
  unfold Obligations.DispatchMakesPending
  intro s c pc k pres opc rel acq scope d cmd
  refine ⟨fun h => ?_, fun _ htok hroom hses hnew hpre hmat => ?_⟩
  · unfold State.dispatch
    rw [if_pos (Bool.or_eq_true _ _ ▸ h)]
  · exact State.dispatch_pending htok hroom hses hnew hpre hmat

end Sys2Proof.Machine
end

section
/-! PROOFS. Held register writes (02_formats.md R26, R33): what each register reads after them. -/

namespace Sys2Proof.Machine

/-- The value a held write gives vn of a lane, where it writes it. -/
def Held.toV (n l : Nat) (h : Held) : Option W32 :=
  match h with
  | .v n' l' x => if 64 * n' + l' = 64 * n + l then some x else none
  | _ => none

/-- The value a held write gives sn, where it writes it. -/
def Held.toS (n : Nat) (h : Held) : Option W64 :=
  match h with
  | .s n' x => if n' = n then some x else none
  | _ => none

/-- The value a held write gives pn of a lane, where it writes it. -/
def Held.toP (n l : Nat) (h : Held) : Option Bool :=
  match h with
  | .p n' l' x => if n' = n ∧ l' = l then some x else none
  | _ => none

/-- The value a held write gives mn, where it writes it: its bits below the width (R68). -/
def Held.toM (width : W64) (n : Nat) (h : Held) : Option W64 :=
  match h with
  | .m n' x => if n' = n then some (x &&& width) else none
  | _ => none

/-- Every register table of a context is in canonical form. -/
structure Ctx.RegsWf (c : Ctx) : Prop where
  v : Table.wf 0 c.v = true
  s : Table.wf 0 c.s = true
  p : Table.wf 0 c.p = true
  m : Table.wf 0 c.m = true

/-- A held write keeps the canonical form. -/
theorem Ctx.RegsWf.put {c : Ctx} (h : c.RegsWf) (w : Held) : (c.put w).RegsWf := by
  obtain ⟨hv, hs, hp, hm⟩ := h
  cases w with
  | v n l x => exact ⟨Table.wf_set hv, hs, hp, hm⟩
  | s n x => exact ⟨hv, Table.wf_set hs, hp, hm⟩
  | p n l x =>
    simp only [Ctx.put]
    rw [Ctx.wrP_eq]
    refine ⟨hv, hs, ?_, hm⟩
    unfold Ctx.wrP
    split
    · exact hp
    · exact Table.wf_set hp
  | m n x => exact ⟨hv, hs, hp, Table.wf_set hm⟩

/-- What a held write leaves alone: everything but the register tables. -/
theorem Ctx.put_eq (c : Ctx) (w : Held) : c.put w = { c with v := (c.put w).v, s := (c.put w).s, p := (c.put w).p, m := (c.put w).m } := by
  cases w with
  | p n l x => simp only [Ctx.put]; rw [Ctx.wrP_eq]
  | v | s | m => rfl

@[simp] theorem Ctx.widthMask_put (c : Ctx) (w : Held) : (c.put w).widthMask = c.widthMask := by rw [c.put_eq]; rfl

/-- What a register reads after one held write. -/
theorem Ctx.rdV_put {c : Ctx} (hc : c.RegsWf) (w : Held) (n l : Nat) : (c.put w).rdV n l = (w.toV n l).getD (c.rdV n l) := by
  cases w with
  | v n' l' x =>
    simp only [Ctx.put, Ctx.rdV, Ctx.wrV_v, Table.get_set hc.v, Held.toV]
    split <;> split <;> simp_all
  | p => simp only [Ctx.put]; rw [Ctx.wrP_eq]; rfl
  | s | m => rfl

theorem Ctx.rdS_put {c : Ctx} (hc : c.RegsWf) (w : Held) (n : Nat) : (c.put w).rdS n = (w.toS n).getD (c.rdS n) := by
  cases w with
  | s n' x =>
    simp only [Ctx.put, Ctx.rdS, Ctx.wrS_s, Table.get_set hc.s, Held.toS]
    split <;> split <;> simp_all
  | p => simp only [Ctx.put]; rw [Ctx.wrP_eq]; rfl
  | v | m => rfl

theorem Ctx.rdM_put {c : Ctx} (hc : c.RegsWf) (w : Held) (n : Nat) : (c.put w).rdM n = (w.toM c.widthMask n).getD (c.rdM n) := by
  cases w with
  | m n' x =>
    simp only [Ctx.put, Ctx.rdM, Ctx.wrM_m, Table.get_set hc.m, Held.toM]
    split <;> split <;> simp_all
  | p => simp only [Ctx.put]; rw [Ctx.wrP_eq]; rfl
  | v | s => rfl

/-- A mask in which the bit of one lane was set or cleared. -/
theorem getLsbD_setLane (old : W64) (x : Bool) {j l : Nat} (hl : l < 64) :
    (if x then old ||| BitVec.ofNat 64 (2 ^ j) else old &&& ~~~BitVec.ofNat 64 (2 ^ j)).getLsbD l = if j = l then x else old.getLsbD l := by
  have hbit : (BitVec.ofNat 64 (2 ^ j)).getLsbD l = decide (j = l) := by
    rw [BitVec.getLsbD_ofNat, Nat.testBit_two_pow]
    simp [hl]
  cases x <;> simp only [if_true, if_false, Bool.false_eq_true, BitVec.getLsbD_or, BitVec.getLsbD_and, BitVec.getLsbD_not, hbit, hl] <;>
    by_cases h : j = l <;> simp [h]

theorem Ctx.rdP_put {c : Ctx} (hc : c.RegsWf) {w : Held} {n l : Nat} (hn : n ≠ 7) (hl : l < 64) :
    (c.put w).rdP n l = (w.toP n l).getD (c.rdP n l) := by
  cases w with
  | p n' l' x =>
    have h7 : (n == 7) = false := by simpa using hn
    simp only [Ctx.put, Ctx.rdP, Ctx.wrP, Held.toP, h7, Bool.false_or]
    by_cases hn' : n' = 7
    · simp [hn', hn.symm]
    · simp only [beq_iff_eq, hn', if_false, Table.get_set hc.p]
      by_cases hnn : n = n'
      · simp only [hnn, if_true, getLsbD_setLane _ x hl, true_and]
        split <;> rfl
      · simp [hnn, Ne.symm hnn]
  | v | s | m => rfl

/-- A reading that each held write replaces or leaves gives, after several, what the last one put there. -/
theorem Ctx.putAll_reads {α : Type} {P : Ctx → Prop} {rd : Ctx → α} {put : Held → Option α} (hP : ∀ {c w}, P c → P (c.put w))
    (hrd : ∀ {c w}, P c → rd (c.put w) = (put w).getD (rd c)) {c : Ctx} (hc : P c) (ws : List Held) :
    rd (c.putAll ws) = (ws.reverse.findSome? put).getD (rd c) := by
  induction ws generalizing c with
  | nil => rfl
  | cons w ws ih =>
    rw [Ctx.putAll, List.foldl_cons, ← Ctx.putAll, ih (hP hc), List.reverse_cons, List.findSome?_append, hrd hc]
    cases ws.reverse.findSome? put <;> cases hw : put w <;> simp [hw]

/-- Held writes leave everything but the register tables. -/
theorem Ctx.putAll_eq (c : Ctx) (ws : List Held) :
    c.putAll ws = { c with v := (c.putAll ws).v, s := (c.putAll ws).s, p := (c.putAll ws).p, m := (c.putAll ws).m } := by
  induction ws generalizing c with
  | nil => rfl
  | cons w ws ih =>
    rw [Ctx.putAll, List.foldl_cons, ← Ctx.putAll, ih, c.put_eq]

/-- Settles O48: `putAll_reads` for each kind of register. -/
theorem lastWriteWins : Obligations.LastWriteWins := by
  unfold Obligations.LastWriteWins
  intro c ws n l hl hv hs hp hm
  have hc : c.RegsWf := ⟨hv, hs, hp, hm⟩
  refine ⟨?_, ?_, fun _ => ?_, ?_, ?_, ?_, ?_⟩
  · exact Ctx.putAll_reads (rd := fun c => c.rdV n l) (put := Held.toV n l) (fun h => h.put _) (fun h => Ctx.rdV_put h _ n l) hc ws
  · exact Ctx.putAll_reads (rd := fun c => c.rdS n) (put := Held.toS n) (fun h => h.put _) (fun h => Ctx.rdS_put h _ n) hc ws
  · split
    · rename_i h7
      simp [Ctx.rdP, h7]
    · rename_i h7
      exact Ctx.putAll_reads (rd := fun c => c.rdP n l) (put := Held.toP n l) (fun h => h.put _) (fun h => Ctx.rdP_put h h7 hl) hc ws
  · exact Ctx.putAll_reads (P := fun x => x.RegsWf ∧ x.widthMask = c.widthMask) (rd := fun c => c.rdM n) (put := Held.toM c.widthMask n)
      (fun h => ⟨h.1.put _, (Ctx.widthMask_put _ _).trans h.2⟩) (fun h => h.2 ▸ Ctx.rdM_put h.1 _ n) ⟨hc, rfl⟩ ws
  all_goals rw [c.putAll_eq]

end Sys2Proof.Machine
end

section
/-! PROOFS. The commit of a run without effects (02_formats.md R33): it writes the held registers and moves the lanes, and where no
lane is parked or waits it releases nothing. -/

namespace Sys2Proof.Machine

/-- A lane after one lane was changed. -/
theorem Ctx.lane_updLane (c : Ctx) (l j : Nat) (g : Lane → Lane) :
    (c.updLane l g).lane j = if l = j ∧ l < c.lanes.length then g (c.lane l) else c.lane j := by
  rw [Ctx.lane, Ctx.updLane_lanes, nth_setNth]
  rfl

/-- Each lane is runnable or exited: none is parked, none waits. -/
def Ctx.Free (c : Ctx) : Prop := ∀ l, (c.lane l).st = .runnable ∨ (c.lane l).st = .exited

theorem Ctx.free_of_lanes {c : Ctx} (h : ∀ x ∈ c.lanes, x.st = .runnable ∨ x.st = .exited) : c.Free := by
  intro l
  rw [Ctx.lane, nth_eq_getD]
  cases hl : c.lanes[l]? with
  | none => exact .inr rfl
  | some x => exact h x (List.mem_of_getElem? hl)

/-- Lanes that are changed and keep their states stay free. -/
theorem Ctx.Free.updLanes {c : Ctx} (h : c.Free) {g : Nat → Lane → Lane} (hg : ∀ l x, (g l x).st = x.st) (ls : List Nat) :
    (c.updLanes ls g).Free :=
  List.foldlRecOn ls _ (motive := Ctx.Free) h fun d hd l _ j => by
    rw [Ctx.lane_updLane]
    split
    · rw [hg]; exact hd l
    · exact hd j

/-- What a change of lanes leaves alone. -/
theorem Ctx.updLanes_eq (c : Ctx) (ls : List Nat) (g : Nat → Lane → Lane) :
    c.updLanes ls g = { c with lanes := (c.updLanes ls g).lanes } :=
  List.foldlRecOn ls _ (motive := fun d : Ctx => d = { c with lanes := d.lanes }) rfl fun d hd l _ => by
    rw [Ctx.updLane, hd]

/-- No mask releases where no lane is parked (R70). -/
theorem Ctx.Free.release {c : Ctx} (h : c.Free) : c.release = c := by
  have hnone : masks.filter c.releases = [] := by
    refine List.filter_eq_nil_iff.mpr fun n _ => ?_
    have hparked : c.parkedOn n = [] := List.filter_eq_nil_iff.mpr fun l _ => by rcases h l with hl | hl <;> simp [hl]
    simp [Ctx.releases, hparked]
  rw [Ctx.release, hnone, List.foldl_nil]

/-- No block barrier completes where no lane waits at one (R202). -/
theorem State.barrierRelease_free {s : State} {bid : Nat} (h : ∀ x ∈ s.ctxs, x.block = bid → x.Free) : s.barrierRelease bid = s := by
  have hdone : ∀ id, barrierComplete (s.warpsOf bid) id = false := fun id => by
    have hany : ((s.warpsOf bid).any fun c => c.allLanes.any fun l => c.bsyncDone l id) = false := by
      refine List.any_eq_false.mpr fun c hc => ?_
      obtain ⟨hmem, hat⟩ := List.mem_filter.mp hc
      simp only [Bool.and_eq_true, beq_iff_eq] at hat
      simp only [List.any_eq_true, not_exists, not_and]
      intro l _
      rcases h c hmem hat.1.1 l with hl | hl <;> simp [Ctx.bsyncDone, hl]
    rw [barrierComplete, hany, Bool.and_false]
  rw [State.barrierRelease]
  simp [hdone]

theorem State.countAt_off {s : State} {l : Launch} {launch : Nat} (h : s.launch? launch = some l) (hcs : l.record.cs = false) (loc : Loc)
    (event n : Nat) : s.countAt launch loc event n = s := by
  simp [State.countAt, h, hcs]

/-- A context that is the only one of its number is found by it after a change that keeps numbers. -/
theorem State.ctx?_updCtx {s : State} {c : Ctx} {id : Nat} {g : Ctx → Ctx} (hc : s.ctx? id = some c) (hg : ∀ x, (g x).id = x.id) :
    (s.updCtx id g).ctx? id = some (g c) := by
  have hid : c.id = id := by simpa using List.find?_some hc
  unfold State.ctx? at *
  rw [State.updCtx_ctxs, updWhere, List.find?_map]
  have hfun : ((fun x : Ctx => x.id == id) ∘ fun x => if (x.id == id) = true then g x else x) = fun x => x.id == id := by
    funext x
    simp only [Function.comp_apply]
    split <;> simp [hg]
  rw [hfun, hc]
  simp [hid]

/-- A change that no context of the number sees changes nothing. -/
theorem State.updCtx_fixed {s : State} {id : Nat} {g : Ctx → Ctx} (h : ∀ x ∈ s.ctxs, x.id = id → g x = x) : s.updCtx id g = s := by
  have hctxs : updWhere s.ctxs (fun c => c.id == id) g = s.ctxs := by
    rw [updWhere_id_eq]
    refine (List.map_congr_left fun x hx => ?_).trans (List.map_id _)
    split
    · exact h x hx ‹_›
    · rfl
  rw [State.updCtx, hctxs]

/-- What a commit without effects makes of its context (R33): held writes made, lanes moved. -/
def Ctx.committedBy (r : Run) (c : Ctx) : Ctx := { (c.putAll r.held).movePcs r with commitQ := [] }

theorem Ctx.committedBy_eq (r : Run) (c : Ctx) : c.committedBy r =
    { c with lanes := (c.committedBy r).lanes, v := (c.committedBy r).v, s := (c.committedBy r).s, p := (c.committedBy r).p
             m := (c.committedBy r).m, commitQ := [] } := by
  rw [Ctx.committedBy, Ctx.movePcs, Ctx.updLanes_eq, c.putAll_eq]

theorem Ctx.Free.committedBy {c : Ctx} (h : c.Free) (r : Run) : (c.committedBy r).Free := by
  have hput : (c.putAll r.held).Free := by
    rw [c.putAll_eq]
    exact h
  have hmove : ((c.putAll r.held).movePcs r).Free := by
    refine hput.updLanes ?_ _
    exact fun _ _ => rfl
  exact hmove

/-- The end of a commit releases nothing where no lane of the block is parked or waits, no slot stops and no sync record is due. -/
theorem State.finishCommit_free {s : State} {c : Ctx} {id : Nat} (hc : s.ctx? id = some c) (hone : ∀ x ∈ s.ctxs, x.id = id → x = c)
    (hstop : c.stopReq = false) (hsync : c.traceSync = false) (hfree : ∀ x ∈ s.ctxs, x.block = c.block → x.Free) :
    s.finishCommit id = s := by
  have hmem : c ∈ s.ctxs := List.mem_of_find?_eq_some hc
  have hfixed : (s.updCtx id fun c => c.stopLanes.release) = s := State.updCtx_fixed fun x hx hid => by
    rw [hone x hx hid, Ctx.stopLanes, hstop]
    exact (hfree c hmem rfl).release
  rw [State.finishCommit, hc]
  simp only [hfixed]
  rw [State.barrierRelease_free hfree, State.traceBoundary, hc]
  simp [hsync]

/-- A commit without effects, of a launch that counts nothing, with no register in error: the context is changed, and what ends
every commit follows. -/
theorem State.commitRun_noEffects {s : State} {c : Ctx} {r : Run} {l : Launch} (hc : s.ctx? c.id = some c)
    (hl : s.launch? c.launch = some l) (hcs : l.record.cs = false) (heffs : r.effs = []) (hbad : s.badVregs = []) :
    s.commitRun c r = (({ s with run := none } : State).updCtx c.id (Ctx.committedBy r)).finishCommit c.id := by
  have hfound : (({ s with run := none } : State).updCtx c.id (Ctx.committedBy r)).ctx? c.id = some (c.committedBy r) :=
    State.ctx?_updCtx hc fun x => by rw [x.committedBy_eq]
  have hqueue : (c.committedBy r).commitQ = [] := rfl
  have hreserve : s.reserveAll c r.effs = (s, []) := by rw [heffs]; rfl
  have hcount : ∀ g event n, (s.updCtx c.id g).countAt c.launch c.loc event n = s.updCtx c.id g := fun g event n =>
    State.countAt_off (s := s.updCtx c.id g) hl hcs c.loc event n
  have hmend : ∀ g, (({ s.updCtx c.id g with run := none } : State)).mend c.id r.held = { s.updCtx c.id g with run := none } := fun g => by
    simp [State.mend, hbad]
  unfold State.commitRun
  simp only [hreserve, hcount, hmend]
  refine Eq.trans (b := (({ s with run := none } : State).updCtx c.id (Ctx.committedBy r)).drain c.id) rfl ?_
  rw [State.drain, hfound]
  simp only [hqueue, State.drainN, hfound]

/-- Settles O47: the commit changes its context, and `finishCommit_free` says that its end changes nothing. -/
theorem commitOfRegisters : Obligations.CommitOfRegisters := by
  unfold Obligations.CommitOfRegisters
  intro s c r l hc hl hcs heffs hbad hsync hstop hone hlanes
  let u := ({ s with run := none } : State).updCtx c.id (Ctx.committedBy r)
  have hmem : ∀ x ∈ u.ctxs, ∃ y ∈ s.ctxs, (y.id = c.id ∧ x = c.committedBy r) ∨ (y.id ≠ c.id ∧ x = y) := fun x hx => by
    obtain ⟨y, hy, rfl⟩ := List.mem_map.mp hx
    refine ⟨y, hy, ?_⟩
    by_cases hid : y.id = c.id
    · exact .inl ⟨hid, by simp [hone y hy hid]⟩
    · exact .inr ⟨hid, by simp [hid]⟩
  have hid : (c.committedBy r).id = c.id := by rw [c.committedBy_eq]
  have hblock : (c.committedBy r).block = c.block := by rw [c.committedBy_eq]
  have hfree : ∀ y ∈ s.ctxs, y.block = c.block → y.Free := fun y hy hb => Ctx.free_of_lanes (hlanes y hy hb)
  rw [State.commitRun_noEffects hc hl hcs heffs hbad]
  refine (State.finishCommit_free (s := u) (c := c.committedBy r) (State.ctx?_updCtx hc fun x => by rw [x.committedBy_eq]) ?_ ?_ ?_ ?_).trans ?_
  · intro x hx hxid
    obtain ⟨y, -, ⟨-, rfl⟩ | ⟨hne, rfl⟩⟩ := hmem x hx
    · rfl
    · exact absurd hxid hne
  · rw [c.committedBy_eq]; exact hstop
  · rw [c.committedBy_eq]; exact hsync
  · intro x hx hb
    obtain ⟨y, hy, ⟨-, rfl⟩ | ⟨-, rfl⟩⟩ := hmem x hx
    · exact (hfree c (List.mem_of_find?_eq_some hc) rfl).committedBy r
    · exact hfree x hy (hb.trans hblock)
  · exact congrArg (fun cs => ({ s with run := none, ctxs := cs } : State)) (updWhere_id_eq s.ctxs c.id (Ctx.committedBy r))

end Sys2Proof.Machine
end

section
/-! PROOFS. What counting an event changes (17_system.md R363): the counter banks of one core or of one cluster's sequencer. -/

namespace Sys2Proof.Machine

/-- A core read after one was replaced. -/
theorem State.core_setCore {s : State} (h : Table.wf Core.reset s.cores = true) (l loc : Loc) (k : Core) :
    (s.setCore l k).core loc = if coreKey loc = coreKey l then k else s.core loc :=
  Table.get_set h _

/-- A core is the one of its place. -/
theorem State.core_congr (s : State) {l loc : Loc} (h : coreKey l = coreKey loc) : s.core l = s.core loc := by
  simp only [State.core, h]

/-- A cluster read after one was replaced. -/
theorem State.cluster_setCluster {s : State} (h : Table.wf Cluster.reset s.clusters = true) (k q : Nat) (c : Cluster) :
    (s.setCluster k c).cluster q = if q = k then c else s.cluster q :=
  Table.get_set h _

/-- Of each core and each cluster, only the counter banks differ between two states. -/
structure State.SameBanked (s u : State) : Prop where
  eq : u = { s with cores := u.cores, clusters := u.clusters }
  coresWf : Table.wf Core.reset s.cores = true → Table.wf Core.reset u.cores = true
  clustersWf : Table.wf Cluster.reset s.clusters = true → Table.wf Cluster.reset u.clusters = true
  core : Table.wf Core.reset s.cores = true → ∀ loc, u.core loc = { s.core loc with banks := (u.core loc).banks }
  cluster : Table.wf Cluster.reset s.clusters = true → ∀ k, u.cluster k = { s.cluster k with seqBanks := (u.cluster k).seqBanks }

theorem State.SameBanked.refl (s : State) : s.SameBanked s := ⟨rfl, id, id, fun _ _ => rfl, fun _ _ => rfl⟩

theorem State.SameBanked.trans {s t u : State} (h : s.SameBanked t) (h' : t.SameBanked u) : s.SameBanked u where
  eq := by rw [h'.eq, h.eq]
  coresWf hs := h'.coresWf (h.coresWf hs)
  clustersWf hs := h'.clustersWf (h.clustersWf hs)
  core hs loc := by rw [h'.core (h.coresWf hs), h.core hs]
  cluster hs k := by rw [h'.cluster (h.clustersWf hs), h.cluster hs]

/-- Counting an event changes counter banks alone. -/
theorem State.countAt_sameBanked (s : State) (launch : Nat) (loc : Loc) (event n : Nat) : s.SameBanked (s.countAt launch loc event n) := by
  unfold State.countAt
  split
  · exact .refl s
  · split
    · exact .refl s
    · simp only
      split
      · refine ⟨rfl, id, Table.wf_set, fun _ _ => rfl, fun hs k => ?_⟩
        rw [State.cluster_setCluster hs]
        split
        · rename_i hk
          rw [hk]
        · rfl
      · refine ⟨rfl, Table.wf_set, id, fun hs l => ?_, fun _ _ => rfl⟩
        rw [State.core_setCore hs]
        split
        · rename_i hk
          rw [State.core_congr s hk]
        · rfl

/-- Counting several events, one after the other. -/
theorem State.SameBanked.foldl {α : Type} {s : State} {g : State → α → State} (hg : ∀ (u : State) (a : α), u.SameBanked (g u a)) (as : List α) :
    s.SameBanked (as.foldl g s) :=
  List.foldlRecOn as g (motive := s.SameBanked) (.refl s) fun u hu a _ => hu.trans (hg u a)

theorem State.countTiming_sameBanked (s : State) : s.SameBanked s.countTiming :=
  .foldl (fun u _ => (u.countAt_sameBanked ..).trans (.foldl (fun (w : State) _ => w.countAt_sameBanked ..) _)) _

/-- Time passing leaves the open run, the agenda and what holds the dies. -/
theorem State.tick_eq (s : State) : s.tick = { s with
    cores := s.tick.cores, clusters := s.tick.clusters, ns := s.tick.ns, cyc := s.tick.cyc, freeIdx := s.tick.freeIdx } := by
  unfold State.tick
  simp only
  split
  · rw [s.countTiming_sameBanked.eq]
  · rfl

end Sys2Proof.Machine
end

section
/-! PROOFS. The order of groups, of warps and of acts between runs (04_control.md R55, R56; 11_matrix.md R222; 17_system.md R386 to
R389; 02_formats.md R33). -/

namespace Sys2Proof.Machine

/-! Groups. -/

/-- The head of an increasing list that holds `l` is `l` where `l` is its least element. -/
theorem headD_eq_iff_le {xs : List Nat} {l : Nat} (hs : xs.Pairwise (· < ·)) (hl : l ∈ xs) (d : Nat) :
    xs.headD d = l ↔ ∀ x ∈ xs, l ≤ x := by
  cases xs with
  | nil => cases hl
  | cons y r =>
    have hy : ∀ x ∈ r, y < x := (List.pairwise_cons.mp hs).1
    simp only [List.headD_cons, List.mem_cons, forall_eq_or_imp]
    constructor
    · rintro rfl
      exact ⟨le_rfl, fun x hx => (hy x hx).le⟩
    · rintro ⟨hly, -⟩
      rcases List.mem_cons.mp hl with rfl | hlr
      · rfl
      · have := hy l hlr
        omega

/-- A group's leader is its lowest lane. -/
theorem Ctx.mem_leaders {c : Ctx} {ls : List Nat} (hs : ls.Pairwise (· < ·)) {l : Nat} :
    l ∈ c.leaders ls ↔ l ∈ ls ∧ ∀ x ∈ ls, (c.lane x).pc = (c.lane l).pc → l ≤ x := by
  simp only [Ctx.leaders, List.mem_filter, beq_iff_eq]
  refine and_congr_right fun hl => ?_
  have hmem : l ∈ c.groupAt ls (c.lane l).pc := List.mem_filter.mpr ⟨hl, beq_self_eq_true _⟩
  have hsorted : (c.groupAt ls (c.lane l).pc).Pairwise (· < ·) := hs.filter _
  rw [headD_eq_iff_le hsorted hmem]
  simp [Ctx.groupAt]

/-- The first leader is the lowest lane of all. -/
theorem Ctx.head_leaders {c : Ctx} {ls : List Nat} (hs : ls.Pairwise (· < ·)) (hne : ls ≠ []) :
    ∃ l, (c.leaders ls).head? = some l ∧ l ∈ c.leaders ls ∧ ∀ x ∈ ls, l ≤ x := by
  cases ls with
  | nil => exact absurd rfl hne
  | cons y r =>
    have hle : ∀ x ∈ y :: r, y ≤ x := by
      simpa using fun x hx => ((List.pairwise_cons.mp hs).1 x hx).le
    have hy : y ∈ c.leaders (y :: r) := (Ctx.mem_leaders hs).mpr ⟨List.mem_cons_self, fun x hx _ => hle x hx⟩
    refine ⟨y, ?_, hy, hle⟩
    rw [Ctx.leaders, List.filter_cons, if_pos (List.mem_filter.mp hy).2, List.head?_cons]

/-- What an increasing list finds first is the least it could find. -/
theorem find?_least {xs : List Nat} (hs : xs.Pairwise (· < ·)) {p : Nat → Bool} {l : Nat} (h : xs.find? p = some l) :
    ∀ x ∈ xs, p x = true → l ≤ x := by
  obtain ⟨-, as, bs, rfl, has⟩ := List.find?_eq_some_iff_append.mp h
  intro x hx hp
  have hlb : ∀ y ∈ bs, l < y := (List.pairwise_cons.mp (List.pairwise_append.mp hs).2.1).1
  rcases List.mem_append.mp hx with ha | hb
  · exact absurd hp (by simpa using has x ha)
  · rcases List.mem_cons.mp hb with rfl | hb
    · exact le_rfl
    · exact (hlb x hb).le

/-- The group issued next is that of the next higher leader, or else that of the lowest lane (R56). -/
theorem Ctx.nextGroup_leader (c : Ctx) {ls : List Nat} (hs : ls.Pairwise (· < ·)) (hne : ls ≠ []) :
    ∃ l ∈ c.leaders ls, c.nextGroup ls = c.groupAt ls (c.lane l).pc
      ∧ ((∃ k, c.last = some k ∧ k < l ∧ ∀ x ∈ c.leaders ls, k < x → l ≤ x)
        ∨ (∀ k, c.last = some k → ∀ x ∈ c.leaders ls, x ≤ k) ∧ ∀ x ∈ ls, l ≤ x) := by
  obtain ⟨h, hhead, hmem, hle⟩ := c.head_leaders hs hne
  have hleaders : (c.leaders ls).Pairwise (· < ·) := hs.filter _
  unfold Ctx.nextGroup
  cases hlast : c.last with
  | none => exact ⟨h, hmem, by simp [hhead], .inr ⟨by simp, hle⟩⟩
  | some k =>
    cases hfind : (c.leaders ls).find? fun l => decide (k < l) with
    | none =>
      refine ⟨h, hmem, by simp [hhead, hfind], .inr ⟨?_, hle⟩⟩
      rintro _ ⟨⟩
      simpa using hfind
    | some l =>
      have hkl : k < l := by simpa using List.find?_some hfind
      refine ⟨l, List.mem_of_find?_eq_some hfind, by simp [hfind], .inl ⟨k, rfl, hkl, fun x hx hkx => ?_⟩⟩
      exact find?_least hleaders hfind x hx (by simpa using hkx)

/-! Which warp most runs have passed. -/

/-- Of a context already chosen and another, the one with the greater measure, the earlier where they are equal. -/
def greater (m : Ctx → Nat) (b : Option Ctx) (c : Ctx) : Option Ctx :=
  match b with
  | some x => if m x < m c then some c else some x
  | none => some c

/-- The choice of a greatest context goes on from the greatest so far. -/
theorem foldl_greater_some (m : Ctx → Nat) (cs : List Ctx) (b : Ctx) :
    ∃ x, cs.foldl (greater m) (some b) = some x ∧ (x = b ∨ x ∈ cs) ∧ m b ≤ m x ∧ ∀ y ∈ cs, m y ≤ m x := by
  induction cs generalizing b with
  | nil => exact ⟨b, rfl, .inl rfl, le_rfl, by simp⟩
  | cons c r ih =>
    simp only [List.foldl_cons, greater, List.mem_cons, forall_eq_or_imp]
    split
    · obtain ⟨x, hx, hmem, hc, hr⟩ := ih c
      exact ⟨x, hx, .inr hmem, by omega, hc, hr⟩
    · obtain ⟨x, hx, hmem, hb, hr⟩ := ih b
      exact ⟨x, hx, hmem.imp_right .inr, hb, by omega, hr⟩

/-- A greatest context is chosen from every list but the empty one. -/
theorem foldl_greater (m : Ctx → Nat) (cs : List Ctx) :
    (cs = [] ∧ cs.foldl (greater m) none = none)
    ∨ ∃ x, cs.foldl (greater m) none = some x ∧ x ∈ cs ∧ ∀ y ∈ cs, m y ≤ m x := by
  cases cs with
  | nil => exact .inl ⟨rfl, rfl⟩
  | cons c r =>
    obtain ⟨x, hx, hmem, hc, hr⟩ := foldl_greater_some m r c
    exact .inr ⟨x, hx, by simpa using hmem, by simpa using ⟨hc, hr⟩⟩

/-- The warp that most runs of others have passed, as a choice of the greatest. -/
theorem mostPassed_eq (rdy : List Ctx) : mostPassed rdy = rdy.foldl (greater Ctx.passed) none := rfl

/-- No warp is overdue where none is at its limit. -/
theorem overdue_eq_none {rdy : List Ctx} : overdue rdy = none ↔ ∀ x ∈ rdy, atLimit rdy x = false := by
  unfold overdue
  split
  case isTrue h =>
    obtain ⟨y, hy, hlim⟩ := List.any_eq_true.mp h
    rcases foldl_greater Ctx.passed rdy with ⟨rfl, -⟩ | ⟨x, hx, -⟩
    · cases hy
    · rw [mostPassed_eq, hx]
      exact iff_of_false (by simp) fun hn => by simp [hn y hy] at hlim
  case isFalse h => exact iff_of_true rfl (by simpa using h)

/-- The overdue warp is the one that most runs have passed, with some warp at its limit. -/
theorem overdue_eq_some {rdy : List Ctx} {x : Ctx} (h : overdue rdy = some x) :
    x ∈ rdy ∧ (∃ y ∈ rdy, atLimit rdy y = true) ∧ ∀ y ∈ rdy, y.passed ≤ x.passed := by
  unfold overdue at h
  split at h
  case isTrue hany =>
    rcases foldl_greater Ctx.passed rdy with ⟨-, hn⟩ | ⟨z, hz, hmem, hmax⟩
    · rw [mostPassed_eq, hn] at h
      cases h
    · rw [mostPassed_eq, hz] at h
      cases h
      exact ⟨hmem, List.any_eq_true.mp hany, hmax⟩
  case isFalse => cases h

/-! The active set of a core. -/

/-- The counts of warps that leave an active set change counter banks alone. -/
theorem State.swapOut_sameBanked (s : State) (l : Loc) (out : List Nat) :
    (s.setCore l { s.core l with active := (s.core l).active.filter fun i => !out.contains i }).SameBanked (s.swapOut l out) :=
  .foldl (fun u i => by
    split
    · exact u.countAt_sameBanked ..
    · exact .refl u) out

/-- The cores stay in canonical form. -/
theorem State.swapOut_wf {s : State} (h : Table.wf Core.reset s.cores = true) (l : Loc) (out : List Nat) :
    Table.wf Core.reset (s.swapOut l out).cores = true :=
  (s.swapOut_sameBanked l out).coresWf (Table.wf_set h)

/-- The active set without the warps that leave it. -/
theorem State.swapOut_active {s : State} (h : Table.wf Core.reset s.cores = true) (l : Loc) (out : List Nat) :
    ((s.swapOut l out).core l).active = (s.core l).active.filter fun i => !out.contains i := by
  rw [(s.swapOut_sameBanked l out).core (Table.wf_set h), State.core_setCore h, if_pos rfl]

/-- At most eight warps are active after a refresh (R386). -/
theorem State.refreshActive_length {s : State} {l : Loc} (h : Table.wf Core.reset s.cores = true)
    (h8 : (s.core l).active.length ≤ 8) : ((s.refreshActive l).core l).active.length ≤ 8 := by
  have hcore : ∀ (u : State) (cs : List Ctx), ({ u with ctxs := cs } : State).core l = u.core l := fun _ _ => rfl
  unfold State.refreshActive
  simp only [hcore, State.core_setCore (s.swapOut_wf h l _), if_true, List.length_append, List.length_map, List.length_take,
    s.swapOut_active h]
  generalize hp : (fun i : Nat => !List.contains _ i) = p
  have : ((s.core l).active.filter p).length ≤ 8 := (List.length_filter_le p _).trans h8
  omega

/-- The warp that makes room for an overdue one is an active one. -/
theorem evicted_mem {act : List Nat} (h : act ≠ []) (m : Ctx → Nat) (rdy : List Ctx) :
    ((((rdy.filter fun x => act.contains x.id).foldl (greater m) none).map fun x => x.id).getD (act.headD 0)) ∈ act := by
  rcases foldl_greater m (rdy.filter fun x => act.contains x.id) with ⟨-, hn⟩ | ⟨x, hx, hmem, -⟩
  · rw [hn]
    cases act with
    | nil => exact absurd rfl h
    | cons y r => exact List.mem_cons_self
  · rw [hx]
    exact List.contains_iff_mem.mp (List.mem_filter.mp hmem).2

/-- An overdue warp is let into the active set, which keeps its bound. -/
theorem State.letIn_active {s : State} {l : Loc} (rdy : List Ctx) (x : Ctx) (h : Table.wf Core.reset s.cores = true)
    (h8 : (s.core l).active.length ≤ 8) :
    ((s.letIn l rdy x).core l).active.length ≤ 8 ∧ x.id ∈ ((s.letIn l rdy x).core l).active := by
  unfold State.letIn
  simp only
  split
  case isTrue hin => exact ⟨h8, List.contains_iff_mem.mp hin⟩
  case isFalse =>
    split
    case isTrue hlt =>
      rw [State.core_setCore h, if_pos rfl]
      exact ⟨by simpa using hlt, by simp⟩
    case isFalse hge =>
      have hne : (s.core l).active ≠ [] := fun h0 => hge (by simp [h0])
      have hleft : ∀ i : Nat, ¬ (!([i] : List Nat).contains i) = true := by simp
      have hout := evicted_mem hne Ctx.streak rdy
      rw [State.core_setCore (s.swapOut_wf h l _), if_pos rfl]
      simp only [s.swapOut_active h, List.length_append, List.length_singleton, List.mem_append, List.mem_singleton, or_true, and_true]
      refine (Nat.succ_le_of_lt ?_).trans h8
      exact List.length_filter_lt_length_iff_exists.mpr ⟨_, hout, hleft _⟩

/-! The warps of a core in the order of their wait. -/

theorem mem_insertBehind {c x : Ctx} {cs : List Ctx} : x ∈ insertBehind c cs ↔ x = c ∨ x ∈ cs := by
  induction cs with
  | nil => simp [insertBehind]
  | cons y r ih =>
    unfold insertBehind
    split
    · simp
    · simp only [List.mem_cons, ih]
      tauto

/-- Put among those that have waited longer, a context keeps the list in the order of its wait. -/
theorem insertBehind_pairwise {c : Ctx} {cs : List Ctx} (h : cs.Pairwise (·.behind ≤ ·.behind)) :
    (insertBehind c cs).Pairwise (·.behind ≤ ·.behind) := by
  induction cs with
  | nil => simp [insertBehind]
  | cons y r ih =>
    obtain ⟨hy, hr⟩ := List.pairwise_cons.mp h
    unfold insertBehind
    split
    case isTrue hlt =>
      refine List.pairwise_cons.mpr ⟨?_, h⟩
      simpa using ⟨hlt.le, fun x hx => hlt.le.trans (hy x hx)⟩
    case isFalse hge =>
      refine List.pairwise_cons.mpr ⟨fun x hx => ?_, ih hr⟩
      rcases mem_insertBehind.mp hx with rfl | hx
      · omega
      · exact hy x hx

/-- The warps of a core stand in the order of their wait. -/
theorem State.warpsAt_pairwise (s : State) (l : Loc) : (s.warpsAt l).Pairwise (·.behind ≤ ·.behind) :=
  List.foldlRecOn _ _ (motive := fun cs : List Ctx => cs.Pairwise (·.behind ≤ ·.behind)) List.Pairwise.nil
    fun _ h _ _ => insertBehind_pairwise h

/-! The begin of a run. -/

/-- A sequencer context begins its run where no ready one of its cluster has waited longer (R222). -/
theorem State.schedule_seq {s : State} {c : Ctx} (hc : s.ctx? c.id = some c) (hk : c.kind = .seq) :
    s.schedule c.id =
      if s.ctxs.any fun x => x.kind == .seq && clusterKey x.loc == clusterKey c.loc && decide (x.behind < c.behind) && s.ready x then none
      else s.beginRun c.id := by
  simp [State.schedule, hc, hk]

/-- The ready warps of a core. -/
def State.readyAt (s : State) (l : Loc) : List Ctx := (s.warpsAt l).filter s.ready

/-- The ready active warps of a core. -/
def State.readyActive (s : State) (l : Loc) : List Ctx := (s.readyAt l).filter fun x => (s.core l).active.contains x.id

theorem State.mem_readyActive {s : State} {l : Loc} {x : Ctx} :
    x ∈ s.readyActive l ↔ x ∈ (s.warpsAt l).filter s.ready ∧ x.id ∈ (s.core l).active := by
  rw [State.readyActive, State.readyAt, List.mem_filter, List.contains_iff_mem]

/-- The ready active warps stand in the order of their wait. -/
theorem State.readyActive_pairwise (s : State) (l : Loc) : (s.readyActive l).Pairwise (·.behind ≤ ·.behind) :=
  ((s.warpsAt_pairwise l).filter _).filter _

/-- The first ready active warp has waited longest. -/
theorem State.readyActive_head {s : State} {l : Loc} {x : Ctx} (h : (s.readyActive l).head? = some x) :
    x ∈ s.readyActive l ∧ ∀ y ∈ s.readyActive l, x.behind ≤ y.behind := by
  obtain ⟨r, hr⟩ := List.head?_eq_some_iff.mp h
  have hs := s.readyActive_pairwise l
  rw [hr] at hs ⊢
  simpa using (List.pairwise_cons.mp hs).1

/-- Of a core an overdue warp begins its run, let into the active set (R389). -/
theorem State.schedule_overdue {s : State} {c x : Ctx} (hc : s.ctx? c.id = some c) (hk : c.kind ≠ .seq)
    (hx : overdue ((s.refreshActive c.loc).readyAt c.loc) = some x) : s.schedule c.id =
      ((s.refreshActive c.loc).letIn c.loc ((s.refreshActive c.loc).readyAt c.loc) x).beginRun x.id := by
  unfold State.readyAt at hx ⊢
  simp [State.schedule, hc, hk, hx]

/-- Whether a context begins its run where `x` is first: it is that one, or both are of width 16 (R386). -/
def beginsWith (act : List Ctx) (c x : Ctx) : Prop := x.id = c.id ∨ x.width = 16 ∧ c.width = 16 ∧ ∃ y ∈ act, y.id = c.id

/-- Of a core without an overdue warp the first ready active warp decides which run begins (R386). -/
theorem State.schedule_head {s : State} {c x : Ctx} (hc : s.ctx? c.id = some c) (hk : c.kind ≠ .seq)
    (ho : overdue ((s.refreshActive c.loc).readyAt c.loc) = none)
    (hx : ((s.refreshActive c.loc).readyActive c.loc).head? = some x)
    (hb : beginsWith ((s.refreshActive c.loc).readyActive c.loc) c x) : s.schedule c.id = (s.refreshActive c.loc).beginRun c.id := by
  unfold beginsWith at hb
  unfold State.readyActive State.readyAt at hx hb
  unfold State.readyAt at ho
  simp only [State.schedule, hc, ho, hx, beq_iff_eq, if_neg hk, Bool.or_eq_true, Bool.and_eq_true, List.any_eq_true, and_assoc]
  exact if_pos hb

/-- Where a run begins of a core without an overdue warp, the first ready active warp admits it (R386). -/
theorem State.head_of_schedule {s t : State} {c : Ctx} (hc : s.ctx? c.id = some c) (hk : c.kind ≠ .seq)
    (ho : overdue ((s.refreshActive c.loc).readyAt c.loc) = none) (ht : s.schedule c.id = some t) :
    (s.refreshActive c.loc).beginRun c.id = some t ∧ ∃ x, ((s.refreshActive c.loc).readyActive c.loc).head? = some x
      ∧ beginsWith ((s.refreshActive c.loc).readyActive c.loc) c x := by
  unfold beginsWith State.readyActive State.readyAt
  unfold State.readyAt at ho
  simp only [State.schedule, hc, ho, beq_iff_eq, if_neg hk, Bool.or_eq_true, Bool.and_eq_true, List.any_eq_true, and_assoc] at ht
  split at ht
  case h_1 x hx =>
    split at ht
    case isTrue hb => exact ⟨ht, x, hx, hb⟩
    case isFalse => cases ht
  case h_2 => cases ht

/-! Events and turns. -/

/-- Of the acts between runs that are no instruction, all but a reset and the acts of the management port are events. -/
theorem exec_of_no_view {i : Instr} (h : i.view = none) (s : State) :
    (∃ r, exec i s = event s r)
    ∨ ((∃ r, exec i s = always s r)
      ∧ ((∃ tj, i = .thermalTrip tj) ∨ (∃ m, i = .pldmFirmwareUpdate m) ∨ (∃ n, i = .pldmMonitoring n) ∨ i = .spdm))
    ∨ i = .deviceReset := by
  cases i <;> cases h
  case deviceReset => exact .inr (.inr rfl)
  case thermalTrip tj => exact .inr (.inl ⟨⟨_, rfl⟩, .inl ⟨tj, rfl⟩⟩)
  case pldmFirmwareUpdate m => exact .inr (.inl ⟨⟨some { s with newImage := some m }, rfl⟩, .inr (.inl ⟨m, rfl⟩)⟩)
  case pldmMonitoring n => exact .inr (.inl ⟨⟨_, rfl⟩, .inr (.inr (.inl ⟨n, rfl⟩))⟩)
  case spdm => exact .inr (.inl ⟨⟨some (s.answer s.spdmAnswer), rfl⟩, .inr (.inr (.inr rfl))⟩)
  case hearthEvaluation | hcancel | hkeyfree | cap0Write | pwrlimWrite | currentSample =>
    left
    simp only [exec, execHearthEvaluation, execHcancel, execHkeyfree, execCap0Write, execPwrlimWrite, execCurrentSample]
    exact ⟨_, rfl⟩
  all_goals exact .inl ⟨_, rfl⟩

/-- No event happens while a run is open, or the dies are held. -/
theorem event_held {s : State} (h : s.run.isSome = true ∨ s.tripped = true ∨ s.recovery = true) (r : Option State) :
    event s r = .fault .notEnabled :=
  if_pos (by simpa [or_assoc] using h)

/-- No act of the management port happens while a run is open. -/
theorem always_running {s : State} (h : s.run.isSome = true) (r : Option State) : always s r = .fault .notEnabled := by
  cases r with
  | none => rfl
  | some t => exact if_pos h

/-- Between runs a step performs the first act of the agenda. -/
theorem step_agenda {s : State} (h : s.run = none) {a : Turn} {rest : List Turn} (ha : s.agenda = a :: rest) :
    step s = .next ((({ s.tick with agenda := rest } : State).act a).track) := by
  have htick : s.tick.agenda = a :: rest := by rw [s.tick_eq]; exact ha
  rw [step_turn h, State.turn]
  simp only [htick]

/-- A run that the agenda names begins as the scheduler lets it. -/
theorem State.act_run {s : State} (ht : s.tripped = false) (hr : s.recovery = false) (cid : Nat) :
    s.act (.run cid) = (s.schedule cid).getD s.leaveActive := by
  simp [State.act, ht, hr]

/-- An event that the agenda names happens where it is possible. -/
theorem State.act_event {s t : State} {j : Instr} (h : exec j s = .next t) : s.act (.event j) = t := by
  simp [State.act, State.tryEvent, h]

/-- Settles O53: each clause is the lemma above it about groups, the active set, the scheduler or the agenda. -/
theorem eventsComeBetweenRuns : Obligations.EventsComeBetweenRuns := by
  unfold Obligations.EventsComeBetweenRuns
  intro i s hi
  refine ⟨fun hrun => ?_, fun hheld => ?_, rfl, fun hrun htrip hrec rest => ?_, fun c ls hs hne => ?_, fun rdy => ?_,
    fun l rdy x hwf h8 => ?_, fun c hc => ⟨fun hk => ?_, fun hk => ?_⟩⟩
  · rcases exec_of_no_view hi s with ⟨r, hr⟩ | ⟨⟨r, hr⟩, -⟩ | hreset
    · exact .inl (by rw [hr, event_held (.inl hrun)])
    · exact .inl (by rw [hr, always_running hrun])
    · exact .inr hreset
  · rcases exec_of_no_view hi s with ⟨r, hr⟩ | ⟨-, hport⟩ | hreset
    · exact .inl (by rw [hr, event_held (.inr hheld)])
    · exact .inr (.inr hport)
    · exact .inr (.inl hreset)
  · have htick : ({ s.tick with agenda := rest } : State).tripped = false ∧ ({ s.tick with agenda := rest } : State).recovery = false := by
      rw [s.tick_eq]
      exact ⟨htrip, hrec⟩
    refine ⟨fun cid ha => ?_, fun j t ha hj => ?_⟩
    · rw [step_agenda hrun ha, State.act_run htick.1 htick.2]
    · rw [step_agenda hrun ha, State.act_event hj]
  · obtain ⟨l, hl, hgroup, hnext⟩ := c.nextGroup_leader hs hne
    simp only [← Ctx.mem_leaders hs]
    refine ⟨l, hl, hgroup, ?_⟩
    rcases hnext with ⟨k, hk, hkl, hleast⟩ | ⟨hlast, hlow⟩
    · rw [hk]
      refine ⟨by simp, ?_⟩
      rintro _ ⟨⟩
      exact ⟨fun _ x hx => hleast x hx, fun hlk => absurd hkl (by omega)⟩
    · exact ⟨fun _ => hlow, fun k hk => ⟨fun hkl x hx hkx => absurd (hlast k hk x hx) (by omega), fun _ => ⟨hlast k hk, hlow⟩⟩⟩
  · have hlimit : ∀ x, atLimit rdy x = true ↔ 128 < x.passed + (rdy.filter fun y => decide (x.passed ≤ y.passed)).length :=
      fun x => decide_eq_true_iff
    simp only [← hlimit, Bool.not_eq_true]
    exact ⟨overdue_eq_none, fun x hx => overdue_eq_some hx⟩
  · exact ⟨s.refreshActive_length hwf h8, s.letIn_active rdy x hwf h8⟩
  · simp only [State.schedule_seq hc hk, List.any_eq_true, Bool.and_eq_true, beq_iff_eq, decide_eq_true_eq, and_assoc]
    exact ⟨fun h => if_pos h, fun h => if_neg h⟩
  · refine ⟨fun x hx => State.schedule_overdue hc hk hx, fun ho => ?_⟩
    simp only [← State.mem_readyActive]
    refine ⟨fun t ht => ?_, fun x hx hfirst hb => ?_⟩
    · obtain ⟨hbegin, x, hhead, hwith⟩ := State.head_of_schedule hc hk ho ht
      obtain ⟨hx, hleast⟩ := State.readyActive_head hhead
      exact ⟨hbegin, x, hx, hleast, hwith⟩
    · cases hact : ((s.refreshActive c.loc).readyActive c.loc).head? with
      | none => simp [List.head?_eq_none_iff.mp hact] at hx
      | some h =>
        obtain ⟨hmem, hleast⟩ := State.readyActive_head hact
        have hhx : h = x := by
          by_contra hne
          exact absurd (hleast x hx) (by have := hfirst h hmem hne; omega)
        exact State.schedule_head hc hk ho hact (hhx ▸ hb)

end Sys2Proof.Machine
end

section
/-! PROOFS. Whatever the machine does to memory, registers, tables, operations and contexts, it leaves the open run alone
(02_formats.md R33): only a trap, a commit and the end of a context touch it. Here the operations that end no context. -/

namespace Sys2Proof.Machine

/-! Folds. -/

/-- A fold of steps that leave the open run leaves it. -/
theorem State.foldl_run {α : Type} {g : State → α → State} (hg : ∀ u a, (g u a).run = u.run) (as : List α) (s : State) :
    (as.foldl g s).run = s.run :=
  List.foldlRecOn as g (motive := fun t => t.run = s.run) rfl fun u hu a _ => (hg u a).trans hu

/-- The same where each step answers something beside the state. -/
theorem State.foldl_fst_run {α β : Type} {g : State × β → α → State × β} (hg : ∀ p a, (g p a).1.run = p.1.run) (as : List α)
    (p : State × β) : (as.foldl g p).1.run = p.1.run :=
  List.foldlRecOn as g (motive := fun t => t.1.run = p.1.run) rfl fun u hu a _ => (hg u a).trans hu

/-! Registers, memory and translation. -/

@[simp] theorem State.bumpReg_run (s : State) (die off : Nat) : (s.bumpReg die off).run = s.run := rfl

@[simp] theorem State.errIrq_run (s : State) (die : Nat) : (s.errIrq die).run = s.run := by
  simp only [State.errIrq]
  split <;> rfl

@[simp] theorem State.countError_run (s : State) (die cluster core unit addr : Nat) :
    (s.countError die cluster core unit addr).run = s.run := by
  simp [State.countError]

@[simp] theorem State.countUnc_run (s : State) (pa : Nat) : (s.countUnc pa).run = s.run := by
  simp [State.countUnc]

@[simp] theorem State.putBytes_run (s : State) (pa : Nat) (bs : List Byte) : (s.putBytes pa bs).run = s.run := by
  rw [s.putBytes_eq]

@[simp] theorem State.wr_run (s : State) (pa : Nat) (bs : List Byte) : (s.wr pa bs).run = s.run := by
  rw [s.wr_eq]

@[simp] theorem State.wrN_run (s : State) (pa n x : Nat) : (s.wrN pa n x).run = s.run := s.wr_run ..

@[simp] theorem State.heat_run (s : State) (ea : Nat) (t : AccessType) : (s.heat ea t).run = s.run := by
  unfold State.heat
  extract_lets e lo h
  split
  · rfl
  · exact s.putBytes_run ..

@[simp] theorem State.tlbFill_run (s : State) (die : Nat) (units : List Nat) (va ea : Nat) (e : W64) (large : Bool) :
    (s.tlbFill die units va ea e large).run = s.run := rfl

@[simp] theorem State.pushNotice_run (s : State) (die : Nat) (w0 w1 : W64) : (s.pushNotice die w0 w1).run = s.run := by
  simp [State.pushNotice]

@[simp] theorem State.postNotice_run (s : State) (w : Who) (va kind : Nat) : (s.postNotice w va kind).run = s.run := by
  simp only [State.postNotice]
  split
  · rfl
  · split <;> simp

@[simp] theorem State.noticeLanes_run (s : State) (w : Who) (accs : List Acc) : (s.noticeLanes w accs).run = s.run :=
  State.foldl_run (fun _ _ => State.postNotice_run ..) accs s

@[simp] theorem State.countMigration_run (s : State) (w : Who) (va ea : Nat) (e : W64) (pa : Nat) :
    (s.countMigration w va ea e pa).run = s.run := by
  grind [State.countMigration, State.putBytes_run, State.pushNotice_run, State.setReg_run]

@[simp] theorem State.translateRaw_run (s : State) (w : Who) (va size : Nat) (t : AccessType) :
    (s.translateRaw w va size t).1.run = s.run := by
  unfold State.translateRaw
  split
  · rfl
  · extract_lets hit
    split
    case h_4 ea e large _ =>
      extract_lets pa reaches s0 s1 ok
      split
      · rfl
      · have h0 : s0.run = s.run := by
          simp only [s0]
          split <;> simp
        have h1 : s1.run = s.run := by
          simp only [s1]
          split <;> simp [h0]
        split <;> simp [h1]
    all_goals rfl

@[simp] theorem State.translate_run (s : State) (w : Who) (va size : Nat) (t : AccessType) :
    (s.translate w va size t).1.run = s.run := by
  grind [State.translate, State.translateRaw_run]

@[simp] theorem State.resolve_run (s : State) (w : Who) (space : Nat) (addr : W64) (size : Nat) (t : AccessType) :
    (s.resolve w space addr size t).1.run = s.run := by
  grind [State.resolve, State.translate_run]

@[simp] theorem State.reach_run (s : State) (w : Who) (va size : Nat) (t : AccessType) : (s.reach w va size t).1.run = s.run := by
  grind [State.reach, State.translate_run, State.countUnc_run]

@[simp] theorem State.tryAccess_run (s : State) (w : Who) (space esz : Nat) (addr : W64) (t : AccessType) (atomic : Bool) :
    (s.tryAccess w space esz addr t atomic).1.run = s.run := by
  grind [State.tryAccess, State.translateRaw_run, State.resolve_run, State.countUnc_run]

@[simp] theorem State.ringAt_run (s : State) (w : Who) (space : Nat) (base : W64) : (s.ringAt w space base).1.run = s.run := by
  grind [State.ringAt, State.tryAccess_run]

@[simp] theorem State.xlat_run (s : State) (w : Who) (addr : W64) : (s.xlat w addr).1.run = s.run := by
  grind [State.xlat, State.countUnc_run]

@[simp] theorem State.readFree_run (s : State) (pa n : Nat) : (s.readFree pa n).1.run = s.run := by
  grind [State.readFree, State.countUnc_run]

@[simp] theorem State.rdVa_run (s : State) (w : Who) (va n : Nat) : (s.rdVa w va n).1.run = s.run :=
  State.foldl_fst_run (fun p a => by grind [State.reach_run, State.readFree_run]) _ (s, some [])

@[simp] theorem State.wrVa_run (s : State) (w : Who) (va : Nat) (bs : List Byte) : (s.wrVa w va bs).run = s.run :=
  State.foldl_fst_run (fun p a => by grind [State.reach_run, State.wr_run]) _ (s, bs)

@[simp] theorem State.mapWords_run (s : State) (l : Loc) (off : Nat) (ws : List (Nat × W32)) : (s.mapWords l off ws).run = s.run :=
  State.foldl_run (fun _ _ => State.wr_run ..) ws s

@[simp] theorem State.scrambleFile_run (s : State) (l : Loc) : (s.scrambleFile l).run = s.run := by
  simp only [State.scrambleFile, State.putBytes_run]

/-! Counters, traces, logs. -/

@[simp] theorem State.countAt_run (s : State) (launch : Nat) (loc : Loc) (event n : Nat) : (s.countAt launch loc event n).run = s.run := by
  rw [(s.countAt_sameBanked launch loc event n).eq]

@[simp] theorem State.addLog_run (s : State) (l : Loc) (e : LogEntry) : (s.addLog l e).run = s.run := by
  simp [State.addLog]

@[simp] theorem State.pushLog_run (s : State) (c : Ctx) (pc : W64) (code : Nat) (act : Act) : (s.pushLog c pc code act).run = s.run :=
  s.addLog_run ..

@[simp] theorem State.putAs_run (s : State) (die cl pa : Nat) (bs : List Byte) : (s.putAs die cl pa bs).run = s.run := by
  unfold State.putAs
  split
  · exact s.wr_run ..
  · rfl

@[simp] theorem State.tracePut_run (s : State) (die cl : Nat) (bs : List Byte) : (s.tracePut die cl bs).run = s.run := by
  simp [State.tracePut]

@[simp] theorem State.askSync_run (s : State) (die cl : Nat) : (s.askSync die cl).run = s.run := rfl

@[simp] theorem State.traceRaw_run (s : State) (c : Ctx) (kind : Nat) (body : List Byte) : (s.traceRaw c kind body).run = s.run := by
  simp only [State.traceRaw]
  split
  · split <;> simp
  · split <;> simp

@[simp] theorem State.traceLead_run (s : State) (cid : Nat) : (s.traceLead cid).run = s.run := by
  unfold State.traceLead
  split
  · rfl
  · simp only
    split <;> split <;> simp

@[simp] theorem State.trace_run (s : State) (cid kind : Nat) (body : List Byte) : (s.trace cid kind body).run = s.run := by
  unfold State.trace
  split
  · rfl
  · split
    · rfl
    · simp only
      split <;> simp

@[simp] theorem State.traceBoundary_run (s : State) (cid : Nat) : (s.traceBoundary cid).run = s.run := by
  unfold State.traceBoundary
  split
  · split <;> simp
  · rfl

/-! Operations, records, sessions. -/

@[simp] theorem State.finishOp_run (s : State) (id : Nat) (r : Result) : (s.finishOp id r).run = s.run := rfl

@[simp] theorem State.unqueue_run (s : State) (id : Nat) : (s.unqueue id).run = s.run := rfl

@[simp] theorem State.endWaits_run (s : State) (pa : Nat) (p : Nat → Bool) (rec : Option Nat) : (s.endWaits pa p rec).run = s.run := rfl

@[simp] theorem State.updOvertaken_run (s : State) (g : Op → Overtaken → Overtaken) : (s.updOvertaken g).run = s.run := by
  unfold State.updOvertaken
  split <;> rfl

@[simp] theorem State.noteWrite_run (s : State) (ctx pa n : Nat) : (s.noteWrite ctx pa n).run = s.run := s.updOvertaken_run _

@[simp] theorem State.hearRelease_run (s : State) (own : Option Nat) (pa : Nat) : (s.hearRelease own pa).run = s.run :=
  s.updOvertaken_run _

@[simp] theorem State.newRecord_run (s : State) (w : Who) (bytes : List Byte) : (s.newRecord w bytes).1.run = s.run := by
  grind [State.newRecord, State.reach_run, State.countUnc_run, State.wrN_run, State.wr_run]

@[simp] theorem State.barrierRecord_run (s : State) (w : Who) (nm : Named) (detail cause : Nat) (addr aux : W64) :
    (s.barrierRecord w nm detail cause addr aux).1.run = s.run := s.newRecord_run ..

@[simp] theorem State.ctxRecord_run (s : State) (c : Ctx) (opc token detail cause lane : Nat) (pc addr aux : W64) :
    (s.ctxRecord c opc token detail cause lane pc addr aux).1.run = s.run := s.newRecord_run ..

@[simp] theorem State.barrierInit_run (s : State) (w : Who) (nm : Named) (scope pa : Nat) (addr : W64) (arr bytes : Nat) :
    (s.barrierInit w nm scope pa addr arr bytes).run = s.run := by
  simp only [State.barrierInit]
  split <;> simp

@[simp] theorem State.holdOp_run (s : State) (o : Op) (w : Who) (va kind aux : Nat) : (s.holdOp o w va kind aux).run = s.run := by
  simp [State.holdOp]

@[simp] theorem State.endEngine_run (s : State) (o : Op) (w : Who) (r : Option Stop) : (s.endEngine o w r).run = s.run := by
  unfold State.endEngine
  split <;> simp

@[simp] theorem State.reportUnc_run (s : State) (w : Who) (pc : W64) (lane : Nat) (addr : W64) :
    (s.reportUnc w pc lane addr).run = s.run := by
  simp only [State.reportUnc]
  split <;> rfl

/-! Launches, blocks, the spawn lists. -/

@[simp] theorem State.setStat_run (s : State) (bid : Nat) (g : SlotStat → SlotStat) : (s.setStat bid g).run = s.run := rfl

@[simp] theorem State.voidSpawns_run (s : State) (launch ck : Nat) (acts : List Act) : (s.voidSpawns launch ck acts).run = s.run := by
  simp only [State.voidSpawns]
  split <;> rfl

@[simp] theorem State.jcFailure_run (s : State) (w : Who) (pc : W64) (lane cause space : Nat) (addr : W64) :
    (s.jcFailure w pc lane cause space addr).run = s.run := rfl

@[simp] theorem State.jcDecrement_run (s : State) (w : Who) (pc : W64) (space : Nat) (a : Acc) :
    (s.jcDecrement w pc space a).run = s.run := by
  grind [State.jcDecrement, State.tryAccess_run, State.countUnc_run, State.jcFailure_run, State.wrN_run, State.addLog_run,
    State.postNotice_run]

@[simp] theorem State.jcDecrements_run (s : State) (c : Ctx) : (s.jcDecrements c).run = s.run := by
  refine State.foldl_run (fun u l => ?_) c.allLanes s
  simp only
  split
  · rfl
  · exact u.jcDecrement_run ..

@[simp] theorem State.writeSpillHeader_run (s : State) (l : Launch) (ck high : Nat) : (s.writeSpillHeader l ck high).run = s.run := by
  simp [State.writeSpillHeader]

@[simp] theorem State.spillEntry_run (s : State) (launch ck : Nat) (r : SpawnReq) (jmap : Bool) :
    (s.spillEntry launch ck r jmap).run = s.run := by
  unfold State.spillEntry
  split <;> simp

@[simp] theorem State.reserveOne_run (s : State) (c : Ctx) (jmap : Bool) (r : SpawnReq) : (s.reserveOne c jmap r).1.run = s.run := by
  simp only [State.reserveOne]
  split <;> simp

@[simp] theorem State.reserve_run (s : State) (c : Ctx) (jmap : Bool) (rs : List SpawnReq) : (s.reserve c jmap rs).1.run = s.run := by
  refine State.foldl_fst_run (fun p r => ?_) rs (s, [])
  exact p.1.reserveOne_run c jmap r

@[simp] theorem State.reserveAll_run (s : State) (c : Ctx) (effs : List Eff) : (s.reserveAll c effs).1.run = s.run := by
  refine State.foldl_fst_run (fun p e => ?_) effs (s, [])
  split
  · simp only
    split <;> simp
  · rfl

@[simp] theorem State.entriesAdded_run (s : State) (launch ck : Nat) (rs : List SpawnReq) : (s.entriesAdded launch ck rs).run = s.run := rfl

@[simp] theorem State.ringInit_run (s : State) (pa : Nat) (base off cfg : W64) : (s.ringInit pa base off cfg).run = s.run := by
  simp [State.ringInit]

@[simp] theorem State.ringFree_run (s : State) (r : Ring) (i : Nat) : (s.ringFree r i).run = s.run := s.wr_run ..

@[simp] theorem State.ringPublish_run (s : State) (r : Ring) (i bytes : Nat) (failed : Option Nat) :
    (s.ringPublish r i bytes failed).run = s.run := by
  simp [State.ringPublish]

@[simp] theorem State.sbind_run (s : State) (c : Ctx) (entry arg : W64) : (s.sbind c entry arg).run = s.run := by
  unfold State.sbind
  split <;> rfl

@[simp] theorem State.qAppend_run (s : State) (q : Nat) (rec : List Byte) : (s.qAppend q rec).run = s.run := by
  simp [State.qAppend]

/-! The grammar unit and the fabric. -/

@[simp] theorem State.expireHold_run (s : State) (k : Nat) : (s.expireHold k).run = s.run := by
  simp only [State.expireHold]
  split <;> rfl

@[simp] theorem State.dropHold_run (s : State) (k ctx : Nat) : (s.dropHold k ctx).run = s.run := by
  simp only [State.dropHold]
  split
  · split <;> simp
  · simp

@[simp] theorem Eng.chk_run (w : Who) (space n addr : Nat) (t : AccessType) (aux : Nat) (atomic : Bool) (s : State) :
    (Eng.chk w space n addr t aux atomic s).2.run = s.run := by
  unfold Eng.chk
  grind [State.tryAccess_run]

@[simp] theorem State.unbind_run (s : State) (o : Op) : (s.unbind o).run = s.run := by
  have hdesc : ∀ dglb dsc, (Eng.gDesc (o.who.as 3) dglb dsc .write s).2.run = s.run := fun _ _ => Eng.chk_run ..
  unfold State.unbind
  grind [State.wr_run]

@[simp] theorem State.gabort_run (s : State) (c : Ctx) : (s.gabort c).run = s.run := by
  simp only [State.gabort]
  rw [State.foldl_run, State.dropHold_run]
  intro u o
  split <;> simp

@[simp] theorem State.connect_run (s : State) (die peer : Nat) : (s.connect die peer).1.run = s.run := by
  simp only [State.connect]
  split
  · split
    · rfl
    · split <;> rfl
  · split <;> rfl

@[simp] theorem State.post_run (s : State) (die op peer : Nat) (r : Request) : (s.post die op peer r).run = s.run := by
  simp only [State.post]
  split <;> rfl

@[simp] theorem State.sendTo_run (s : State) (o : Op) (dev : Nat) (r : Request) : (s.sendTo o dev r).run = s.run := by
  grind [State.sendTo, State.connect_run, State.finishOp_run, State.updOp_run, State.post_run]

@[simp] theorem State.sendMembers_run (s : State) (o : Op) (r : Request) (ms : List Nat) : (s.sendMembers o r ms).1.run = s.run := by
  induction ms generalizing s with
  | nil => rfl
  | cons m t ih =>
    unfold State.sendMembers
    grind [State.connect_run, State.post_run]

@[simp] theorem State.settleMembers_run (s : State) (id : Nat) : (s.settleMembers id).run = s.run := by
  grind [State.settleMembers, State.finishOp_run]

/-! Waits and the end of a commit. -/

@[simp] theorem State.countQuiet_run (s : State) (w : Who) (va size : Nat) : (s.countQuiet w va size).run = s.run := by
  unfold State.countQuiet
  split
  · split <;> simp
  · simp
  · rfl

@[simp] theorem State.poisonWait_run (s : State) (cid : Nat) (lanes ps : List Nat) (pc : W64) :
    (s.poisonWait cid lanes ps pc).run = s.run := by
  unfold State.poisonWait
  split
  · simp only [State.updCtx_run]
    split <;> simp
  · rfl

/-- The end of a wait on tokens leaves the open run. -/
theorem State.endTokenWait_run {s t : State} {cid lane : Nat} (h : s.endTokenWait cid lane = some t) : t.run = s.run := by
  grind [State.endTokenWait, State.poisonWait_run, State.updCtx_run]

@[simp] theorem State.monReturn_run (s : State) (cid : Nat) (lanes : List Nat) (d : Reg) (x : W64) :
    (s.monReturn cid lanes d x).run = s.run := rfl

@[simp] theorem State.barrierRelease_run (s : State) (bid : Nat) : (s.barrierRelease bid).run = s.run := by
  simp only [State.barrierRelease]
  split
  · rfl
  · exact State.foldl_run (fun _ _ => State.updCtx_run ..) _ s

@[simp] theorem State.finishCommit_run (s : State) (cid : Nat) : (s.finishCommit cid).run = s.run := by
  unfold State.finishCommit
  split <;> simp

@[simp] theorem State.mend_run (s : State) (cid : Nat) (hs : List Held) : (s.mend cid hs).run = s.run := by
  unfold State.mend
  split <;> rfl

end Sys2Proof.Machine
end

section
/-! PROOFS. Where no run is open, none is opened by a trap, by the end of a context, or by what a commit performs (02_formats.md
R33, R34). -/

namespace Sys2Proof.Machine

/-- A fold of steps that open no run opens none. -/
theorem State.foldl_idle {α : Type} {g : State → α → State} (hg : ∀ u a, u.run = none → (g u a).run = none) (as : List α) {s : State}
    (h : s.run = none) : (as.foldl g s).run = none :=
  List.foldlRecOn as g (motive := fun t => t.run = none) h fun u hu a _ => hg u a hu

/-! The end of contexts, blocks and launches. -/

theorem State.endCtx_idle {s : State} (h : s.run = none) (id : Nat) : (s.endCtx id).run = none := by
  unfold State.endCtx
  split <;> simp [h]

theorem State.killBlock_idle {s : State} (h : s.run = none) (bid cause : Nat) (taddr : W64) (lane : Nat) (faddr : W64) :
    (s.killBlock bid cause taddr lane faddr).run = none := by
  unfold State.killBlock
  split
  · exact h
  · split
    · exact h
    · extract_lets s1 ws s2 s3 s4
      have h2 : s2.run = none := State.foldl_idle (fun u c hu => State.endCtx_idle hu c.id) ws h
      split
      · rw [State.foldl_run fun u c => u.jcDecrements_run c]
        exact h2
      · exact h2

theorem State.killGang_idle {s : State} (h : s.run = none) (c : Ctx) (cause : Nat) (taddr : W64) (lane : Nat) (faddr : W64) :
    (s.killGang c cause taddr lane faddr).run = none := by
  have h1 : (if (s.blocks.filter fun b => b.gang == c.gang && !b.child && !b.killed).isEmpty
      then s.noteKill c.launch cause taddr lane c.loc faddr else s).run = none := by
    split
    · exact h
    · exact h
  exact State.endCtx_idle (State.foldl_idle (fun u b hu => State.killBlock_idle hu ..) _ h1) c.id

theorem State.killSlot_idle {s : State} (h : s.run = none) (c : Ctx) (cause : Nat) (taddr : W64) (lane : Nat) (faddr : W64) :
    (s.killSlot c cause taddr lane faddr).run = none :=
  State.endCtx_idle (s := s.noteKill c.launch cause taddr lane c.loc faddr) h c.id

theorem State.killLaunch_idle {s : State} (h : s.run = none) (lid status : Nat) (spare : Bool) :
    (s.killLaunch lid status spare).run = none := by
  unfold State.killLaunch
  extract_lets rank spared inside doomed gone live s1 s2 s3 s4
  rw [State.foldl_run fun u c => u.jcDecrements_run c]
  exact State.foldl_idle (s := s1) (fun u c hu => State.endCtx_idle hu c.id) gone h

theorem State.afterUnc_idle {s : State} (h : s.run = none) (launch gang index : Nat) (relaunched child : Bool) :
    (s.afterUnc launch gang index relaunched child).run = none := by
  unfold State.afterUnc
  split
  · exact h
  · split
    · exact h
    · split
      · exact State.killLaunch_idle h ..
      · exact h

theorem State.killUnc_idle {s : State} (h : s.run = none) (bid : Nat) (taddr : W64) (lane : Nat) (faddr : W64) :
    (s.killUnc bid taddr lane faddr).run = none := by
  unfold State.killUnc
  split
  · exact h
  · split
    · exact h
    · exact State.afterUnc_idle (State.killBlock_idle h ..) ..

theorem State.ownerHit_idle {s : State} (h : s.run = none) (pa : Nat) (pc : W64) (lane : Nat) : (s.ownerHit pa pc lane).run = none := by
  unfold State.ownerHit
  split
  · simp only
    split
    · exact State.killUnc_idle h ..
    · split <;> exact h
  · split
    · exact State.killUnc_idle h ..
    · exact h
  · split
    · exact State.killUnc_idle h ..
    · exact h
  · split
    · exact State.killUnc_idle h ..
    · exact h
  · exact h

theorem State.uncHit_idle {s : State} (h : s.run = none) (pa : Nat) (pc : W64) (lane : Nat) : (s.uncHit pa pc lane).run = none :=
  State.ownerHit_idle ((s.countUnc_run pa).trans h) pa pc lane

theorem State.lateFail_idle {s : State} (h : s.run = none) (w : Who) (pc : W64) (lane cause : Nat) (addr : W64) :
    (s.lateFail w pc lane cause addr).run = none := by
  simp only [State.lateFail]
  split
  · split
    · split
      · exact h
      · exact State.killGang_idle h ..
    · exact h
  · split
    · split
      · exact h
      · exact State.killBlock_idle h ..
    · exact h

/-! Reads and writes of elements. -/

theorem State.readElem_idle {s : State} (h : s.run = none) (pa n : Nat) (pc : W64) (lane : Nat) :
    (s.readElem pa n pc lane).1.run = none := by
  unfold State.readElem
  split
  · exact State.uncHit_idle h ..
  · exact h

theorem State.rmwAt_idle {s : State} (h : s.run = none) (r : Rmw) (pa : Nat) (x y pc : W64) (lane : Nat) :
    (s.rmwAt r pa x y pc lane).1.run = none := by
  grind [State.rmwAt, State.readElem_idle, State.wrN_run]

theorem State.writeLane_idle {s : State} (h : s.run = none) (w : Who) (op : Option Rmw) (space esz : Nat) (pc : W64) (a : Acc) :
    (s.writeLane w op space esz pc a).1.run = none := by
  grind [State.writeLane, State.tryAccess_run, State.lateFail_idle, State.wr_run, State.noteWrite_run, State.rmwAt_idle,
    State.reportUnc_run]

theorem State.writeLanes_idle (w : Who) (op : Option Rmw) (space esz : Nat) (pc : W64) (accs : List Acc) {s : State} (h : s.run = none) :
    (s.writeLanes w op space esz pc accs).1.run = none := by
  induction accs generalizing s with
  | nil => exact h
  | cons a r ih =>
    unfold State.writeLanes
    grind [State.writeLane_idle]

theorem State.commitWrite_idle {s t : State} (h : s.run = none) {c : Ctx} {op : Option Rmw} {space esz : Nat} {pc : W64} {accs : List Acc}
    {code : Nat} {wrap : List Acc → Act} (ht : s.commitWrite c op space esz pc accs code wrap = some t) : t.run = none := by
  grind [State.commitWrite, State.pushLog_run, State.writeLanes_idle, State.noticeLanes_run]

/-! Barriers, monitors and waits. -/

theorem State.barrierUnreadable_idle {s : State} (h : s.run = none) (w : Who) (nm : Named) (pa : Nat) (addr aux : W64) (own : Option Nat) :
    (s.barrierUnreadable w nm pa addr aux own).run = none := by
  grind [State.barrierUnreadable, State.uncHit_idle, State.barrierRecord_run, State.endWaits_run, State.updOp_run]

theorem State.arrive_idle {s : State} (h : s.run = none) (w : Who) (nm : Named) (space pa : Nat) (addr : W64) (n b : Nat) (psn : Option Nat) :
    (s.arrive w nm space pa addr n b psn).run = none := by
  simp only [State.arrive]
  split
  · exact State.barrierUnreadable_idle h ..
  · split
    · exact h
    · grind [State.barrierRecord_run, State.wr_run, State.endWaits_run]

theorem State.arriveAt_idle {s : State} (h : s.run = none) (w : Who) (nm : Named) (rel : Bool) (own : Option Nat) (space : Nat) (base n bytes : W64)
    (psn : Option Nat) : (s.arriveAt w nm rel own space base n bytes psn).1.run = none := by
  grind [State.arriveAt, State.tryAccess_run, State.lateFail_idle, State.hearRelease_run, State.arrive_idle]

theorem State.commitArrive_idle {s t : State} (h : s.run = none) {c : Ctx} {pc : W64} {code opc token space : Nat} {base n bytes : W64}
    {psn : Option Nat} (ht : s.commitArrive c pc code opc token space base n bytes psn = some t) : t.run = none := by
  grind [State.commitArrive, State.arriveAt_idle, State.postNotice_run, State.pushLog_run]

theorem State.commitTkarr_idle {s t : State} (h : s.run = none) {c : Ctx} {pc : W64} {code : Nat} {rel : Bool} {k space : Nat}
    {base bytes : W64} (ht : s.commitTkarr c pc code rel k space base bytes = some t) : t.run = none := by
  grind [State.commitTkarr, State.commitArrive_idle]

theorem State.initAt_idle {s : State} (h : s.run = none) (w : Who) (pc : W64) (scope space : Nat) (base arr bytes : W64) :
    (s.initAt w pc scope space base arr bytes).1.run = none := by
  grind [State.initAt, State.tryAccess_run, State.lateFail_idle, State.barrierInit_run]

theorem State.spawnAdds_idle {s : State} (h : s.run = none) (w : Who) (pc : W64) (jmap : Bool) (rs : List SpawnReq) :
    (s.spawnAdds w pc jmap rs).1.run = none := by
  unfold State.spawnAdds
  extract_lets sp withJc
  split
  · refine State.foldl_idle (fun u r hu => ?_) withJc h
    split
    · exact (u.postNotice_run ..).trans hu
    · exact hu
  · have hw := State.writeLanes_idle w (some (.int 0 2)) sp 8 pc
      (withJc.map fun r => { lane := r.lane, addr := r.jc, x := (1, 0), y := 0 }) h
    grind [State.voidSpawns_run, State.entriesAdded_run]

theorem State.monRead_idle {s : State} (h : s.run = none) (c : Ctx) (is64 : Bool) (space addr : Nat) (pc : W64) (lane : Nat) :
    (s.monRead c is64 space addr pc lane).1.run = none := by
  simp only [State.monRead]
  grind [State.tryAccess_run, State.postNotice_run, State.readElem_idle]

theorem State.monFail_idle {s : State} (h : s.run = none) (c : Ctx) (lanes : List Nat) (cause : Nat) (pc addr : W64) :
    (s.monFail c lanes cause pc addr).run = none := by
  unfold State.monFail
  split
  · exact h
  · exact State.lateFail_idle h ..

theorem State.monStep_idle {s : State} (h : s.run = none) (cid : Nat) (lanes : List Nat) (w : Wait) :
    (s.monStep cid lanes w).run = none := by
  unfold State.monStep
  split
  · grind [State.monRead_idle, State.updCtx_run, State.monReturn_run, State.monFail_idle]
  · exact h

theorem State.beginWait_idle {s : State} (h : s.run = none) (cid : Nat) (w : Wait) (lanes : List Nat) :
    (s.beginWait cid w lanes).run = none := by
  unfold State.beginWait
  split
  · exact h
  · split
    · simp only
      cases hend : State.endTokenWait _ cid _ with
      | none => exact h
      | some t => exact (State.endTokenWait_run hend).trans h
    · simp only
      split
      · rename_i hend
        exact (State.endTokenWait_run hend).trans h
      · split <;> exact h
    · split <;> exact h
    · exact State.monStep_idle h ..

/-! The access of an operation. -/

theorem State.readSingly_idle (w : Who) (space : Nat) (pc : W64) (lane addr n acc sh : Nat) {s : State} (h : s.run = none) :
    (s.readSingly w space pc lane addr n acc sh).1.run = none := by
  induction n generalizing s addr acc sh with
  | zero => exact h
  | succ k ih =>
    unfold State.readSingly
    grind [State.tryAccess_run, State.readElem_idle]

theorem Gather.stream_idle {g : Gather} (h : g.s.run = none) (w : Who) (space : Nat) (pc : W64) (d : Dst) (a : Acc) :
    (g.stream w space pc d a).s.run = none := by
  simp only [Gather.stream]
  grind [State.readSingly_idle, Gather.fail, State.postNotice_run]

theorem Gather.lane_idle {g : Gather} (h : g.s.run = none) (w : Who) (k : AccKind) (space esz : Nat) (pc : W64) (d : Dst) (a : Acc) :
    (g.lane w k space esz pc d a).s.run = none := by
  unfold Gather.lane
  grind [Gather.stream_idle, Gather.fail, State.xlat_run, State.tryAccess_run, State.postNotice_run, State.rmwAt_idle,
    State.noteWrite_run, State.readElem_idle]

theorem State.performLanes_idle {s : State} (h : s.run = none) (o : Op) (w : Who) (k : AccKind) (space esz : Nat) (todo : List Acc)
    (got : List (Nat × Nat × W64)) (bad : Option (Nat × Nat × Nat × W64)) (keep : List Acc) :
    (s.performLanes o w k space esz todo got bad keep).run = none := by
  have hg : (todo.foldl (fun g a => Gather.lane g w k space esz o.pc o.dst a) { s := s, got := got, bad := bad, todo := [] }).s.run = none :=
    List.foldlRecOn todo _ (motive := fun g : Gather => g.s.run = none) h fun g hg a _ => Gather.lane_idle hg ..
  simp only [State.performLanes]
  split <;> exact hg

theorem State.performAccess_idle {s : State} (h : s.run = none) (o : Op) (k : AccKind) (space esz : Nat) (accs : List Acc) :
    (s.performAccess o k space esz accs).run = none := by
  unfold State.performAccess
  split <;> exact State.performLanes_idle h ..

theorem State.performPbwait_idle {s : State} (h : s.run = none) (o : Op) (w : Who) (cur : Bool) (phase : W32) (space : Nat) (base : W64) :
    (s.performPbwait o w cur phase space base).run = none := by
  grind [State.performPbwait, State.tryAccess_run, State.updOp_run, State.postNotice_run, State.barrierUnreadable_idle]

theorem State.performJcwait_idle {s : State} (h : s.run = none) (o : Op) (w : Who) (space : Nat) (base : W64) :
    (s.performJcwait o w space base).run = none := by
  grind [State.performJcwait, State.tryAccess_run, State.finishOp_run, State.updOp_run, State.postNotice_run, State.uncHit_idle]

theorem State.performLaunchg_idle {s : State} (h : s.run = none) (o : Op) (w : Who) (rec q : W64) :
    (s.performLaunchg o w rec q).run = none := by
  grind [State.performLaunchg, State.tryAccess_run, State.finishOp_run, State.updOp_run, State.postNotice_run, State.uncHit_idle,
    State.qAppend_run]

theorem State.startRacq_idle {s : State} (h : s.run = none) (o : Op) (w : Who) (cons : Bool) (space : Nat) (base : W64) :
    (s.startRacq o w cons space base).run = none := by
  grind [State.startRacq, State.ringAt_run, State.finishOp_run, State.uncHit_idle, State.updOp_run, State.setCluster_run]

theorem State.performRrel_idle {s : State} (h : s.run = none) (o : Op) (w : Who) (free last : Bool) (space : Nat) (base slot bytes : W64) :
    (s.performRrel o w free last space base slot bytes).run = none := by
  grind [State.performRrel, State.ringAt_run, State.finishOp_run, State.uncHit_idle, State.ringFree_run, State.setStat_run,
    State.newRecord_run, State.ringPublish_run]

theorem State.engineRead_idle (w : Who) (pc : W64) (space : Nat) (ps : List (Nat × Nat)) (acc : List Byte) {s : State}
    (h : s.run = none) : (s.engineRead w pc space ps acc).1.run = none := by
  induction ps generalizing s acc with
  | nil => exact h
  | cons p r ih =>
    unfold State.engineRead
    grind [State.tryAccess_run, State.uncHit_idle]

theorem State.startFabric_idle {s : State} (h : s.run = none) (o : Op) (w : Who) (c : FCmd) : (s.startFabric o w c).run = none := by
  have hread := fun (pc : W64) (sp : Nat) (ps : List (Nat × Nat)) => State.engineRead_idle w pc sp ps [] h
  unfold State.startFabric
  cases c with
  | coll => exact h
  | rstm ssp s0 s1 dst src size ms =>
    simp only
    split
    · exact h
    · split
      · exact h
      · split
        · exact h
        · split
          · exact h
          · split
            case h_4 s1' lb hlist =>
              have h1 : s1'.run = none := by grind
              split
              · exact h1
              · split
                case h_4 s2 bs hbytes =>
                  have h2 : s2.run = none := by grind [State.engineRead_idle]
                  split
                  · exact h2
                  · rw [State.settleMembers_run, State.updOp_run, State.sendMembers_run, h2]
                all_goals grind [State.engineRead_idle, State.holdOp_run, State.finishOp_run]
            all_goals grind [State.holdOp_run, State.finishOp_run]
  | _ => grind [State.finishOp_run, State.sendTo_run, State.holdOp_run]

/-! Engines. -/

/-- A step of an engine that opens no run. -/
def Eng.Idle {α : Type} (e : Eng α) : Prop := ∀ s : State, s.run = none → (e s).2.run = none

theorem Eng.Idle.pure {α : Type} (a : α) : Eng.Idle (pure a : Eng α) := fun _ h => h

theorem Eng.Idle.bind {α β : Type} {e : Eng α} {g : α → Eng β} (he : e.Idle) (hg : ∀ a, (g a).Idle) : Eng.Idle (e >>= g) := by
  intro s h
  have h1 := he s h
  have hbind : (e >>= g) s = ExceptT.bindCont g (e s).1 (e s).2 := rfl
  rw [hbind]
  cases (e s).1 with
  | ok a => exact hg a _ h1
  | error x => exact h1

theorem Eng.Idle.need (b : Bool) (cause detail addr aux : Nat) : (Eng.need b cause detail addr aux).Idle := by
  intro s h
  unfold Eng.need
  split <;> exact h

theorem Eng.Idle.chk (w : Who) (space n addr : Nat) (t : AccessType) (aux : Nat) (atomic : Bool) :
    (Eng.chk w space n addr t aux atomic).Idle :=
  fun s h => (Eng.chk_run w space n addr t aux atomic s).trans h

theorem Eng.Idle.get (pa n addr aux : Nat) (pc : W64) : (Eng.get pa n addr aux pc).Idle := by
  intro s h
  unfold Eng.get
  split
  · exact State.uncHit_idle h ..
  · exact h

theorem Eng.Idle.each {α : Type} (xs : List α) {g : α → Eng Unit} (hg : ∀ a, (g a).Idle) : (Eng.each xs g).Idle := by
  induction xs with
  | nil => exact .pure ()
  | cons x r ih => exact .bind (hg x) fun _ => ih

theorem Eng.Idle.collect {α β : Type} (xs : List α) {g : α → Eng β} (hg : ∀ a, (g a).Idle) : (Eng.collect xs g).Idle := by
  induction xs with
  | nil => exact .pure []
  | cons x r ih => exact .bind (hg x) fun _ => .bind ih fun _ => .pure _

theorem Eng.Idle.grvrd (w : Who) (l : Loc) (space dst first count bw : Nat) (pc : W64) :
    (Eng.grvrd w l space dst first count bw pc).Idle :=
  .bind (.need _ 4 4 dst 0) fun _ => .bind (.collect _ fun i => .chk w space 4 (dst + 4 * i) .write 0 false) fun _ =>
    .bind (.collect _ fun _ => .get _ 4 _ 0 pc) fun _ => .each _ fun _ s h => (s.wr_run ..).trans h

theorem Eng.Idle.outcome {e : Eng Unit} (he : e.Idle) {s : State} (h : s.run = none) : (Eng.outcome e s).1.run = none := by
  have := he s h
  unfold Eng.outcome
  grind

theorem State.startGrvrd_idle {s : State} (h : s.run = none) (o : Op) (w : Who) (space : Nat) (dst first count : W64) :
    (s.startGrvrd o w space dst first count).run = none := by
  unfold State.startGrvrd
  split
  · unfold State.performGrvrd
    split
    · exact h
    · rename_i hold _
      split
      · exact h
      · have := Eng.Idle.outcome (Eng.Idle.grvrd w o.loc space dst.toNat first.toNat count.toNat hold.bw o.pc) h
        unfold State.copyGrvrd
        grind [State.holdOp_run, State.endEngine_run]
  · exact h

/-! The dispatch and performance of an operation. -/

theorem State.startOp_idle {s : State} (h : s.run = none) (o : Op) : (s.startOp o).run = none := by
  unfold State.startOp
  split
  case h_2 => exact State.performAccess_idle h ..
  case h_5 => exact State.performPbwait_idle h ..
  case h_6 => exact State.performJcwait_idle h ..
  case h_7 => exact State.performLaunchg_idle h ..
  case h_8 => exact State.startRacq_idle h ..
  case h_9 => exact State.performRrel_idle h ..
  case h_10 =>
    split
    · exact h
    · exact State.startFabric_idle h ..
  case h_11 => exact State.startGrvrd_idle h ..
  case h_12 => split <;> exact h
  all_goals exact h

theorem State.advanceOp_idle {s : State} (h : s.run = none) (id : Nat) : (s.advanceOp id).run = none := by
  grind [State.advanceOp, State.unqueue_run, State.finishOp_run, State.startOp_idle]

theorem State.dispatch_idle {s t : State} (h : s.run = none) {c : Ctx} {pc : W64} {token : Nat} {pres : List Nat} {opc : Nat}
    {rel acq : Bool} {scope : Nat} {dst : Dst} {cmd : Cmd} (ht : s.dispatch c pc token pres opc rel acq scope dst cmd = some t) :
    t.run = none := by
  unfold State.dispatch at ht
  split at ht
  · cases ht
  · cases ht
    refine State.advanceOp_idle ?_ _
    rw [State.updCtx_run]
    split
    · exact h
    · exact h

/-! The performance of a commit's effects. -/

/-- Where no run is open, an effect opens none: each effect is one of the operations above. -/
theorem State.performAct_idle {s t : State} (h : s.run = none) {c : Ctx} {e : Eff} (ht : s.performAct c e = some t) : t.run = none := by
  unfold State.performAct at ht
  extract_lets w at ht
  split at ht
  · cases ht
  cases hact : e.act <;> rw [hact] at ht
  case store | reduce | jcDec => exact State.commitWrite_idle h ht
  case tkarr => exact State.commitTkarr_idle h ht
  case arrive | pbarr => exact State.commitArrive_idle h ht
  case dispatch => exact State.dispatch_idle h ht
  case prefetch =>
    cases ht
    exact (State.foldl_run (fun _ _ => State.tryAccess_run ..) _ s).trans h
  case tileWrite =>
    cases ht
    exact (s.mapWords_run ..).trans h
  case scaleWrite =>
    cases ht
    exact (State.foldl_run (fun _ _ => State.wr_run ..) _ s).trans h
  case sbind =>
    cases ht
    exact (s.sbind_run ..).trans h
  case gabort =>
    cases ht
    exact (s.gabort_run _).trans h
  case wait =>
    cases ht
    exact State.beginWait_idle h ..
  case accWrite => grind [State.mapWords_run, State.setCore_run]
  case tkpsn => grind [State.ctxRecord_run, State.updCtx_run]
  case pbinit => grind [State.pushLog_run, State.initAt_idle, State.postNotice_run]
  case spawn => grind [State.spawnAdds_idle, State.pushLog_run]
  case rinit => grind [State.ringAt_run, State.ringInit_run, State.lateFail_idle]
  case semit => grind [State.commitWrite_idle, State.setStat_run]
  case sctl => grind [State.setStat_run, State.updCtx_run]
  case tmark | taken => grind [State.trace_run]
  all_goals
    cases ht
    exact h

/-- The effects of a commit open no run. -/
theorem State.drainN_idle (cid fuel : Nat) {s : State} (h : s.run = none) : (s.drainN cid fuel).run = none := by
  induction fuel generalizing s with
  | zero => exact h
  | succ k ih =>
    unfold State.drainN
    split
    · exact h
    · split
      · exact (s.finishCommit_run cid).trans h
      · split
        · exact h
        · rename_i hact
          have ht := State.performAct_idle h hact
          exact ih ht

/-- A commit closes the run. -/
theorem State.commitRun_run (s : State) (c : Ctx) (r : Run) : (s.commitRun c r).run = none := by
  simp only [State.commitRun, State.drain]
  split
  · exact State.drainN_idle _ _ (State.mend_run ..)
  · exact State.mend_run ..

/-- A trap closes the run. -/
theorem State.takeTrap_run (s : State) (cid : Nat) (t : TrapInfo) : (s.takeTrap cid t).run = none := by
  have h0 : ({ s with run := none } : State).run = none := rfl
  simp only [State.takeTrap]
  split
  · rfl
  · split
    · exact State.killGang_idle h0 ..
    · split
      · split
        · exact State.killSlot_idle h0 ..
        · exact State.killBlock_idle h0 ..
      · split <;> rfl

/-- A trap closes the run, and its trace record opens none. -/
theorem State.trapTo_run (s : State) (cid : Nat) (t : TrapInfo) : (s.trapTo cid t).run = none := by
  simp only [State.trapTo]
  split
  · exact s.takeTrap_run ..
  · split
    · exact State.takeTrap_run ..
    · split
      · exact State.takeTrap_run ..
      · exact (State.trace_run ..).trans (State.takeTrap_run ..)

end Sys2Proof.Machine
end

section
/-! PROOFS. No instruction changes anything but its open run before the commit, and a trap discards it (02_formats.md R33, R34). -/

namespace Sys2Proof.Machine

/-! Memory without uncorrectable errors. -/

/-- No word and no granule of memory is uncorrectable. -/
structure State.Sound (s : State) : Prop where
  words : s.badWords = []
  granules : s.badGranules = []

theorem State.Sound.badRead {s : State} (h : s.Sound) (pa n : Nat) : s.badRead pa n = false := by
  simp [State.badRead, h.words, h.granules]

/-- A walk meets no uncorrectable entry there. -/
theorem State.Sound.walkFrom {s : State} (h : s.Sound) (table va lv pa : Nat) : s.walkFrom table va lv ≠ .error pa := by
  induction lv generalizing table with
  | zero => simp [State.walkFrom]
  | succ k ih =>
    simp only [State.walkFrom, h.badRead, Bool.false_eq_true, if_false]
    split
    · simp
    · split
      · split
        · simp
        · split
          · split <;> simp
          · simp
      · split
        · simp
        · exact ih _

/-- What a TLB holds is a leaf. -/
theorem State.tlbHit_leaf {s : State} {die : Nat} {units : List Nat} {va : Nat} {x : Walk} (h : s.tlbHit die units va = some x) :
    ∃ ea e large, x = .leaf ea e large := by
  obtain ⟨u, -, hu⟩ := List.exists_of_findSome?_eq_some h
  obtain ⟨t, -, rfl⟩ := Option.map_eq_some_iff.mp hu
  exact ⟨_, _, _, rfl⟩

/-- Neither does the look-up of a page, in the TLBs first. -/
theorem State.Sound.lookup {s : State} (h : s.Sound) (die : Nat) (units : List Nat) (va pa : Nat) :
    (s.tlbHit die units va).getD (s.walk die va) ≠ .error pa := by
  cases hhit : s.tlbHit die units va with
  | none => exact fun hwalk => h.walkFrom _ va 4 pa hwalk
  | some x =>
    obtain ⟨ea, e, large, rfl⟩ := State.tlbHit_leaf hhit
    simp

theorem State.Sound.translateRaw {s : State} (h : s.Sound) (w : Who) (va size pa : Nat) (t : AccessType) :
    (s.translateRaw w va size t).2 ≠ .error pa := by
  have hl := h.lookup w.die w.units va
  unfold State.translateRaw
  split
  · simp
  · extract_lets hit
    split
    case h_3 q hq => exact absurd hq (hl q)
    case h_4 ea e large _ =>
      extract_lets qa reaches s0 s1 ok
      split
      · simp
      · split <;> simp
    all_goals simp

theorem State.Sound.translate {s : State} (h : s.Sound) (w : Who) (va size pa : Nat) (t : AccessType) :
    (s.translate w va size t).2 ≠ .error pa := by
  have ht := h.translateRaw w va size pa t
  unfold State.translate
  split
  · simp
  · exact ht

/-- A quiet read counts no error there. -/
theorem State.Sound.countQuiet {s : State} (h : s.Sound) (w : Who) (va size : Nat) : s.countQuiet w va size = s := by
  unfold State.countQuiet
  split
  · rw [h.badRead, if_neg Bool.false_ne_true]
  · rename_i pa hpa
    exact absurd hpa (h.translate w va size pa .read)
  · rfl

/-- A trap counts no error there. -/
theorem State.Sound.countTrap {s : State} (h : s.Sound) (w : Who) (t : TrapInfo) : s.countTrap w t = s := by
  simp only [State.countTrap, State.countWalk]
  split
  · split
    · rename_i pa hpa
      exact absurd hpa (h.lookup _ _ _ pa)
    · rfl
  · rfl

/-- Looking up the spawn table counts no error there. -/
theorem State.Sound.countSpawn {s : State} (h : s.Sound) (w : Who) (idx : Nat) : s.countSpawn w idx = s := by
  unfold State.countSpawn
  split
  · exact h.countQuiet ..
  · rfl

theorem State.Sound.looked {v : Env} (h : v.s.Sound) : v.looked = v.s := by
  unfold Env.looked
  split
  · exact List.foldlRecOn v.lookups _ (motive := fun u => u = v.s) rfl fun u hu i _ => by rw [hu, h.countSpawn]
  · rfl

/-! What an instruction can leave. -/

/-- The instruction is counted in counter banks alone. -/
theorem Env.counted_sameBanked (v : Env) : v.s.SameBanked v.counted := v.s.countAt_sameBanked ..

theorem Env.counted_sound {v : Env} (h : v.s.Sound) : v.counted.Sound := by
  constructor
  · rw [v.counted_sameBanked.eq]; exact h.words
  · rw [v.counted_sameBanked.eq]; exact h.granules

/-- Without uncorrectable errors, an instruction goes on with its run, commits it, or traps. -/
theorem Env.execute_outcome {v : Env} (hv : v.s.badVregs = []) (h : v.s.Sound) (body : Env → Res) :
    (∃ o, v.execute body = { v.counted with run := some (v.grow o) })
    ∨ (∃ o, v.endsRun = true ∧ v.execute body = v.counted.commitRun v.c (v.grow o))
    ∨ ∃ x, v.execute body = v.counted.trapTo v.c.id x := by
  rcases v.execute_cases body with ⟨cause, a, -, he⟩ | ⟨-, ⟨l, hl, -⟩ | ⟨pa, l, -, hf, -⟩ | ⟨-, ⟨t, -, he⟩ | ⟨o, -, hgo | hdead | hcommit⟩⟩⟩
  · exact .inr (.inr ⟨_, he⟩)
  · simp [Env.badRegister, hv] at hl
  · simp [Env.badFile, h.words] at hf
  · rw [(v.counted_sound h).countTrap] at he
    exact .inr (.inr ⟨t, he⟩)
  · exact .inl ⟨o, hgo.2⟩
  · exact .inr (.inr ⟨_, hdead.2.2⟩)
  · exact .inr (.inl ⟨o, hcommit.1, hcommit.2.2⟩)

/-- So does every instruction of the opcode map. -/
theorem exec_outcome {i : Instr} {s t : State} {v : Env} (hv : s.envOf i = some v) (hregs : s.badVregs = []) (h : s.Sound)
    (ht : exec i s = .next t) :
    (∃ o, t = { v.counted with run := some (v.grow o) })
    ∨ (∃ o, v.endsRun = true ∧ t = v.counted.commitRun v.c (v.grow o))
    ∨ ∃ x, t = v.counted.trapTo v.c.id x := by
  obtain ⟨hview, -, -, rfl⟩ := s.envOf_eq hv
  obtain ⟨body, he⟩ : ∃ body, exec i v.s = .next (v.execute body) := by
    rcases exec_of_view hview with ⟨body, he⟩ | ⟨body, he⟩
    · exact ⟨body, by rw [he, execIsa_envOf body hv]⟩
    · exact ⟨body, by rw [he, execTable_envOf body hv, h.looked, execIsa_envOf body hv]⟩
  rw [ht] at he
  cases he
  exact v.execute_outcome hregs h body

/-! A trap into a handler. -/

/-- A fetch reads no core, no cluster and no open run. -/
theorem State.peekCode_congr (s : State) (cores : Table Core) (clusters : Table Cluster) (run : Option Run) (l : Loc) (va : Nat) :
    ({ s with cores := cores, clusters := clusters, run := run } : State).peekCode l va = s.peekCode l va := by
  have hwalk : ∀ lv table, ({ s with cores := cores, clusters := clusters, run := run } : State).walkFrom table va lv
      = s.walkFrom table va lv := by
    intro lv
    induction lv with
    | zero => exact fun _ => rfl
    | succ k ih =>
      intro table
      unfold State.walkFrom
      simp only [ih]
      rfl
  unfold State.peekCode State.walk
  simp only [hwalk]
  rfl

/-- Where a row of pads ends depends on none of them. -/
theorem State.pastPads_congr (s : State) (cores : Table Core) (clusters : Table Cluster) (run : Option Run) (l : Loc) (pc : W64) :
    ({ s with cores := cores, clusters := clusters, run := run } : State).pastPads l pc = s.pastPads l pc := by
  have hpads : ∀ words pa, ({ s with cores := cores, clusters := clusters, run := run } : State).padsToEnd pa words
      = s.padsToEnd pa words := by
    intro words
    induction words with
    | zero => exact fun _ => rfl
    | succ k ih =>
      intro pa
      unfold State.padsToEnd
      rw [ih]
      rfl
  unfold State.pastPads
  generalize 65536 = blocks
  induction blocks generalizing pc with
  | zero => rfl
  | succ k ih =>
    unfold State.skipPads
    simp only [State.peekCode_congr, hpads, ih]

/-- Counting events moves no row of pads. -/
theorem State.SameBanked.pastPads {s u : State} (h : s.SameBanked u) (run : Option Run) (l : Loc) (pc : W64) :
    ({ u with run := run } : State).pastPads l pc = s.pastPads l pc := by
  have hu : ({ u with run := run } : State) = { s with cores := u.cores, clusters := u.clusters, run := run } :=
    congrArg (fun v : State => { v with run := run }) h.eq
  rw [hu, s.pastPads_congr]

/-- A trap of a warp that no record is due for leaves no trace record (R373). -/
theorem State.trace_untraced {s : State} {c : Ctx} {cid : Nat} (hc : s.ctx? cid = some c) (ht : s.traced c = false) (kind : Nat)
    (body : List Byte) : s.trace cid kind body = s := by
  simp [State.trace, hc, ht]

@[simp] theorem Ctx.enterHandler_id (c : Ctx) (t : TrapInfo) (pc : W64) : (c.enterHandler t pc).id = c.id := by
  rw [Ctx.enterHandler, Ctx.updLanes_eq]

@[simp] theorem Ctx.enterHandler_loc (c : Ctx) (t : TrapInfo) (pc : W64) : (c.enterHandler t pc).loc = c.loc := by
  rw [Ctx.enterHandler, Ctx.updLanes_eq]

@[simp] theorem Ctx.enterHandler_sr (c : Ctx) (t : TrapInfo) (pc : W64) : (c.enterHandler t pc).sr = c.sr.trapped t := by
  rw [Ctx.enterHandler, Ctx.updLanes_eq]

/-- A trap leaves the control of the trace. The values it writes are named first, so that no check compares them. -/
@[simp] theorem SysRegs.trapped_trctl (r : SysRegs) (t : TrapInfo) : (r.trapped t).trctl = r.trctl := by
  unfold SysRegs.trapped
  generalize t.tcause = cause, maskOf t.lanes = lanes, maskOf t.fault = fault, BitVec.ofNat 64 t.trec = trec
  rfl

/-- An untraced lane warp's trap into its handler, after some events were counted: the trap is counted, the run discarded, and the
warp enters its handler (R34, R351). -/
theorem State.trapTo_enters {s u : State} {c : Ctx} (x : TrapInfo) (hb : s.SameBanked u) (hc : s.ctx? c.id = some c)
    (hk : c.kind = .lane) (hi : c.inh = false) (he : c.sr.tentry ≠ 0) (ht : s.traced c = false) :
    ∃ w, s.SameBanked w ∧ u.trapTo c.id x = { s with
      run := none, cores := w.cores, clusters := w.clusters
      ctxs := s.ctxs.map fun y => if y.id = c.id then y.enterHandler x (s.pastPads y.loc y.sr.tentry) else y } := by
  have huc : u.ctx? c.id = some c := by rw [hb.eq]; exact hc
  have hw := hb.trans (u.countAt_sameBanked c.launch c.loc 0x0B 1)
  generalize hcount : u.countAt c.launch c.loc 0x0B 1 = w at hw
  have hwc : w.ctx? c.id = some c := by rw [hw.eq]; exact hc
  have hent := takeTrap_enters x hwc hk hi he
  have htake : w.takeTrap c.id x = { s with
      run := none, cores := w.cores, clusters := w.clusters
      ctxs := s.ctxs.map fun y => if y.id = c.id then y.enterHandler x (s.pastPads y.loc y.sr.tentry) else y } := by
    rw [hent, State.updCtx, updWhere_id_eq]
    simp only [hw.pastPads]
    rw [hw.eq]
  have hfound : (w.takeTrap c.id x).ctx? c.id = some (c.enterHandler x (s.pastPads c.loc c.sr.tentry)) := by
    rw [hent, ← hw.pastPads none]
    exact State.ctx?_updCtx (s := { w with run := none }) hwc fun _ => Ctx.enterHandler_id ..
  have huntraced : (w.takeTrap c.id x).traced (c.enterHandler x (s.pastPads c.loc c.sr.tentry)) = false := by
    rw [htake]
    simpa [State.traced, State.reg] using ht
  refine ⟨w, hw, ?_⟩
  simp only [State.trapTo, huc, hcount, hfound]
  split
  · exact htake
  · rw [State.trace_untraced hfound huntraced]
    exact htake

/-- Settles O49: an instruction goes on with its run, commits it or traps (`exec_outcome`); a commit and a trap close the run. -/
theorem noEffectBeforeCommit : Obligations.NoEffectBeforeCommit := by
  unfold Obligations.NoEffectBeforeCommit
  intro i s t v hv hregs hwords hgranules hcores hclusters ht counted
  have hs : v.s = s := (s.envOf_eq hv).2.2.2
  subst hs
  have hsound : v.s.Sound := ⟨hwords, hgranules⟩
  have hout := exec_outcome hv hregs hsound ht
  have hb := v.counted_sameBanked
  refine ⟨fun hrun => ?_, fun hrun => ?_, fun x hk hi he htraced => ?_⟩
  · rcases hout with ⟨o, rfl⟩ | ⟨o, -, rfl⟩ | ⟨x, rfl⟩
    · refine ⟨⟨v.grow o, rfl, rfl, rfl, rfl, rfl, List.prefix_append .., List.prefix_append ..⟩, ?_, hb.core hcores, hb.cluster hclusters⟩
      rw [hb.eq]
    · rw [State.commitRun_run] at hrun
      cases hrun
    · rw [State.trapTo_run] at hrun
      cases hrun
  · rcases hout with ⟨o, rfl⟩ | hcommit | htrap
    · cases hrun
    · exact .inl hcommit
    · exact .inr htrap
  · have hc : v.s.ctx? v.c.id = some v.c := by
      obtain ⟨-, -, hctx, -⟩ := v.s.envOf_eq hv
      have hid : v.c.id = v.r.ctx := by simpa using List.find?_some hctx
      rw [hid]
      exact hctx
    obtain ⟨w, hw, htrap⟩ := State.trapTo_enters x hb hc hk hi he htraced
    intro u
    have hu : u = _ := htrap
    refine ⟨?_, fun loc => ?_, fun k => ?_⟩
    · rw [hu]
    · rw [hu]
      exact hw.core hcores loc
    · rw [hu]
      exact hw.cluster hclusters k

end Sys2Proof.Machine
end

section
/-! PROOFS. Lanes of a context changed alike, and the release of a rejoin mask (04_control.md R68 to R72). -/

namespace Sys2Proof.Machine

/-! Lanes changed alike. -/

@[simp] theorem Ctx.updLanes_length (c : Ctx) (ls : List Nat) (g : Nat → Lane → Lane) :
    (c.updLanes ls g).lanes.length = c.lanes.length :=
  List.foldlRecOn ls _ (motive := fun d : Ctx => d.lanes.length = c.lanes.length) rfl fun d hd l _ => by
    rw [Ctx.updLane_lanes, setNth_length, hd]

@[simp] theorem Ctx.updLanes_m (c : Ctx) (ls : List Nat) (g : Nat → Lane → Lane) : (c.updLanes ls g).m = c.m := by
  rw [Ctx.updLanes_eq]

@[simp] theorem Ctx.updLanes_width (c : Ctx) (ls : List Nat) (g : Nat → Lane → Lane) : (c.updLanes ls g).width = c.width := by
  rw [Ctx.updLanes_eq]

/-- A lane that the context does not have. -/
theorem Ctx.lane_of_length_le {c : Ctx} {l : Nat} (h : c.lanes.length ≤ l) : c.lane l = Lane.none := by
  rw [Ctx.lane, nth_eq_getD, List.getElem?_eq_none h, Option.getD_none]

/-- A lane that has not exited is one that the context has. -/
theorem Ctx.lt_length_of_lane {c : Ctx} {l : Nat} (h : (c.lane l).st ≠ .exited) : l < c.lanes.length := by
  by_contra hl
  exact h (by rw [Ctx.lane_of_length_le (Nat.le_of_not_lt hl)]; rfl)

/-- What each lane is after the lanes of a list were changed alike, by a change that done twice is done once. -/
theorem Ctx.lane_updLanes (c : Ctx) (ls : List Nat) {g : Lane → Lane} (hg : ∀ x, g (g x) = g x) (j : Nat) :
    (c.updLanes ls fun _ => g).lane j = if j ∈ ls ∧ j < c.lanes.length then g (c.lane j) else c.lane j := by
  induction ls generalizing c with
  | nil => simp [Ctx.updLanes]
  | cons l ls ih =>
    rw [show (c.updLanes (l :: ls) fun _ => g) = (c.updLane l g).updLanes ls fun _ => g from rfl, ih, Ctx.lane_updLane,
      Ctx.updLane_lanes, setNth_length]
    by_cases hl : j < c.lanes.length
    · by_cases hj : l = j
      · subst hj
        simp only [hl, and_self, if_true, hg, List.mem_cons, true_or, ite_self]
      · simp [hj, Ne.symm hj]
    · simp only [hl, and_false, if_false]
      rw [if_neg]
      rintro ⟨rfl, h⟩
      exact hl h

/-! Release. -/

/-- The release of one mask of a context c in a state d of it, where those before it were released (R70). -/
def Ctx.releaseOf (c d : Ctx) (n : Fin 8) : Ctx :=
  (d.updLanes (c.parkedOn n) fun _ x => { x with st := .runnable }).wrM n.val 0

theorem Ctx.release_eq (c : Ctx) : c.release = (masks.filter c.releases).foldl c.releaseOf c := rfl

theorem Ctx.mem_parkedOn {c : Ctx} {n : Fin 8} {l : Nat} : l ∈ c.parkedOn n ↔ l < c.width ∧ (c.lane l).st = .parked n := by
  simp [Ctx.parkedOn, Ctx.allLanes]

theorem mem_masks (n : Fin 8) : n ∈ masks := by
  revert n
  decide

/-- What each lane is after several masks were released. -/
theorem Ctx.lane_foldl_releaseOf (c : Ctx) (ns : List (Fin 8)) (d : Ctx) (j : Nat) : (ns.foldl c.releaseOf d).lane j =
    if (∃ n ∈ ns, j ∈ c.parkedOn n) ∧ j < d.lanes.length then { d.lane j with st := .runnable } else d.lane j := by
  induction ns generalizing d with
  | nil => simp
  | cons n ns ih =>
    have hlen : (c.releaseOf d n).lanes.length = d.lanes.length := Ctx.updLanes_length ..
    have hlane : (c.releaseOf d n).lane j =
        if j ∈ c.parkedOn n ∧ j < d.lanes.length then { d.lane j with st := .runnable } else d.lane j :=
      Ctx.lane_updLanes d (c.parkedOn n) (g := fun x => { x with st := .runnable }) (fun _ => rfl) j
    rw [List.foldl_cons, ih, hlen, hlane]
    by_cases hj : j ∈ c.parkedOn n <;> by_cases hl : j < d.lanes.length <;> simp [hj, hl]

/-- What each mask is after several were released. -/
theorem Ctx.rdM_foldl_releaseOf (c : Ctx) (ns : List (Fin 8)) {d : Ctx} (hd : Table.wf 0 d.m = true) (n : Fin 8) :
    (ns.foldl c.releaseOf d).rdM n.val = if n ∈ ns then 0 else d.rdM n.val := by
  induction ns generalizing d with
  | nil => simp
  | cons k ns ih =>
    have hm : (c.releaseOf d k).m = Table.set d.m k.val 0 0 := by
      simp [Ctx.releaseOf]
    have hrd : (c.releaseOf d k).rdM n.val = if n = k then 0 else d.rdM n.val := by
      simp only [Ctx.rdM, hm, Table.get_set hd, Fin.ext_iff]
    rw [List.foldl_cons, ih (by rw [hm]; exact Table.wf_set hd), hrd]
    by_cases hk : n = k <;> simp [hk]

/-- What release makes of each lane: one parked on a mask that releases is runnable. -/
theorem Ctx.lane_release (c : Ctx) (l : Nat) : c.release.lane l =
    if ∃ n, c.releases n = true ∧ l ∈ c.parkedOn n then { c.lane l with st := .runnable } else c.lane l := by
  have hhas : (∃ n ∈ masks.filter c.releases, l ∈ c.parkedOn n) ∧ l < c.lanes.length ↔ ∃ n, c.releases n = true ∧ l ∈ c.parkedOn n := by
    constructor
    · rintro ⟨⟨n, hn, hl⟩, -⟩
      exact ⟨n, (List.mem_filter.mp hn).2, hl⟩
    · rintro ⟨n, hn, hl⟩
      refine ⟨⟨n, List.mem_filter.mpr ⟨mem_masks n, hn⟩, hl⟩, Ctx.lt_length_of_lane ?_⟩
      rw [(Ctx.mem_parkedOn.mp hl).2]
      exact LaneSt.noConfusion
  rw [Ctx.release_eq, Ctx.lane_foldl_releaseOf]
  simp only [hhas]

theorem Ctx.rdM_release {c : Ctx} (h : Table.wf 0 c.m = true) (n : Fin 8) :
    c.release.rdM n.val = if c.releases n = true then 0 else c.rdM n.val := by
  rw [Ctx.release_eq, Ctx.rdM_foldl_releaseOf c _ h]
  simp [mem_masks]

/-- When a mask releases: some lane is parked on it, and each enrolled one is, with no debug halt (R70, R370). -/
theorem Ctx.releases_iff (c : Ctx) (n : Fin 8) : c.releases n = true ↔ (∃ j < c.width, (c.lane j).st = .parked n) ∧
    ∀ j < c.width, (c.rdM n.val).getLsbD j = true → (c.lane j).st = .parked n ∧ (c.lane j).halted = false := by
  have hsome : (c.parkedOn n).isEmpty = false ↔ ∃ j < c.width, (c.lane j).st = .parked n := by
    rw [List.isEmpty_eq_false_iff_exists_mem]
    simp only [Ctx.mem_parkedOn]
  rw [Ctx.releases, Bool.and_eq_true, Bool.not_eq_true', hsome]
  simp only [lanesOf, List.all_eq_true, List.mem_filter, List.mem_range, and_imp, Bool.and_eq_true, beq_iff_eq, Bool.not_eq_true']

/-- Settles O25: `lane_release` and `rdM_release` say what release makes of every lane and mask. -/
theorem maskRelease : Obligations.MaskRelease := by
  unfold Obligations.MaskRelease
  intro c n l hl hwf
  refine ⟨fun hp hr => ⟨?_, ?_⟩, fun hp hr => ?_, fun hp => ?_, c.releases_iff n⟩
  · rw [Ctx.lane_release, if_pos ⟨n, hr, Ctx.mem_parkedOn.mpr ⟨hl, hp⟩⟩]
  · rw [Ctx.rdM_release hwf, if_pos hr]
  · rw [Ctx.lane_release, if_neg]
    rintro ⟨k, hk, hmem⟩
    obtain rfl : n = k := LaneSt.parked.inj (hp.symm.trans (Ctx.mem_parkedOn.mp hmem).2)
    exact Bool.false_ne_true (hr.symm.trans hk)
  · rw [Ctx.lane_release, if_neg]
    rintro ⟨k, -, hmem⟩
    exact hp k (Ctx.mem_parkedOn.mp hmem).2

end Sys2Proof.Machine
end

section
/-! PROOFS. Transfers, loops, masks and exits (04_control.md R62 to R75): what each instruction of the class answers, where its
targets may be taken and where they may not, and what its effects leave at commit. -/

namespace Sys2Proof.Machine

/-! Instructions that look up the spawn table. -/

/-- Counting what a quiet read meets places nothing. -/
theorem State.countQuiet_samePlaced (s : State) (w : Who) (va size : Nat) : s.SamePlaced (s.countQuiet w va size) := by
  unfold State.countQuiet
  split
  · split
    · exact s.countUnc_samePlaced _
    · exact .refl s
  · exact s.countUnc_samePlaced _
  · exact .refl s

theorem State.countSpawn_samePlaced (s : State) (w : Who) (idx : Nat) : s.SamePlaced (s.countSpawn w idx) := by
  unfold State.countSpawn
  split
  · exact s.countQuiet_samePlaced ..
  · exact .refl s

@[simp] theorem State.countSpawn_run (s : State) (w : Who) (idx : Nat) : (s.countSpawn w idx).run = s.run := by
  unfold State.countSpawn
  split
  · exact s.countQuiet_run ..
  · rfl

theorem Env.looked_samePlaced (v : Env) : v.s.SamePlaced v.looked := by
  unfold Env.looked
  split
  · exact List.foldlRecOn v.lookups _ (.refl v.s) fun u hu i _ => hu.trans (u.countSpawn_samePlaced v.who i)
  · exact .refl v.s

@[simp] theorem Env.looked_run (v : Env) : v.looked.run = v.s.run := by
  unfold Env.looked
  split
  · exact State.foldl_run (fun u i => u.countSpawn_run v.who i) v.lookups v.s
  · rfl

/-- The instruction stands in its run also where its look-ups are counted. -/
theorem Env.looked_envOf {s : State} {i : Instr} {v : Env} (h : s.envOf i = some v) : v.looked.envOf i = some v.seen := by
  obtain ⟨hview, hrun, hctx, rfl⟩ := s.envOf_eq h
  have hctxs : v.looked.ctxs = v.s.ctxs := congrArg Roster.ctxs v.looked_samePlaced
  have hlooked : v.looked.ctx? v.r.ctx = some v.c := by rw [State.ctx?, hctxs]; exact hctx
  simp only [State.envOf, hview, Env.looked_run, hrun, hlooked]
  rfl

theorem execTable_seen {s : State} {i : Instr} {v : Env} (body : Env → Res) (h : s.envOf i = some v) :
    execTable v.k v.f body s = .next (v.seen.execute body) := by
  rw [execTable_envOf body h]
  exact execIsa_envOf body (Env.looked_envOf h)

/-- How a completion is shown where the instruction looks up the spawn table. -/
theorem performsLooking_of {i : Instr} {k : Kind} {f : Fields} {body : Env → Res} {pre : Env → Prop} {o : Env → Out}
    (hv : i.view = some (k, f)) (hx : ∀ s, exec i s = execTable k f body s)
    (hb : ∀ v : Env, v.f = f → pre v → body v = .ok (o v)) : PerformsLooking i pre o := by
  intro s v he hc hp hd
  obtain ⟨rfl, rfl⟩ : k = v.k ∧ f = v.f := by simpa using hv.symm.trans (s.envOf_eq he).1
  rw [hx, execTable_seen body he, Env.execute_ok hc (hb v.seen rfl hp) hd]

/-- How a trap of its own is shown there. -/
theorem trapsLooking_of {i : Instr} {k : Kind} {f : Fields} {body : Env → Res} {pre : Env → Prop} {t : Env → TrapInfo}
    (hv : i.view = some (k, f)) (hx : ∀ s, exec i s = execTable k f body s)
    (hb : ∀ v : Env, v.f = f → pre v → body v = .trap (t v)) : TrapsLooking i pre t := by
  intro s v he hc hp
  obtain ⟨rfl, rfl⟩ : k = v.k ∧ f = v.f := by simpa using hv.symm.trans (s.envOf_eq he).1
  rw [hx, execTable_seen body he, Env.execute_trap hc (hb v.seen rfl hp)]
  rfl

/-! Targets. -/

/-- Whether a target may not be taken (R62). -/
def badTarget (indirect : Bool) (t : W64) : Bool := decide (t.toNat % 4 ≠ 0 ∨ indirect = true ∧ 2 ^ 56 ≤ t.toNat)

/-- The cause of the trap at a target that may not be taken: misaligned before too high (log entry 57). -/
def targetCause (t : W64) : Nat := if t.toNat % 4 ≠ 0 then 0x04 else 0x05

theorem badTarget_eq_false_iff {indirect : Bool} {t : W64} : badTarget indirect t = false ↔ targetOk indirect t := by
  simp [badTarget, targetOk]

theorem badTargets_eq (indirect : Bool) (ts : List (Nat × W64)) :
    badTargets indirect ts = (ts.filter fun t => badTarget indirect t.2).map fun t => (targetCause t.2, t) := by
  have hone : ∀ t : Nat × W64, (if t.2.toNat % 4 != 0 then some (cMisaligned, t)
      else if indirect && t.2.toNat / 2 ^ 56 != 0 then some (cAccess, t) else none) =
        if badTarget indirect t.2 then some (targetCause t.2, t) else none := fun t => by
    by_cases hmis : t.2.toNat % 4 = 0
    · simp [badTarget, targetCause, cAccess, hmis]
    · simp [badTarget, targetCause, cMisaligned, hmis]
  simp only [badTargets, hone]
  induction ts with
  | nil => rfl
  | cons t ts ih =>
    rw [List.filterMap_cons, ih, List.filter_cons]
    cases badTarget indirect t.2 <;> rfl

/-- A transfer to targets that may be taken. -/
theorem Env.transfer_ok (v : Env) {indirect : Bool} {ts : List (Nat × W64)} (o : Out) (h : ∀ t ∈ ts, targetOk indirect t.2) :
    v.transfer indirect ts o = .ok (v.goes ts o) := by
  have hnone : badTargets indirect ts = [] := by
    rw [badTargets_eq, List.map_eq_nil_iff, List.filter_eq_nil_iff]
    exact fun t ht => by simpa using badTarget_eq_false_iff.mpr (h t ht)
  rw [Env.transfer, hnone]
  cases ts <;> rfl

/-- A transfer of lanes to targets of which some may not be taken. -/
theorem Env.transfer_trap (v : Env) {indirect : Bool} {ls : List Nat} {g : Nat → W64} (o : Out)
    (h : (ls.filter fun l => badTarget indirect (g l)) ≠ []) :
    v.transfer indirect (ls.map fun l => (l, g l)) o =
      let bad := ls.filter fun l => badTarget indirect (g l)
      .trap { v.plainTrap (targetCause (g (bad.headD 0))) with fault := bad, tval := g (bad.headD 0) } := by
  have hbad : badTargets indirect (ls.map fun l => (l, g l)) =
      (ls.filter fun l => badTarget indirect (g l)).map fun l => (targetCause (g l), l, g l) := by
    rw [badTargets_eq, List.filter_map, List.map_map]
    rfl
  obtain ⟨l, rest, hl⟩ := List.exists_cons_of_ne_nil h
  rw [Env.transfer, hbad, hl]
  simp [Env.addrTrap, Function.comp_def]

/-- A transfer of lanes to the relative target, which may be taken or is taken by none. -/
theorem Env.transfer_near (v : Env) {ls : List Nat} (o : Out) (h : ls ≠ [] → targetOk false v.near) :
    v.transfer false (ls.map fun l => (l, v.relTarget)) o = .ok (v.goes (ls.map fun l => (l, v.near)) o) :=
  v.transfer_ok o fun t ht => by
    obtain ⟨l, hl, rfl⟩ := List.mem_map.mp ht
    exact h (List.ne_nil_of_mem hl)

/-- A transfer of lanes to a relative target that is not word aligned. -/
theorem Env.transfer_near_misaligned (v : Env) {ls : List Nat} (o : Out) (hne : ls ≠ []) (h : v.near.toNat % 4 ≠ 0) :
    v.transfer false (ls.map fun l => (l, v.relTarget)) o = .trap { v.plainTrap 0x04 with fault := ls, tval := v.near } := by
  have hall : (ls.filter fun _ => badTarget false v.near) = ls := List.filter_eq_self.mpr fun l _ => by simp [badTarget, h]
  refine (v.transfer_trap (g := fun _ => v.near) o (by rw [hall]; exact hne)).trans ?_
  simp only [hall, targetCause, if_pos h]

/-- An indirect transfer of the lanes that take part. -/
theorem Env.transfer_far (v : Env) {g : Nat → W64} (o : Out) (h : ∀ l ∈ v.parts, targetOk true (g l)) :
    v.transfer true (v.parts.map fun l => (l, g l)) o = .ok (v.goes (v.parts.map fun l => (l, g l)) o) :=
  v.transfer_ok o fun t ht => by
    obtain ⟨l, hl, rfl⟩ := List.mem_map.mp ht
    exact h l hl

/-- An indirect transfer of which some lane's target is misaligned or too high. -/
theorem Env.transfer_far_bad (v : Env) {g : Nat → W64} (o : Out)
    (h : (v.parts.filter fun l => decide ((g l).toNat % 4 ≠ 0 ∨ 2 ^ 56 ≤ (g l).toNat)) ≠ []) :
    v.transfer true (v.parts.map fun l => (l, g l)) o =
      let bad := v.parts.filter fun l => decide ((g l).toNat % 4 ≠ 0 ∨ 2 ^ 56 ≤ (g l).toNat)
      .trap { v.plainTrap (if (g (bad.headD 0)).toNat % 4 ≠ 0 then 0x04 else 0x05) with fault := bad, tval := g (bad.headD 0) } := by
  have hbad : ∀ t, badTarget true t = decide (t.toNat % 4 ≠ 0 ∨ 2 ^ 56 ≤ t.toNat) := fun t => by simp [badTarget]
  have htrap := v.transfer_trap (indirect := true) (ls := v.parts) (g := g) o
  simp only [hbad] at htrap
  exact htrap h

/-! LOOP (R66). -/

theorem Env.loop_v {v : Env} {n : Fin 160} (hd : v.f.d = .v n) : v.loop =
    let count := v.parts.filter fun l => v.c.rdV n.val l != 0
    v.transfer false ((count.filter fun l => v.c.rdV n.val l != 1).map fun l => (l, v.relTarget))
      (Out.regs (count.map fun l => Held.v n.val l (v.c.rdV n.val l - 1))) := by
  rw [Env.loop, hd]

theorem Env.loop_s {v : Env} {n : Fin 64} (hd : v.f.d = .s n) : v.loop =
    if v.lowG = false ∨ v.c.rdS n.val = 0 then .ok Out.nil
    else v.transfer false ((if v.c.rdS n.val = 1 then [] else v.r.lanes).map fun l => (l, v.relTarget))
      (Out.regs [Held.s n.val (v.c.rdS n.val - 1)]) := by
  rw [Env.loop, hd]
  simp only [Bool.or_eq_true, Bool.not_eq_true', beq_iff_eq]
  split
  · rfl
  · split <;> rfl

theorem Env.loop_zero {v : Env} (hd : v.f.d = .zero) : v.loop = .ok Out.nil := by
  rw [Env.loop, hd]

end Sys2Proof.Machine
end

section
/-! PROOFS. The statements on the control class: results, traps and what its effects leave at commit (04_control.md R62 to R75). -/

namespace Sys2Proof.Machine

/-- Settles O24: a transfer with a bad target answers the trap of `transfer_trap`, a successor entry that is not valid its own. -/
theorem badTargetsTrap : Obligations.BadTargetsTrap := by
  unfold Obligations.BadTargetsTrap
  intro f
  refine ⟨?_, ?_, ?_, fun n hd => ?_, fun n hd => ?_, ⟨?_, ?_, ?_⟩, ?_⟩
  · exact traps_of (k := .bra) rfl (fun _ => rfl) fun v _ _ _ ⟨hne, hmis⟩ => v.transfer_near_misaligned _ hne hmis
  · exact traps_of (k := .call) rfl (fun _ => rfl) fun v _ _ _ ⟨hne, hmis⟩ => v.transfer_near_misaligned _ hne hmis
  · refine traps_of (k := .bru) rfl (fun _ => rfl) fun v _ _ _ ⟨hlow, hne, hmis⟩ => ?_
    simp only [hlow, if_true]
    exact v.transfer_near_misaligned _ hne hmis
  · refine traps_of (k := .loopL) rfl (fun _ => rfl) fun v _ hf _ ⟨hne, hmis⟩ => ?_
    have hagain : ((v.parts.filter fun l => v.c.rdV n.val l != 0).filter fun l => v.c.rdV n.val l != 1) =
        v.parts.filter fun l => v.c.rdV n.val l != 0 && v.c.rdV n.val l != 1 := by
      rw [List.filter_filter]
      simp only [Bool.and_comm]
    rw [Env.loop_v (hf ▸ hd)]
    simp only [hagain]
    exact v.transfer_near_misaligned _ hne hmis
  · refine traps_of (k := .loopL) rfl (fun _ => rfl) fun v _ hf _ ⟨hlow, h0, h1, hne, hmis⟩ => ?_
    rw [Env.loop_s (hf ▸ hd), if_neg (not_or.mpr ⟨by simp [hlow], h0⟩), if_neg h1]
    exact v.transfer_near_misaligned _ hne hmis
  · exact traps_of (k := .ret) rfl (fun _ => rfl) fun v _ hf _ hbad => by
      subst hf
      exact v.transfer_far_bad _ hbad
  · exact traps_of (k := .brx) rfl (fun _ => rfl) fun v _ hf _ hbad => by
      subst hf
      exact v.transfer_far_bad _ hbad
  · exact traps_of (k := .callx) rfl (fun _ => rfl) fun v _ hf _ hbad => by
      subst hf
      exact v.transfer_far_bad _ hbad
  · refine trapsLooking_of (k := .exitSucc) rfl (fun _ => rfl) fun v hf ⟨hne, hbad⟩ => ?_
    subst hf
    have hentry : (63 < (v.uni v.f.a).toNat || (v.s.spawnTarget v.who (v.uni v.f.a).toNat).isNone) = true := by
      rw [Bool.or_eq_true, decide_eq_true_iff, Option.isNone_iff_eq_none]
      exact hbad
    simp only [Env.exitSucc, List.isEmpty_eq_false_iff.mpr hne, hentry, Bool.false_eq_true, if_false, if_true]
    rfl

/-! What the effects leave at commit. -/

theorem State.performAct_park {s : State} {c : Ctx} {e : Eff} {m : Fin 8} {ls : List Nat} (he : e.act = .park m ls) (h : s.unheld c) :
    s.performAct c e = some (s.updCtx c.id fun c => c.updLanes ls fun _ x => { x with st := .parked m }) := by
  obtain ⟨hlog, hgated⟩ := h
  simp [State.performAct, he, hlog, hgated]

theorem State.performAct_exit {s : State} {c : Ctx} {e : Eff} {ls : List Nat} (he : e.act = .exit ls) (h : s.unheld c) :
    s.performAct c e = some (s.updCtx c.id fun c => c.exitLanes ls) := by
  obtain ⟨hlog, hgated⟩ := h
  simp [State.performAct, he, hlog, hgated]

theorem State.performAct_succ {s : State} {c : Ctx} {e : Eff} {n : Nat} {arg : W64} (he : e.act = .succ n arg) (h : s.unheld c) :
    s.performAct c e = some (s.updBlock c.block fun b => { b with succSlot := some (n, arg) }) := by
  obtain ⟨hlog, hgated⟩ := h
  simp [State.performAct, he, hlog, hgated]

theorem State.performAct_yieldWarp {s : State} {c : Ctx} {e : Eff} (he : e.act = .yieldWarp) (h : s.unheld c) :
    s.performAct c e = some { s.updCtx c.id (fun c => { c with behind := s.nextId }) with nextId := s.nextId + 1 } := by
  obtain ⟨hlog, hgated⟩ := h
  simp [State.performAct, he, hlog, hgated]

/-- The lanes of an exit cleared from one mask (R72). -/
def Ctx.strikeFrom (ls : List Nat) (c : Ctx) (n : Fin 8) : Ctx := c.wrM n.val (c.rdM n.val &&& ~~~(maskOf ls))

theorem Ctx.exitLanes_eq_foldl (c : Ctx) (ls : List Nat) : c.exitLanes ls =
    masks.foldl (Ctx.strikeFrom ls) (c.updLanes ls fun _ x => { x with st := .exited, halted := false }) := rfl

/-- Clearing lanes from masks leaves everything but the masks. -/
theorem Ctx.foldl_strikeFrom_eq (ls : List Nat) (ns : List (Fin 8)) (c : Ctx) :
    ns.foldl (Ctx.strikeFrom ls) c = { c with m := (ns.foldl (Ctx.strikeFrom ls) c).m } :=
  List.foldlRecOn ns _ (motive := fun d : Ctx => d = { c with m := d.m }) rfl fun d hd n _ => by
    rw [Ctx.strikeFrom, Ctx.wrM, hd]

theorem Ctx.rdM_foldl_strikeFrom (ls : List Nat) (ns : List (Fin 8)) {c : Ctx} (hc : Table.wf 0 c.m = true) (n : Fin 8) :
    (ns.foldl (Ctx.strikeFrom ls) c).rdM n.val = if n ∈ ns then c.rdM n.val &&& ~~~(maskOf ls) &&& c.widthMask else c.rdM n.val := by
  induction ns generalizing c with
  | nil => simp
  | cons k ns ih =>
    have hrd : (c.strikeFrom ls k).rdM n.val = if n = k then c.rdM n.val &&& ~~~(maskOf ls) &&& c.widthMask else c.rdM n.val := by
      rw [Ctx.rdM, Ctx.strikeFrom, Ctx.wrM_m, Table.get_set hc]
      by_cases hk : n = k
      · subst hk
        simp
      · simp [hk, Fin.val_inj, Ctx.rdM]
    have hwidth : (c.strikeFrom ls k).widthMask = c.widthMask := rfl
    rw [List.foldl_cons, ih (Table.wf_set hc), hrd, hwidth]
    by_cases hk : n = k
    · have htwice : ∀ x a b : W64, x &&& a &&& b &&& a &&& b = x &&& a &&& b := fun x a b => by
        ext i
        simp only [BitVec.getElem_and]
        cases x[i] <;> cases a[i] <;> cases b[i] <;> rfl
      simp [hk, htwice]
    · simp [hk]

/-- What an exit leaves of everything but lanes and masks. -/
theorem Ctx.exitLanes_eq (c : Ctx) (ls : List Nat) : c.exitLanes ls = { c with lanes := (c.exitLanes ls).lanes, m := (c.exitLanes ls).m } := by
  rw [Ctx.exitLanes_eq_foldl, Ctx.foldl_strikeFrom_eq, Ctx.updLanes_eq]

theorem Ctx.lane_exitLanes (c : Ctx) (ls : List Nat) (l : Nat) : (c.exitLanes ls).lane l =
    if l ∈ ls ∧ l < c.lanes.length then { c.lane l with st := .exited, halted := false } else c.lane l := by
  have hlanes : (c.exitLanes ls).lanes = (c.updLanes ls fun _ x => { x with st := .exited, halted := false }).lanes := by
    rw [Ctx.exitLanes_eq_foldl, Ctx.foldl_strikeFrom_eq]
  rw [Ctx.lane, hlanes]
  exact Ctx.lane_updLanes c ls (g := fun x => { x with st := .exited, halted := false }) (fun _ => rfl) l

theorem Ctx.rdM_exitLanes {c : Ctx} (hc : Table.wf 0 c.m = true) (ls : List Nat) {n : Nat} (hn : n < 8) :
    (c.exitLanes ls).rdM n = c.rdM n &&& ~~~(maskOf ls) &&& c.widthMask := by
  have hm : ∀ d : Ctx, d.m = c.m → d.width = c.width → d.rdM n = c.rdM n ∧ d.widthMask = c.widthMask := fun d h hw => by
    simp [Ctx.rdM, Ctx.widthMask, h, hw]
  obtain ⟨hrd, hwidth⟩ := hm _ (c.updLanes_m ls fun _ x => { x with st := .exited, halted := false }) (c.updLanes_width ..)
  rw [Ctx.exitLanes_eq_foldl]
  refine (Ctx.rdM_foldl_strikeFrom ls masks (by rw [Ctx.updLanes_m]; exact hc) ⟨n, hn⟩).trans ?_
  rw [if_pos (mem_masks _), hrd, hwidth]

/-- A commit whose effect is performed leaves what it gives. -/
theorem commits_of {a : Act} {pre : State → Ctx → Prop} {post : Eff → State → Ctx → State → Prop} {t : State → Ctx → State}
    (ht : ∀ {s : State} {c : Ctx} {e : Eff}, e.act = a → s.unheld c → s.performAct c e = some (t s c))
    (hpost : ∀ e s c, post e s c (t s c)) : Commits a pre post :=
  fun s c e he hu _ => ⟨t s c, ht he hu, hpost e s c⟩

/-- Settles O23: each transfer answers `goes` where its targets may be taken (`transfer_ok`), and each effect is performed at commit as
its own lemma says. -/
theorem controlInstructions : Obligations.ControlInstructions := by
  unfold Obligations.ControlInstructions
  intro f all any callx okNear okFar whole count again
  refine ⟨?nop, ?bra, ?bru, ?call, ?brx, ?callx, ?ret, fun n hd => ?loopV, fun n hd => ?loopS, fun hd => ?loopZero, ?masks, ?exitL,
    ?exitSucc, ?yield, fun m ls => ?parks, fun ls => ?exits, fun n arg => ?succeeds, ?yields⟩
  case nop => exact performs_of (k := .nop) rfl (fun _ => rfl) fun v _ _ _ _ => rfl
  case bra => exact performs_of (k := .bra) rfl (fun _ => rfl) fun v _ _ _ h => v.transfer_near _ h
  case bru => exact performs_of (k := .bru) rfl (fun _ => rfl) fun v _ _ _ h => v.transfer_near _ h
  case call => exact performs_of (k := .call) rfl (fun _ => rfl) fun v _ _ _ h => v.transfer_near _ h
  case brx =>
    exact performs_of (k := .brx) rfl (fun _ => rfl) fun v _ hf _ h => by
      subst hf
      exact v.transfer_far _ h
  case callx =>
    exact performs_of (k := .callx) rfl (fun _ => rfl) fun v _ hf _ h => by
      subst hf
      exact v.transfer_far _ h
  case ret =>
    exact performs_of (k := .ret) rfl (fun _ => rfl) fun v _ hf _ h => by
      subst hf
      exact v.transfer_far _ h
  case loopV =>
    exact performs_of (k := .loopL) rfl (fun _ => rfl) fun v _ hf _ h => by
      rw [Env.loop_v (hf ▸ hd)]
      exact v.transfer_near _ h
  case loopS =>
    refine performs_of (k := .loopL) rfl (fun _ => rfl) fun v _ hf _ h => ?_
    rw [Env.loop_s (hf ▸ hd), Env.onceOut]
    cases hlow : v.lowG with
    | false => rfl
    | true =>
      by_cases h0 : v.c.rdS n.val = 0
      · rw [if_pos (.inr h0), if_pos rfl, if_pos h0]
      · rw [if_neg (not_or.mpr ⟨Bool.noConfusion, h0⟩), if_pos rfl, if_neg h0]
        by_cases h1 : v.c.rdS n.val = 1
        · simp only [if_pos h1]
          exact v.transfer_near _ fun hne => absurd rfl hne
        · simp only [if_neg h1]
          exact v.transfer_near _ (h hlow h0 h1)
  case loopZero => exact performs_of (k := .loopL) rfl (fun _ => rfl) fun v _ hf _ _ => Env.loop_zero (hf ▸ hd)
  case masks =>
    refine ⟨?_, ?_, ?_⟩
    · refine performs_of (k := .enrol) rfl (fun _ => rfl) fun v _ hf _ _ => ?_
      subst hf
      rw [Env.enrol, Env.someOut]
      split <;> rfl
    · refine performs_of (k := .strike) rfl (fun _ => rfl) fun v _ hf _ _ => ?_
      subst hf
      rw [Env.enrol, Env.someOut]
      split <;> rfl
    · exact performs_of (k := .park) rfl (fun _ => rfl) fun v _ hf _ _ => by
        subst hf
        rfl
  case exitL => exact performs_of (k := .exitL) rfl (fun _ => rfl) fun v _ _ _ _ => rfl
  case exitSucc =>
    refine performsLooking_of (k := .exitSucc) rfl (fun _ => rfl) fun v hf h => ?_
    subst hf
    rw [Env.exitSucc, Env.someOut]
    by_cases hne : v.parts = []
    · simp [hne]
    · obtain ⟨hle, hvalid⟩ := h hne
      have hentry : (decide (63 < (v.uni v.f.a).toNat) || (v.s.spawnTarget v.who (v.uni v.f.a).toNat).isNone) = false := by
        rw [Bool.or_eq_false_iff, decide_eq_false_iff_not, Option.isNone_eq_false_iff]
        exact ⟨Nat.not_lt.mpr hle, hvalid⟩
      simp only [List.isEmpty_eq_false_iff.mpr hne, hentry, Bool.false_eq_true, if_false]
      rfl
  case yield => exact performs_of (k := .yield) rfl (fun _ => rfl) fun v _ _ _ _ => rfl
  case parks =>
    refine commits_of State.performAct_park fun _ s c => ⟨_, rfl, fun x => ⟨Ctx.updLanes_eq .., fun l hl => ?_⟩⟩
    simpa only [hl, and_true] using Ctx.lane_updLanes x ls (g := fun x => { x with st := .parked m }) (fun _ => rfl) l
  case exits =>
    refine commits_of State.performAct_exit fun _ s c => ⟨_, rfl, fun x => ⟨x.exitLanes_eq ls, fun l hl => ?_, fun hwf n hn => ?_⟩⟩
    · simpa only [hl, and_true] using x.lane_exitLanes ls l
    · exact Ctx.rdM_exitLanes hwf ls hn
  case succeeds => exact commits_of State.performAct_succ fun _ _ _ => rfl
  case yields => exact commits_of State.performAct_yieldWarp fun _ _ _ => rfl

end Sys2Proof.Machine
end

section
/-! PROOFS. Events of the Lens (13_spawn.md R270 to R280): entries become eligible, warps are formed, spilled entries come back, child
warps are admitted. -/

namespace Sys2Proof.Machine

theorem State.entryEligible_found {s : State} {ck id : Nat}
    (h : (s.clusterKeys.find? fun k => (s.cluster k).spawnQ.any fun e => e.id == id && e.added && e.eligible.isNone) = some ck) :
    s.entryEligible id = some (s.setCluster ck { s.cluster ck with spawnQ := (s.cluster ck).spawnQ.map fun e =>
      if e.id = id then { e with eligible := some (Table.get s.cyc ck 0) } else e }) := by
  simp only [State.entryEligible, h, updWhere, beq_iff_eq]

theorem State.fullWarp_full {s : State} {l : Launch} {ck e : Nat} (hl : s.launch? l.id = some l)
    (hfull : l.record.lanes ≤ (s.bin ck l.id e).length) :
    s.fullWarp ck l.id e = some (s.formWarp ck l.id e ((s.bin ck l.id e).take l.record.lanes)) := by
  simp only [State.fullWarp, hl, if_pos hfull]

theorem State.ageFlush_aged {s : State} {l : Launch} {ck e t : Nat} {x : Spawned} (hl : s.launch? l.id = some l)
    (hx : (s.bin ck l.id e).head? = some x) (ht : x.eligible = some t) (hage : t + 256 ≤ Table.get s.cyc ck 0) :
    s.ageFlush ck l.id e = some (s.flushBin ck l.id e l.record.lanes ((s.bin ck l.id e).length + 1)) := by
  simp [State.ageFlush, hl, hx, ht, hage]

/-- A warp of one entry (R276): it is the last of the formed ones, and its entry has left the queue. -/
theorem State.formWarp_one {s : State} (h : Table.wf Cluster.reset s.clusters = true) (ck lid e : Nat) (x : Spawned) :
    ((s.formWarp ck lid e [x]).cluster ck).formed = (s.cluster ck).formed ++ [{ launch := lid, entry := e, members := [x] }]
      ∧ ∀ y ∈ ((s.formWarp ck lid e [x]).cluster ck).spawnQ, y.id ≠ x.id := by
  rw [State.formWarp, State.cluster_setCluster h, if_pos rfl]
  refine ⟨rfl, fun y hy => ?_⟩
  have hne : x.id ≠ y.id := by simpa using (List.mem_filter.mp hy).2
  exact hne.symm

/-- An otherwise idle cluster with eligible entries, to which the Hearth could admit nothing, is flushed (R276). -/
theorem State.idleFlush_isSome {s : State} {ck : Nat} (hadm : s.admissible ck = false)
    (he : ∃ e ∈ (s.cluster ck).spawnQ, e.eligible.isSome = true)
    (hidle : ∀ c ∈ s.ctxs, c.kind ≠ .seq → clusterKey c.loc = ck → c.saved = false → c.ended = false →
      ∀ l < c.width, (c.lane l).st ≠ .runnable ∨ (c.lane l).halted = true) : (s.idleFlush ck).isSome = true := by
  have hrun : (s.ctxs.any fun c => c.kind != .seq && clusterKey c.loc == ck && !c.saved && !c.ended
      && c.allLanes.any fun l => (c.lane l).st == .runnable && !(c.lane l).halted) = false := by
    rw [List.any_eq_false]
    intro c hc
    simp only [Bool.and_eq_true, bne_iff_ne, beq_iff_eq, Bool.not_eq_true', List.any_eq_true, Ctx.allLanes, List.mem_range, not_and,
      not_exists, and_imp]
    intro hkind hloc hsaved hended l hl hst hhalt
    rcases hidle c hc hkind hloc hsaved hended l hl with h | h
    · exact h hst
    · exact Bool.false_ne_true (hhalt.symm.trans h)
  have hsome : ((s.cluster ck).spawnQ.filter fun e => e.eligible.isSome).isEmpty = false := by
    obtain ⟨e, hmem, hel⟩ := he
    exact List.isEmpty_eq_false_iff_exists_mem.mpr ⟨e, List.mem_filter.mpr ⟨hmem, hel⟩⟩
  simp only [State.idleFlush, hrun, hsome, hadm, Bool.or_self, Bool.false_eq_true, if_false, Option.isSome_some]

/-- The oldest spilled entry, read back where the launch has room for it on chip (R270). -/
theorem State.spillReturn_read {s s1 : State} {l : Launch} {ck : Nat} {bs : List Byte} (hl : s.launch? l.id = some l)
    (hsome : l.spilled ck ≠ 0) (hquota : s.heldEntries l.id ck < l.record.quota) (hroom : s.heldAll ck < 4096)
    (hread : s.rdVa (lensWho l.id ck) (l.spillPart ck + 64 + 32 * (Table.get l.spillHead ck 0 % l.record.spillN)) 32 = (s1, some bs)) :
    let head := Table.get l.spillHead ck 0
    let l1 := { l with spillHead := Table.set l.spillHead ck ((head + 1) % 2 ^ 32) 0, voided := l.voided.filter fun p => p != (ck, head) }
    let e := spilledEntry bs s1.nextId l.id ck (!s.spawnPending l.id ck head) head
    let s2 : State := { s1.setCluster ck { s1.cluster ck with
      spawnQ := if (ck, head) ∈ l.voided then (s1.cluster ck).spawnQ else (s1.cluster ck).spawnQ ++ [e] } with nextId := s1.nextId + 1 }
    s.spillReturn ck l.id = some ((s2.updLaunch l.id fun _ => l1).writeSpillHeader l1 ck (l.spilled ck)) := by
  have hmay : (l.spilled ck == 0 || l.record.quota ≤ s.heldEntries l.id ck || 4096 ≤ s.heldAll ck) = false := by
    simp [hsome, hquota, hroom]
  simp only [State.spillReturn, hl, hmay, Bool.false_eq_true, if_false, hread, List.contains_iff_mem]

/-- A core below 24 of a cluster is one of its cores. -/
theorem locOf_mem_coreOrder {ck core : Nat} (hck : clusterKey (locOf core) = ck) (hcore : (locOf core).core < 24) :
    locOf core ∈ coreOrder ck [] := by
  have hkey : core = 25 * ck + core % 25 := by
    simp only [clusterKey, locOf] at hck
    omega
  have hlt : core % 25 < 24 := hcore
  simp only [coreOrder, List.filter_nil, List.nil_append]
  refine List.mem_map_of_mem (List.mem_eraseDups.mpr (List.mem_map.mpr ⟨core % 25, List.mem_range.mpr hlt, hkey.symm⟩))

theorem State.admitChild_first {s : State} {l : Launch} {f : Formed} {rest : List Formed} {ck core : Nat}
    (hck : clusterKey (locOf core) = ck) (hcore : (locOf core).core < 24) (hf : (s.cluster ck).formed = f :: rest)
    (hl : s.launch? f.launch = some l) (hfits : s.childFits l (locOf core) = true) (hrest : s.restorable ck = false) :
    s.admitChild ck core = some (s.startChild l ck f (locOf core)) := by
  have hany : ((coreOrder ck []).any fun c => s.childFits l c) = true :=
    List.any_eq_true.mpr ⟨_, locOf_mem_coreOrder hck hcore, hfits⟩
  have hfirst : s.firstFormed ck = some (l, f) := by
    simp only [State.firstFormed, hf, List.findSome?_cons, hl, hany, if_true]
  have hmay : (clusterKey (locOf core) != ck || decide (24 ≤ (locOf core).core) || s.restorable ck) = false := by
    simp [hck, hcore, hrest]
  simp only [State.admitChild, hmay, Bool.false_eq_true, if_false, hfirst, hfits, if_true]

end Sys2Proof.Machine
end

section
/-! PROOFS. Ends of warps, successors, relaunched blocks and failed reductions (04_control.md R73, R75; 07_memory.md R161; 10_atomics.md
R218). -/

namespace Sys2Proof.Machine

/-- How an event is shown of which only what it leaves is said. -/
theorem leaves_of_event {i : Instr} {pre : State → Prop} {post : State → State → Prop} {r : State → Option State}
    (hx : ∀ s, exec i s = event s (r s)) (hr : ∀ s, pre s → ∃ t, r s = some t ∧ post s t) : Leaves i pre post := by
  intro s hb hp
  obtain ⟨t, ht, hpost⟩ := hr s hp
  exact ⟨t, by rw [hx, ht, event_of_between hb], hpost⟩

/-- A context of a number after the contexts of that number were changed. -/
theorem State.mem_updCtx {s : State} {id : Nat} {g : Ctx → Ctx} {x : Ctx} (h : x ∈ (s.updCtx id g).ctxs) :
    ∃ y ∈ s.ctxs, x = if y.id = id then g y else y := by
  rw [State.updCtx_ctxs, updWhere_id_eq] at h
  obtain ⟨y, hy, rfl⟩ := List.mem_map.mp h
  exact ⟨y, hy, rfl⟩

/-! The end of a warp (R73). -/

/-- Latching a counter bank writes to memory and may count an error: it places nothing. -/
theorem State.resultAdd_samePlaced (s : State) (l : Launch) (off n : Nat) : s.SamePlaced (s.resultAdd l off n) := by
  unfold State.resultAdd
  split
  · exact .refl s
  · have hpa := s.hearthPa_samePlaced (l.record.result + off) .rmw
    split <;> rename_i h <;> rw [h] at hpa
    · split
      · exact hpa.trans (State.countUnc_samePlaced ..)
      · exact hpa.trans (.of_roster (State.wr_roster ..))
    · exact hpa

theorem State.latchBank_samePlaced (s : State) (launch : Nat) (l : Loc) : s.SamePlaced (s.latchBank launch l) := by
  unfold State.latchBank
  simp only
  split
  · rename_i i la _ _
    refine State.SamePlaced.trans ?_ (.of_roster (State.setBanks_roster ..))
    exact List.foldlRecOn (motive := s.SamePlaced) _ _ (.refl s) fun u hu j _ => hu.trans (u.resultAdd_samePlaced ..)
  · exact .refl s

@[simp] theorem State.latchBank_ctxs (s : State) (launch : Nat) (l : Loc) : (s.latchBank launch l).ctxs = s.ctxs :=
  congrArg Roster.ctxs (s.latchBank_samePlaced launch l)

@[simp] theorem State.charge_ctxs (s : State) (ck plus minus : Nat) : (s.charge ck plus minus).ctxs = s.ctxs := rfl

theorem State.ctxs_ite_latchBank (s : State) (p : Bool) (launch : Nat) (l : Loc) :
    (if p = true then s else s.latchBank launch l).ctxs = s.ctxs := by
  split
  · rfl
  · exact s.latchBank_ctxs launch l

theorem State.removeBlock_ctxs (s : State) (b : Block) :
    (s.removeBlock b).ctxs = s.ctxs.filter fun c => c.block != b.id || c.kind == .seq :=
  State.ctxs_ite_latchBank ..

theorem State.removeGang_ctxs (s : State) (g : Gang) :
    (s.removeGang g).ctxs = s.ctxs.filter fun c => !(c.kind == .seq && c.gang == g.id) :=
  State.ctxs_ite_latchBank ..

/-- Sweeping adds no context. -/
theorem State.sweep_ctxs_subset (s : State) : s.sweep.ctxs ⊆ s.ctxs := by
  have hblocks : (s.blocks.foldl (fun s b => if s.blockOver b && b.succSlot.isNone then s.removeBlock b else s) s).ctxs ⊆ s.ctxs :=
    List.foldlRecOn (motive := fun u : State => u.ctxs ⊆ s.ctxs) _ _ (List.Subset.refl _) fun u hu b _ => by
      split
      · rw [State.removeBlock_ctxs]
        exact fun x hx => hu (List.mem_of_mem_filter hx)
      · exact hu
  unfold State.sweep
  exact List.foldlRecOn (motive := fun u : State => u.ctxs ⊆ s.ctxs) _ _ hblocks fun u hu g _ => by
    split
    · rw [State.removeGang_ctxs]
      exact fun x hx => hu (List.mem_of_mem_filter hx)
    · exact hu

/-- A warp without join counters decrements none. -/
theorem State.jcDecrements_none {s : State} {c : Ctx} (h : ∀ l < c.width, (c.lane l).jc = 0) : s.jcDecrements c = s :=
  List.foldlRecOn (motive := fun u => u = s) _ _ rfl fun u hu l hl => by
    simp only [h l (List.mem_range.mp hl), beq_self_eq_true, if_true]
    exact hu

/-- The end of a warp without join counters ends every context of its number. -/
theorem State.warpEnd_ended {s : State} {c : Ctx} {cid : Nat} (hc : s.ctx? cid = some c) (hend : s.canEnd c = true)
    (hjc : ∀ l < c.width, (c.lane l).jc = 0) :
    ∃ t, s.warpEnd cid = some t ∧ ∀ x, t.ctx? cid = some x → x.ended = true := by
  have hlog : s.behindLog c = false := by
    rw [State.canEnd, Bool.and_eq_true, Bool.not_eq_true'] at hend
    exact hend.2
  have hlog' : ∀ g, (s.updCtx cid g).behindLog c = false := fun _ => hlog
  have hended : ∀ (u : State) (x : Ctx), x ∈ (u.updCtx cid fun c => { c with ended := true }).ctxs → x.id = cid → x.ended = true := by
    intro u x hx hid
    obtain ⟨y, -, rfl⟩ := State.mem_updCtx hx
    split
    · rfl
    · rw [if_neg ‹_›] at hid
      exact absurd hid ‹_›
  unfold State.warpEnd
  simp only [hc, hend, Bool.not_true, Bool.false_eq_true, if_false, State.jcDecrements_none hjc, hlog']
  refine ⟨_, rfl, fun x hx => ?_⟩
  have hmem := State.sweep_ctxs_subset _ (List.mem_of_find?_eq_some hx)
  have hid : x.id = cid := by simpa using List.find?_some hx
  split at hmem <;> exact hended _ x hmem hid

/-! A successor (R75). -/

theorem Table.wf_argTable (args : List W64) : Table.wf 0 (argTable args) = true :=
  List.foldlRecOn (motive := fun t : Table W64 => Table.wf 0 t = true) _ _ rfl fun _ ht _ _ => Table.wf_set ht

/-- The warps of a successor have its argument in s16. -/
theorem State.mem_startWarps {s : State} {l : Launch} {b : Block} {n cost : Nat} {pc arg : W64} {gens : Nat → Nat} {x : Ctx}
    (h : x ∈ (s.startWarps l b n pc (some arg) cost gens).ctxs) : x ∈ s.ctxs ∨ x.rdS 16 = arg ∧ x.ended = false := by
  refine List.foldlRecOn (motive := fun u : State => ∀ x ∈ u.ctxs, x ∈ s.ctxs ∨ x.rdS 16 = arg ∧ x.ended = false) _ _
    (fun x hx => .inl hx) (fun u hu i _ x hx => ?_) x h
  rcases List.mem_append.mp hx with hx | hx
  · exact hu x hx
  · obtain rfl := List.mem_singleton.mp hx
    have hreg : Table.get (Table.set (argTable l.record.args) 16 arg 0) 16 0 = arg := by
      rw [Table.get_set (Table.wf_argTable l.record.args), if_pos rfl]
    exact .inr (by simp only [Ctx.rdS, Ctx.start, hreg, and_self])

@[simp] theorem State.clearAccs_ctxs (s : State) (l : Loc) : (s.clearAccs l).ctxs = s.ctxs := congrArg Roster.ctxs (s.clearAccs_roster l)

/-- A successor whose entry is valid starts where its block has ended and the slots that its warps had are free. -/
theorem State.startSuccessor_starts {s : State} {b : Block} {l : Launch} {e : Nat} {arg : W64} (hb : s.block? b.id = some b)
    (hl : s.launch? b.launch = some l) (hslot : b.succSlot = some (e, arg)) (hkilled : b.killed = false) (hover : s.blockOver b = true)
    (hvalid : (s.spawnTarget (lensWho b.launch (clusterKey b.loc)) e).isSome = true)
    (hroom : let held := s.ctxs.filter fun c => c.block == b.id && c.kind != .seq && s.resident b.loc c
      let n := if b.child = true then 1 else l.record.warps
      (s.coreLoad b.loc).1 - held.length + n ≤ 48
        ∧ (s.coreLoad b.loc).2 - held.foldl (fun n c => n + c.width * c.vregs * 4) 0 + n * l.record.warpBytes ≤ 524288) :
    ∃ t, s.startSuccessor b.id = some t ∧ ∀ c ∈ t.ctxs, c.block = b.id → c.kind ≠ .seq → c.rdS 16 = arg ∧ c.ended = false := by
  obtain ⟨hwarps, hbytes⟩ := hroom
  unfold State.startSuccessor
  simp only [hb, hslot, hl, hkilled, hover, hvalid, Bool.not_true, Bool.or_self, Bool.false_or, Bool.or_eq_true, decide_eq_true_eq]
  rw [if_neg (not_or.mpr ⟨Nat.not_lt.mpr hwarps, Nat.not_lt.mpr hbytes⟩), if_pos trivial]
  refine ⟨_, rfl, fun c hc hblock hkind => ?_⟩
  rcases State.mem_startWarps hc with hold | hnew
  · have hfilter : c ∈ s.ctxs.filter fun c => c.block != b.id || c.kind == .seq := by
      split at hold
      · simpa using hold
      · exact hold
    have hkept := (List.mem_filter.mp hfilter).2
    simp [hblock, hkind] at hkept
  · exact hnew

/-! A relaunched block (R161), and reports of reductions (R218). -/

theorem State.relaunchBlock_admitted {s : State} {l : Launch} {g : Gang} {core gid idx base : Nat} {rest : List (Nat × Nat)}
    (hl : s.launch? l.id = some l) (hq : l.relaunchQ = (gid, idx) :: rest) (hg : s.gang? gid = some g) (hsaved : g.saved = false)
    (hdying : l.dying = false) (hdie : (locOf core).die = g.die) (hcluster : (locOf core).cluster = g.cluster) (hcore : (locOf core).core < 24)
    (hfree : ∀ b ∈ s.blocks, b.gang = gid → b.loc ≠ locOf core ∧ b.index ≠ idx)
    (hrestore : s.restorable (clusterKey (locOf core)) = false) (hfirst : s.firstFormed (clusterKey (locOf core)) = none)
    (hformed : ∀ f ∈ (s.cluster (clusterKey (locOf core))).formed, f.launch ≠ l.id)
    (henergy : s.energyOk (clusterKey (locOf core)) (s.weight l.record.energy * l.record.warps) 0 = true)
    (hadmits : s.admits l g.linear idx (locOf core) = some base) :
    s.relaunchBlock l.id core = some ((s.updLaunch l.id fun x => { x with relaunchQ := rest }).startBlock l gid g.linear idx (locOf core)
      base true) := by
  have hblocks : (s.blocks.any fun b => b.gang == gid && (b.loc == locOf core || b.index == idx)) = false := by
    rw [List.any_eq_false]
    intro b hb
    simp only [Bool.and_eq_true, beq_iff_eq, Bool.or_eq_true, not_and, not_or]
    exact hfree b hb
  have hnone : ((s.cluster (clusterKey (locOf core))).formed.any fun f => f.launch == l.id) = false := by
    simpa [List.any_eq_false] using hformed
  unfold State.relaunchBlock
  simp only [hl, hq, hg]
  rw [if_neg (by simp [hsaved, hdying, hdie, hcluster, hcore, hblocks, hrestore, hfirst, hnone, henergy]), hadmits]
  rfl

/-- What a report of a block's failed reduction, or of one that has ended, leaves of the reports. -/
theorem State.homeFailure_block {s : State} {i : Nat} {r : RedFail} (hr : s.redFails[i]? = some r) (hblock : r.block ≠ 0) :
    let left : State := { s with redFails := s.redFails.filter fun x => x.block != r.block }
    (∀ b, s.block? r.block = some b → s.homeFailure i = some ((left.killUnc r.block r.pc r.lane r.addr).sweep))
    ∧ (s.block? r.block = none → s.ctx? r.ctx = none → s.homeFailure i =
        some (((left.noteKill r.launch 0x0B r.pc r.lane r.loc r.addr).afterUnc r.launch r.gang r.index r.relaunched r.child).sweep)) := by
  intro left
  have h0 : (r.block == 0) = false := by simpa using hblock
  have hleft : ({ s with redFails := s.redFails.filter fun x => if r.block == 0 then x.ctx != r.ctx else x.block != r.block } : State) = left := by
    simp only [h0, Bool.false_eq_true, if_false, left]
  have hfind : left.block? r.block = s.block? r.block := rfl
  have hctx : left.ctx? r.ctx = s.ctx? r.ctx := rfl
  refine ⟨fun b hb => ?_, fun hb hc => ?_⟩
  · simp only [State.homeFailure, hr, hleft, hfind, hb]
  · simp only [State.homeFailure, hr, hleft, hfind, hctx, hb, hc, Option.filter_none]

/-- A report of a sequencer context takes its gang with it. -/
theorem State.homeFailure_sequencer {s : State} {i : Nat} {r : RedFail} {c : Ctx} (hr : s.redFails[i]? = some r) (hblock : r.block = 0)
    (hkind : c.kind = .seq) (hended : c.ended = false) (hb : s.block? 0 = none) (hc : s.ctx? r.ctx = some c) :
    s.homeFailure i =
      some ((({ s with redFails := s.redFails.filter fun x => x.ctx != r.ctx } : State).killGang c 0x0B r.pc r.lane r.addr).sweep) := by
  let left : State := { s with redFails := s.redFails.filter fun x => x.ctx != r.ctx }
  have hleft : ({ s with redFails := s.redFails.filter fun x => if r.block == 0 then x.ctx != r.ctx else x.block != r.block } : State) = left := by
    simp only [hblock, beq_self_eq_true, if_true, left]
  have hfind : left.block? 0 = none := hb
  have hctx : left.ctx? r.ctx = some c := hc
  have hseq : (some c).filter (fun c : Ctx => c.kind == .seq && !c.ended) = some c := by simp [hkind, hended]
  simp only [State.homeFailure, hr, hleft]
  simp only [hblock, hfind, hctx, hseq]
  rfl

end Sys2Proof.Machine
end

section
/-! PROOFS. What reads and writes of memory, counters and failed decrements leave of the contexts: all of them. -/

namespace Sys2Proof.Machine

/-- A fold of steps that leave the contexts leaves them. -/
theorem State.foldl_ctxs {α : Type} {g : State → α → State} (hg : ∀ u a, (g u a).ctxs = u.ctxs) (as : List α) (s : State) :
    (as.foldl g s).ctxs = s.ctxs :=
  List.foldlRecOn as g (motive := fun t => t.ctxs = s.ctxs) rfl fun u hu a _ => (hg u a).trans hu

/-! Memory and translation. -/

@[simp] theorem State.countUnc_ctxs (s : State) (pa : Nat) : (s.countUnc pa).ctxs = s.ctxs :=
  congrArg Roster.ctxs (s.countUnc_samePlaced pa)

@[simp] theorem State.putBytes_ctxs (s : State) (pa : Nat) (bs : List Byte) : (s.putBytes pa bs).ctxs = s.ctxs := by
  rw [s.putBytes_eq]

@[simp] theorem State.wr_ctxs (s : State) (pa : Nat) (bs : List Byte) : (s.wr pa bs).ctxs = s.ctxs :=
  congrArg Roster.ctxs (s.wr_roster pa bs)

@[simp] theorem State.wrN_ctxs (s : State) (pa n x : Nat) : (s.wrN pa n x).ctxs = s.ctxs := s.wr_ctxs ..

@[simp] theorem State.heat_ctxs (s : State) (ea : Nat) (t : AccessType) : (s.heat ea t).ctxs = s.ctxs := by
  unfold State.heat
  extract_lets e lo h
  split
  · rfl
  · exact s.putBytes_ctxs ..

@[simp] theorem State.tlbFill_ctxs (s : State) (die : Nat) (units : List Nat) (va ea : Nat) (e : W64) (large : Bool) :
    (s.tlbFill die units va ea e large).ctxs = s.ctxs := rfl

@[simp] theorem State.pushNotice_ctxs (s : State) (die : Nat) (w0 w1 : W64) : (s.pushNotice die w0 w1).ctxs = s.ctxs := by
  simp [State.pushNotice]

@[simp] theorem State.postNotice_ctxs (s : State) (w : Who) (va kind : Nat) : (s.postNotice w va kind).ctxs = s.ctxs := by
  simp only [State.postNotice]
  split
  · rfl
  · split <;> simp

@[simp] theorem State.countMigration_ctxs (s : State) (w : Who) (va ea : Nat) (e : W64) (pa : Nat) :
    (s.countMigration w va ea e pa).ctxs = s.ctxs := by
  grind [State.countMigration, State.putBytes_ctxs, State.pushNotice_ctxs, State.setReg_ctxs]

@[simp] theorem State.translateRaw_ctxs (s : State) (w : Who) (va size : Nat) (t : AccessType) :
    (s.translateRaw w va size t).1.ctxs = s.ctxs := by
  unfold State.translateRaw
  split
  · rfl
  · extract_lets hit
    split
    case h_4 ea e large _ =>
      extract_lets pa reaches s0 s1 ok
      split
      · rfl
      · have h0 : s0.ctxs = s.ctxs := by
          simp only [s0]
          split <;> simp
        have h1 : s1.ctxs = s.ctxs := by
          simp only [s1]
          split <;> simp [h0]
        split <;> simp [h1]
    all_goals rfl

@[simp] theorem State.resolve_ctxs (s : State) (w : Who) (space : Nat) (addr : W64) (size : Nat) (t : AccessType) :
    (s.resolve w space addr size t).1.ctxs = s.ctxs := by
  grind [State.resolve, State.translate, State.translateRaw_ctxs]

@[simp] theorem State.tryAccess_ctxs (s : State) (w : Who) (space esz : Nat) (addr : W64) (t : AccessType) (atomic : Bool) :
    (s.tryAccess w space esz addr t atomic).1.ctxs = s.ctxs := by
  grind [State.tryAccess, State.translateRaw_ctxs, State.resolve_ctxs, State.countUnc_ctxs]

/-! Logs, spawned entries and decrements. -/

@[simp] theorem State.addLog_ctxs (s : State) (l : Loc) (e : LogEntry) : (s.addLog l e).ctxs = s.ctxs := by
  unfold State.addLog
  rw [(State.countAt_sameBanked _ e.launch l 7 1).eq]
  rfl

@[simp] theorem State.voidSpawns_ctxs (s : State) (launch ck : Nat) (acts : List Act) : (s.voidSpawns launch ck acts).ctxs = s.ctxs := by
  simp only [State.voidSpawns]
  split <;> rfl

@[simp] theorem State.jcDecrement_ctxs (s : State) (w : Who) (pc : W64) (space : Nat) (a : Acc) :
    (s.jcDecrement w pc space a).ctxs = s.ctxs := by
  have hfail : ∀ (u : State) cause, (u.jcFailure w pc a.lane cause space (BitVec.ofNat 64 a.addr)).ctxs = u.ctxs := fun _ _ => rfl
  grind [State.jcDecrement, State.tryAccess_ctxs, State.countUnc_ctxs, State.wrN_ctxs, State.addLog_ctxs, State.postNotice_ctxs]

@[simp] theorem State.jcDecrements_ctxs (s : State) (c : Ctx) : (s.jcDecrements c).ctxs = s.ctxs := by
  refine State.foldl_ctxs (fun u l => ?_) c.allLanes s
  simp only
  split
  · rfl
  · exact u.jcDecrement_ctxs ..

end Sys2Proof.Machine
end

section
/-! PROOFS. Evicted warps (13_spawn.md R281): one that leaves its core, one that comes back. A warp that is in its core stays there
whatever a monitored read does, even where its data is uncorrectable and its block is killed. -/

namespace Sys2Proof.Machine

/-! The eviction of the one warp that is there. -/

theorem State.childSlot_none {s : State} (h : ∀ b ∈ s.blocks, b.slotCtx = none) (c : Ctx) : s.childSlot c = none := by
  unfold State.childSlot
  split
  · rename_i b hb
    have hslot : b.slotCtx = none := h b (List.mem_of_find?_eq_some hb)
    simp [hslot]
  · rfl

/-- The one join-waiting warp of a stuck launch is saved in the launch's context area. -/
theorem State.evict_only {s : State} {c : Ctx} {l : Launch} {ck va : Nat} (hl : s.launch? l.id = some l) (hctxs : s.ctxs = [c])
    (hlaunch : c.launch = l.id) (hck : clusterKey c.loc = ck) (hwait : s.joinWaiting c = true) (hsince : c.waitSince ≠ 0)
    (hlong : c.waitSince + 4096 ≤ Table.get s.cyc ck 0 + 1) (hev : Table.get (s.cluster ck).evictSince l.id 0 ≠ 0)
    (hevlong : Table.get (s.cluster ck).evictSince l.id 0 + 4096 ≤ Table.get s.cyc ck 0 + 1) (hstuck : s.childrenStuck l ck = true)
    (hva : s.contextSlot l ck = some va) (hslots : ∀ b ∈ s.blocks, b.slotCtx = none) :
    s.evict ck l.id = some (((s.saveCtx c (true, va)).charge ck 0 c.cost).updBlock c.block fun b => { b with cost := b.cost - c.cost }) := by
  have hws : (s.ctxs.filter fun c => c.launch == l.id && clusterKey c.loc == ck && c.waitSince != 0 && s.joinWaiting c) = [c] := by
    simp [hctxs, hlaunch, hck, hwait, hsince]
  have hmay : (Table.get (s.cluster ck).evictSince l.id 0 == 0
      || decide (Table.get s.cyc ck 0 + 1 < Table.get (s.cluster ck).evictSince l.id 0 + 4096)
      || decide (Table.get s.cyc ck 0 + 1 < c.waitSince + 4096) || !s.childrenStuck l ck) = false := by
    simp only [beq_eq_false_iff_ne.mpr hev, hstuck, Bool.not_true, Bool.false_or, Bool.or_false, Bool.or_eq_false_iff, decide_eq_false_iff_not,
      Nat.not_lt]
    exact ⟨hevlong, hlong⟩
  simp only [State.evict, hl, hws, List.foldl_cons, List.foldl_nil, hmay, Bool.false_eq_true, if_false, hva,
    State.childSlot_none hslots, Option.any_none]

/-! Contexts in their cores. -/

/-- Every context of a number is in its core: it is not saved and has no image. -/
structure State.InCore (s : State) (cid : Nat) : Prop where
  inCore : ∀ x ∈ s.ctxs, x.id = cid → x.saved = false ∧ x.image = none

theorem State.InCore.of_ctxs {s t : State} {cid : Nat} (h : s.InCore cid) (ht : t.ctxs = s.ctxs) : t.InCore cid :=
  ⟨ht ▸ h.inCore⟩

theorem State.InCore.ite {p : Prop} [Decidable p] {s t : State} {cid : Nat} (hs : s.InCore cid) (ht : t.InCore cid) :
    (if p then s else t).InCore cid := by
  split
  · exact hs
  · exact ht

/-- A change of contexts that neither saves nor renames any keeps them in their cores. -/
theorem State.InCore.updCtx {s : State} {cid : Nat} (h : s.InCore cid) {id : Nat} {g : Ctx → Ctx}
    (hg : ∀ x, (g x).id = x.id ∧ (g x).saved = x.saved ∧ (g x).image = x.image) : (s.updCtx id g).InCore cid := by
  refine ⟨fun x hx hid => ?_⟩
  obtain ⟨y, hy, rfl⟩ := State.mem_updCtx hx
  split at hid
  · obtain ⟨hgid, hgsaved, hgimage⟩ := hg y
    rw [if_pos ‹_›, hgsaved, hgimage]
    exact h.inCore y hy (hgid ▸ hid)
  · rw [if_neg ‹_›]
    exact h.inCore y hy hid

theorem State.InCore.foldl {α : Type} {cid : Nat} {g : State → α → State} (hg : ∀ u a, u.InCore cid → (g u a).InCore cid) (as : List α)
    {s : State} (h : s.InCore cid) : (as.foldl g s).InCore cid :=
  List.foldlRecOn as g (motive := fun u => u.InCore cid) h fun u hu a _ => hg u a hu

theorem State.InCore.updLanes {s : State} {cid : Nat} (h : s.InCore cid) (id : Nat) (ls : List Nat) (g : Nat → Lane → Lane) :
    (s.updCtx id fun c => c.updLanes ls g).InCore cid :=
  h.updCtx fun x => by
    rw [Ctx.updLanes_eq]
    exact ⟨rfl, rfl, rfl⟩

/-! The ends of contexts, blocks and launches. -/

section ends
variable {s : State} {cid : Nat}

theorem State.InCore.endCtx (h : s.InCore cid) (id : Nat) : (s.endCtx id).InCore cid := by
  refine State.InCore.of_ctxs (s := State.updCtx (match s.ctx? id with
    | some c => s.voidSpawns c.launch (clusterKey c.loc) (s.undone c)
    | none => s) id fun c => { c with
      ended := true, commitQ := [], lanes := c.lanes.map fun x => { x with st := .exited, halted := false, deferred := none } })
    (State.InCore.updCtx ?_ fun x => ⟨rfl, rfl, rfl⟩) rfl
  split
  · exact h.of_ctxs (State.voidSpawns_ctxs ..)
  · exact h

theorem State.InCore.killBlock (h : s.InCore cid) (bid cause : Nat) (taddr : W64) (lane : Nat) (faddr : W64) :
    (s.killBlock bid cause taddr lane faddr).InCore cid := by
  unfold State.killBlock
  split
  · exact h
  · split
    · exact h
    · extract_lets s1 ws s2 s3 s4
      have h1 : s1.InCore cid := h.of_ctxs rfl
      have h2 : s2.InCore cid := State.InCore.foldl (fun u c hu => hu.endCtx c.id) ws h1
      have h4 : s4.InCore cid := h2.of_ctxs rfl
      split
      · exact State.InCore.foldl (fun u c hu => hu.of_ctxs (u.jcDecrements_ctxs c)) ws h4
      · exact h4.of_ctxs rfl

theorem State.InCore.killGang (h : s.InCore cid) (c : Ctx) (cause : Nat) (taddr : W64) (lane : Nat) (faddr : W64) :
    (s.killGang c cause taddr lane faddr).InCore cid := by
  unfold State.killGang
  extract_lets bs s1 s2
  have h1 : s1.InCore cid := by
    simp only [s1]
    split
    · exact h.of_ctxs rfl
    · exact h
  have h2 : s2.InCore cid := State.InCore.endCtx (State.InCore.foldl (fun u b hu => hu.killBlock ..) bs h1) c.id
  exact h2.of_ctxs rfl

theorem State.InCore.killLaunch (h : s.InCore cid) (lid status : Nat) (spare : Bool) : (s.killLaunch lid status spare).InCore cid := by
  unfold State.killLaunch
  extract_lets rank spared inside doomed gone live s1 s2 s3 s4
  have h1 : s1.InCore cid := h.of_ctxs rfl
  have h2 : s2.InCore cid := State.InCore.foldl (fun u c hu => hu.endCtx c.id) gone h1
  have h4 : s4.InCore cid := h2.of_ctxs rfl
  exact State.InCore.foldl (fun u c hu => hu.of_ctxs (u.jcDecrements_ctxs c)) gone h4

theorem State.InCore.killUnc (h : s.InCore cid) (bid : Nat) (taddr : W64) (lane : Nat) (faddr : W64) :
    (s.killUnc bid taddr lane faddr).InCore cid := by
  unfold State.killUnc
  split
  · exact h
  · split
    · exact h
    · unfold State.afterUnc
      have hb := h.killBlock bid 0x0B taddr lane faddr
      split
      · exact hb
      · split
        · exact hb
        · split
          · exact hb.killLaunch ..
          · exact hb.of_ctxs rfl

theorem State.InCore.ownerHit (h : s.InCore cid) (pa : Nat) (pc : W64) (lane : Nat) : (s.ownerHit pa pc lane).InCore cid := by
  unfold State.ownerHit
  split
  case h_1 =>
    simp only
    split
    · exact h.killUnc ..
    · split
      · exact h.of_ctxs rfl
      · exact h
  case h_5 => exact h
  all_goals
    split
    · exact h.killUnc ..
    · exact h

theorem State.InCore.lateFail (h : s.InCore cid) (w : Who) (pc : W64) (lane cause : Nat) (addr : W64) :
    (s.lateFail w pc lane cause addr).InCore cid := by
  have hnote : (s.noteFault w.launch cause pc lane w.loc addr).InCore cid := h.of_ctxs rfl
  simp only [State.lateFail]
  split
  · split
    · split
      · exact hnote
      · exact h.killGang ..
    · exact hnote
  · split
    · split
      · exact hnote
      · exact h.killBlock ..
    · exact hnote

/-! Monitored reads. -/

theorem State.InCore.readElem (h : s.InCore cid) (pa n : Nat) (pc : W64) (lane : Nat) : (s.readElem pa n pc lane).1.InCore cid := by
  unfold State.readElem
  split
  · exact State.InCore.ownerHit (h.of_ctxs (s.countUnc_ctxs pa)) pa pc lane
  · exact h

theorem State.InCore.monRead (h : s.InCore cid) (c : Ctx) (is64 : Bool) (space addr : Nat) (pc : W64) (lane : Nat) :
    (s.monRead c is64 space addr pc lane).1.InCore cid := by
  have hacc := fun n => h.of_ctxs (s.tryAccess_ctxs (whoOf c) space n (BitVec.ofNat 64 addr) .read false)
  unfold State.monRead
  simp only
  split <;> rename_i heq <;> have h1 := heq ▸ hacc _
  · exact h1
  · exact h1.of_ctxs (State.postNotice_ctxs ..)
  · rename_i pa
    have h2 := fun n => h1.readElem pa n pc lane
    split <;> rename_i heq2
    · exact congrArg Prod.fst heq2 ▸ h2 _
    · exact congrArg Prod.fst heq2 ▸ h2 _

theorem State.InCore.monStep (h : s.InCore cid) (id : Nat) (lanes : List Nat) (w : Wait) : (s.monStep id lanes w).InCore cid := by
  unfold State.monStep
  split
  · rename_i c is64 sp a d e dl held pc _ 
    have hread := h.monRead c is64 sp a pc (lanes.headD 0)
    split <;> rename_i heq <;> rw [heq] at hread
    · refine State.InCore.ite (hread.updLanes ..) (hread.updCtx fun x => ?_)
      rw [Ctx.updLanes_eq]
      cases d <;> exact ⟨rfl, rfl, rfl⟩
    · exact hread.updLanes ..
    · unfold State.monFail
      split
      · exact hread.updLanes ..
      · exact hread.lateFail ..
  · exact h

theorem State.InCore.rearm (h : s.InCore cid) (id : Nat) : (s.rearm id).InCore cid := by
  unfold State.rearm
  split
  · exact State.InCore.foldl (fun u m hu => hu.monStep ..) _ h
  · exact h

/-! The return of an evicted warp. -/

/-- What is loaded is in its core, and what was in its core stays there. -/
theorem State.mem_loadCtx {x : Ctx} {c : Ctx} (hx : x ∈ (s.loadCtx c).ctxs) :
    (x.id = c.id ∧ x.saved = false ∧ x.image = none) ∨ (x.id ≠ c.id ∧ x ∈ s.ctxs) := by
  obtain ⟨y, hy, rfl⟩ := State.mem_updCtx hx
  split
  · exact .inl ⟨‹_›, rfl, rfl⟩
  · exact .inr ⟨‹_›, hy⟩

theorem State.loadCtx_inCore (s : State) (c : Ctx) : (s.loadCtx c).InCore c.id := by
  refine ⟨fun x hx hid => ?_⟩
  rcases State.mem_loadCtx hx with ⟨-, hin⟩ | ⟨hne, -⟩
  · exact hin
  · exact absurd hid hne

theorem State.InCore.loadCtx (h : s.InCore cid) (c : Ctx) : (s.loadCtx c).InCore cid := by
  refine ⟨fun x hx hid => ?_⟩
  rcases State.mem_loadCtx hx with ⟨-, hin⟩ | ⟨-, hmem⟩
  · exact hin
  · exact h.inCore x hmem hid

end ends

/-- A warp that can be restored is, and is in its core then. -/
theorem State.restoreWarp_inCore {s : State} {c : Ctx} {core : Nat} (hc : s.ctx? c.id = some c)
    (hcan : s.canRestore c (locOf core) = true) : ∃ t, s.restoreWarp c.id core = some t ∧ t.InCore c.id := by
  obtain ⟨la, hla⟩ : ∃ la, s.launch? c.launch = some la := by
    simp only [State.canRestore, Bool.and_eq_true, Option.any_eq_true] at hcan
    obtain ⟨-, la, hla, -⟩ := hcan
    exact ⟨la, hla⟩
  simp only [State.restoreWarp, hc, hla, hcan, Bool.not_true, Bool.false_eq_true, if_false]
  refine ⟨_, rfl, State.InCore.foldl (fun u x hu => hu.rearm x.id) _ ?_⟩
  rw [List.foldl_cons]
  refine State.InCore.foldl (fun u x hu => State.InCore.loadCtx ?_ _) _ (State.loadCtx_inCore _ { c with loc := locOf core })
  exact hu.updCtx fun _ => ⟨rfl, rfl, rfl⟩

end Sys2Proof.Machine
end

section
/-! PROOFS. The layout of a context's image (17_context_debug_trace.md R366, Table 17.6): where each field stands among its bytes, and
what memory reads there once the image is written. -/

namespace Sys2Proof.Machine

/-! Fields of a list of bytes: a field stands at an offset where the bytes from there on begin with it. -/

/-- A field of a field. -/
theorem drop_prefix_trans {α : Type} {l w u : List α} {a b : Nat} (hw : w <+: l.drop a) (hu : u <+: w.drop b) :
    u <+: l.drop (a + b) := by
  rw [← List.drop_drop]
  exact hu.trans (hw.drop b)

/-- Each of the lists that are put together stands where those before it end. -/
theorem getElem_prefix_flatten_drop {α : Type} (ls : List (List α)) {i : Nat} (hi : i < ls.length) :
    ls[i] <+: ls.flatten.drop ((ls.map List.length).take i).sum := by
  rw [List.drop_sum_flatten, List.drop_eq_getElem_cons hi, List.flatten_cons]
  exact List.prefix_append ..

theorem map_length_range {α : Type} {f : Nat → List α} {k m : Nat} (hf : ∀ j < k, (f j).length = m) :
    ((List.range k).map f).map List.length = List.replicate k m := by
  rw [List.map_map, List.eq_replicate_iff]
  simpa using hf

theorem length_flatMap_range {α : Type} {f : Nat → List α} {k m : Nat} (hf : ∀ j < k, (f j).length = m) :
    ((List.range k).flatMap f).length = k * m := by
  rw [List.flatMap_def, List.length_flatten, map_length_range hf, List.sum_replicate, smul_eq_mul]

/-- A row of a table of rows of one size. -/
theorem row_prefix_flatMap_range {α : Type} {f : Nat → List α} {k m i : Nat} (hf : ∀ j < k, (f j).length = m) (hi : i < k) :
    f i <+: ((List.range k).flatMap f).drop (m * i) := by
  have h := getElem_prefix_flatten_drop ((List.range k).map f) (i := i) (by simpa using hi)
  rw [map_length_range hf, List.take_replicate, List.sum_replicate, smul_eq_mul, List.getElem_map, List.getElem_range,
    ← List.flatMap_def, Nat.min_eq_left (Nat.le_of_lt hi), Nat.mul_comm] at h
  exact h

theorem leBytes_take {m n : Nat} (h : m ≤ n) (x : Nat) : leBytes m x <+: leBytes n x := by
  induction m generalizing n x with
  | zero => exact List.nil_prefix
  | succ m ih =>
    obtain ⟨k, rfl⟩ := Nat.exists_eq_add_of_lt h
    exact List.cons_prefix_cons.mpr ⟨rfl, ih (by omega) _⟩

/-- Bytes of a number. -/
theorem leBytes_prefix_drop {k m n : Nat} (h : k + m ≤ n) (x : Nat) : leBytes m (x / 256 ^ k) <+: (leBytes n x).drop k := by
  induction k generalizing n x with
  | zero => simpa using leBytes_take (by omega) x
  | succ k ih =>
    obtain ⟨j, rfl⟩ : ∃ j, n = j + 1 := ⟨n - 1, by omega⟩
    rw [leBytes, List.drop_succ_cons, Nat.pow_succ', ← Nat.div_div_eq_div_mul]
    exact ih (by omega) _

/-- A field read back where its bytes were written. -/
theorem State.readN_wr_of_prefix {s : State} (hs : Memory.wf s.mem = true) (pa : Nat) {bs w : List Byte} {off : Nat}
    (h : w <+: bs.drop off) : (s.wr pa bs).readN (pa + off) w.length = leNat w := by
  induction w generalizing off with
  | nil => rfl
  | cons b w ih =>
    have hb : bs[off]? = some b := by
      obtain ⟨r, hr⟩ := h
      simpa using congrArg List.head? hr.symm
    have hw : w <+: bs.drop (off + 1) := by
      rw [← List.drop_drop]
      exact h.drop 1
    rw [List.length_cons, State.readN, leNat, Nat.add_assoc, ih hw, State.readByte_wr hs, if_pos (Nat.le_add_right ..),
      Nat.add_sub_cancel_left, hb, Option.getD_some]

/-- A number read back where its bytes were written. -/
theorem State.readN_wr_leBytes {s : State} (hs : Memory.wf s.mem = true) (pa : Nat) {bs : List Byte} {off n x : Nat}
    (h : leBytes n x <+: bs.drop off) : (s.wr pa bs).readN (pa + off) n = x % 256 ^ n := by
  have hread := State.readN_wr_of_prefix hs pa h
  rwa [leBytes_length, leNat_leBytes] at hread

/-! The head of an image. -/

/-- The number at the start of an image. -/
def Ctx.imageInfo (c : Ctx) (nlog : Nat) : Nat :=
  c.kind.imageCode + 2 ^ 8 * c.width + 2 ^ 16 * c.vregs + 2 ^ 24 + 2 ^ 32 * nlog + 2 ^ 48 * c.last.getD 0

/-- The sections of an image's head, in their order. -/
def State.headSections (s : State) (c : Ctx) (nlog : Nat) : List (List Byte) :=
  [leBytes 8 (c.imageInfo nlog),
    leBytes 8 ((c.lane 0).gen + 2 ^ 8 * c.npay + 2 ^ 16 * (if c.kind == .lane then c.warp else 0)),
    zeros 16,
    (List.range 64).flatMap fun l => leBytes 8 (if (c.lane l).st == .exited then 0 else (c.lane l).pc.toNat),
    (List.range 64).map fun l => if l < c.width then BitVec.ofNat 8 (c.lstate l) else 0,
    (List.range 64).flatMap fun n => leBytes 8 (c.rdS n).toNat,
    (List.range 7).flatMap fun n => leBytes 8 ((Table.get c.p n (0 : W64)).toNat),
    (List.range 8).flatMap fun n => leBytes 8 (c.rdM n).toNat,
    (List.range 32).flatMap fun k => leBytes 4 ((c.rdTok k).code + 2 ^ 16 * ((c.rdTok k).poison?).getD 0),
    (List.range 16).flatMap fun n => leBytes 8 (s.sysReg c n).toNat,
    zeros 40,
    (List.range 64).flatMap fun l => if l < c.width then c.wrec l else zeros 32,
    zeros 512]

theorem State.imageHead_eq (s : State) (c : Ctx) (nlog : Nat) : s.imageHead c nlog = (s.headSections c nlog).flatten := by
  simp only [State.imageHead, State.headSections, Ctx.imageInfo, List.flatten_cons, List.flatten_nil, List.append_nil, List.append_assoc]

@[simp] theorem zeros_length (n : Nat) : (zeros n).length = n := List.length_replicate

theorem Ctx.wrec_length (c : Ctx) (l : Nat) : (c.wrec l).length = 32 := by
  unfold Ctx.wrec
  split <;> simp

/-- The sizes of the sections, of which each gives the place of the next (Table 17.6). -/
theorem State.headSections_lengths (s : State) (c : Ctx) (nlog : Nat) :
    (s.headSections c nlog).map List.length = [8, 8, 16, 64 * 8, 64, 64 * 8, 7 * 8, 8 * 8, 32 * 4, 16 * 8, 40, 64 * 32, 512] := by
  have hrec : ∀ l < 64, (if l < c.width then c.wrec l else zeros 32).length = 32 := fun l _ => by
    split
    · exact c.wrec_length l
    · exact zeros_length 32
  simp only [State.headSections, List.map_cons, List.map_nil, leBytes_length, zeros_length, List.length_map, List.length_range,
    length_flatMap_range fun l _ => leBytes_length .., length_flatMap_range hrec]

theorem State.imageHead_length (s : State) (c : Ctx) (nlog : Nat) : (s.imageHead c nlog).length = 4096 := by
  rw [State.imageHead_eq, List.length_flatten, State.headSections_lengths]
  rfl

/-- A section of an image's head stands where the sizes of those before it say. -/
theorem State.headSection_prefix (s : State) (c : Ctx) (nlog : Nat) {i : Nat} {w : List Byte} (hi : (s.headSections c nlog)[i]? = some w) :
    w <+: (s.imageHead c nlog).drop
      (([8, 8, 16, 64 * 8, 64, 64 * 8, 7 * 8, 8 * 8, 32 * 4, 16 * 8, 40, 64 * 32, 512] : List Nat).take i).sum := by
  obtain ⟨hlt, rfl⟩ := List.getElem?_eq_some_iff.mp hi
  rw [State.imageHead_eq, ← s.headSections_lengths c nlog]
  exact getElem_prefix_flatten_drop _ hlt

/-! The whole image. -/

theorem Ctx.imageV_length (c : Ctx) : c.imageV.length = c.vregs * (c.width * 4) :=
  length_flatMap_range fun _ _ => length_flatMap_range fun _ _ => leBytes_length ..

/-- A lane of a v register in an image. -/
theorem Ctx.imageV_prefix (c : Ctx) {n l : Nat} (hn : n < c.vregs) (hl : l < c.width) :
    leBytes 4 (c.rdV n l).toNat <+: c.imageV.drop (4 * (n * c.width + l)) := by
  have hrow := row_prefix_flatMap_range (f := fun n => (List.range c.width).flatMap fun l => leBytes 4 (c.rdV n l).toNat)
    (fun _ _ => length_flatMap_range fun _ _ => leBytes_length ..) hn
  have hlane := row_prefix_flatMap_range (f := fun l => leBytes 4 (c.rdV n l).toNat) (fun _ _ => leBytes_length ..) hl
  have h := drop_prefix_trans hrow hlane
  rwa [show c.width * 4 * n + 4 * l = 4 * (n * c.width + l) by ring] at h

theorem logImage_length (op sub space cls : Nat) (accs : List Acc) : (logImage op sub space cls accs).length = 2048 := by
  simp only [logImage, List.length_append, leBytes_length, zeros_length, length_flatMap_range fun l _ => leBytes_length ..]
  rw [length_flatMap_range (m := 16)]
  intro l _
  split <;> simp

theorem LogEntry.image_length (e : LogEntry) : e.image.length = 2048 := by
  unfold LogEntry.image
  simp only
  split
  case h_9 => exact zeros_length 2048
  all_goals exact logImage_length ..

/-- An image takes the place that is kept for it. -/
theorem State.imageBytes_length_le (s : State) (c : Ctx) : (s.imageBytes c true).length ≤ s.savedSize c := by
  have hlog : (((s.logOf c).map Prod.snd).flatMap LogEntry.image).length = 2048 * (s.logOf c).length := by
    rw [List.length_flatMap, List.map_congr_left fun e _ => LogEntry.image_length e, List.map_const', List.sum_replicate, List.length_map,
      smul_eq_mul, Nat.mul_comm]
  have hv : c.vregs * (c.width * 4) = c.width * c.vregs * 4 := by ring
  simp only [State.imageBytes, if_true, List.length_append, State.imageHead_length, Ctx.imageV_length, zeros_length, hlog, State.savedSize,
    pageUp, imageSize, hv]
  omega

/-- What stands in an image's head stands in the image. -/
theorem State.imageHead_prefix (s : State) (c : Ctx) : s.imageHead c (s.logOf c).length <+: (s.imageBytes c true).drop 0 := by
  simp only [State.imageBytes, if_true, List.length_map, List.append_assoc, List.drop_zero]
  exact List.prefix_append ..

/-- The v registers follow the head. -/
theorem State.imageV_prefix (s : State) (c : Ctx) : c.imageV <+: (s.imageBytes c true).drop 4096 := by
  simp only [State.imageBytes, if_true, List.append_assoc]
  rw [List.drop_left' (State.imageHead_length ..)]
  exact List.prefix_append ..

/-! A context that is saved. -/

theorem State.dropHold_frame (s : State) (k id : Nat) : ∃ cl, s.dropHold k id = { s with clusters := cl } := by
  have hexpire : ∃ cl, s.expireHold k = { s with clusters := cl } := by
    simp only [State.expireHold]
    split
    · exact ⟨_, rfl⟩
    · exact ⟨_, rfl⟩
  obtain ⟨cl, hcl⟩ := hexpire
  simp only [State.dropHold, hcl]
  split
  · split
    · exact ⟨_, rfl⟩
    · exact ⟨_, rfl⟩
  · exact ⟨_, rfl⟩

/-- A context with its image at a physical address. -/
def Ctx.savedAt (c : Ctx) (pa : Nat) : Ctx := { c with saved := true, image := some (false, pa), waitSince := 0 }

/-- A state with a context marked as saved, its image not yet written. -/
def State.markSaved (s : State) (c : Ctx) (pa : Nat) : State :=
  (s.dropHold (clusterKey c.loc) c.id).updCtx c.id fun x => x.savedAt pa

section marks
variable (s : State) (c : Ctx) (pa : Nat)

@[simp] theorem State.markSaved_mem : (s.markSaved c pa).mem = s.mem := by
  obtain ⟨cl, hcl⟩ := s.dropHold_frame (clusterKey c.loc) c.id
  rw [State.markSaved, hcl]
  rfl

@[simp] theorem State.markSaved_cores : (s.markSaved c pa).cores = s.cores := by
  obtain ⟨cl, hcl⟩ := s.dropHold_frame (clusterKey c.loc) c.id
  rw [State.markSaved, hcl]
  rfl

@[simp] theorem State.markSaved_ctxs : (s.markSaved c pa).ctxs = (s.updCtx c.id fun x => x.savedAt pa).ctxs := by
  obtain ⟨cl, hcl⟩ := s.dropHold_frame (clusterKey c.loc) c.id
  rw [State.markSaved, hcl]
  rfl

end marks

theorem State.ctx?_congr {s t : State} (h : t.ctxs = s.ctxs) (id : Nat) : t.ctx? id = s.ctx? id := by
  rw [State.ctx?, h]
  rfl

theorem State.savedSize_congr {s t : State} (h : t.cores = s.cores) {c d : Ctx} (hid : d.id = c.id) (hw : d.width = c.width)
    (hv : d.vregs = c.vregs) : t.savedSize d = s.savedSize c := by
  simp only [State.savedSize, State.logOf, h, hid, hw, hv]

/-- Saving a context marks it and writes its image. -/
theorem State.saveCtx_eq {s : State} {c d : Ctx} (hd : s.ctx? c.id = some d) (pa : Nat) :
    s.saveCtx c (false, pa) = (s.markSaved c pa).wr pa ((s.markSaved c pa).imageBytes (d.savedAt pa) true) := by
  have hfind : (s.markSaved c pa).ctx? c.id = some (d.savedAt pa) := by
    rw [State.ctx?_congr (s.markSaved_ctxs c pa)]
    exact State.ctx?_updCtx hd fun _ => rfl
  have hplace : ((false, pa) == noImage) = false := rfl
  show (s.markSaved c pa).refreshImage c.id = _
  simp only [State.refreshImage, hfind]
  simp only [Ctx.savedAt, hplace, Bool.false_eq_true, if_false, State.putImage, Bool.not_false, if_true]

/-- A context that is not there has no image. -/
theorem State.saveCtx_absent {s : State} {c : Ctx} (hd : s.ctx? c.id = none) (pa : Nat) : s.saveCtx c (false, pa) = s.markSaved c pa := by
  have hfind : (s.markSaved c pa).ctx? c.id = none := by
    rw [State.ctx?_congr (s.markSaved_ctxs c pa), State.ctx?, List.find?_eq_none]
    intro x hx
    obtain ⟨y, hy, rfl⟩ := State.mem_updCtx hx
    have hne : ¬ (y.id == c.id) = true := List.find?_eq_none.mp hd y hy
    rwa [if_neg (by simpa using hne)]
  show (s.markSaved c pa).refreshImage c.id = _
  simp only [State.refreshImage, hfind]

/-- Saving a context writes to memory and changes contexts of its number alone. -/
theorem State.saveCtx_cases (s : State) (c : Ctx) (pa : Nat) :
    s.saveCtx c (false, pa) = s.markSaved c pa
    ∨ ∃ d, s.ctx? c.id = some d ∧ s.saveCtx c (false, pa) = (s.markSaved c pa).wr pa ((s.markSaved c pa).imageBytes (d.savedAt pa) true) := by
  cases hd : s.ctx? c.id with
  | none => exact .inl (State.saveCtx_absent hd pa)
  | some d => exact .inr ⟨d, rfl, State.saveCtx_eq hd pa⟩

@[simp] theorem State.saveCtx_ctxs (s : State) (c : Ctx) (pa : Nat) :
    (s.saveCtx c (false, pa)).ctxs = (s.updCtx c.id fun x => x.savedAt pa).ctxs := by
  rcases s.saveCtx_cases c pa with h | ⟨d, -, h⟩
  · rw [h, State.markSaved_ctxs]
  · rw [h, State.wr_ctxs, State.markSaved_ctxs]

@[simp] theorem State.saveCtx_cores (s : State) (c : Ctx) (pa : Nat) : (s.saveCtx c (false, pa)).cores = s.cores := by
  rcases s.saveCtx_cases c pa with h | ⟨d, -, h⟩
  · rw [h, State.markSaved_cores]
  · rw [h, State.wr_eq]
    exact s.markSaved_cores c pa

theorem State.saveCtx_wf {s : State} (hs : Memory.wf s.mem = true) (c : Ctx) (pa : Nat) :
    Memory.wf (s.saveCtx c (false, pa)).mem = true := by
  rcases s.saveCtx_cases c pa with h | ⟨d, -, h⟩
  · rwa [h, State.markSaved_mem]
  · rw [h]
    exact State.wf_wr (by rwa [State.markSaved_mem]) ..

/-- A write leaves the bytes before it and after it. -/
theorem State.readByte_wr_outside {s : State} (hs : Memory.wf s.mem = true) {pa q : Nat} {bs : List Byte}
    (hq : q < pa ∨ pa + bs.length ≤ q) : (s.wr pa bs).readByte q = s.readByte q := by
  rw [State.readByte_wr hs]
  split
  · rw [List.getElem?_eq_none (by omega), Option.getD_none]
  · rfl

/-- Saving a context writes to the place of its image alone. -/
theorem State.saveCtx_readByte {s : State} (hs : Memory.wf s.mem = true) {c : Ctx} {pa n q : Nat}
    (hn : ∀ d, s.ctx? c.id = some d → s.savedSize d = n) (hq : q < pa ∨ pa + n ≤ q) :
    (s.saveCtx c (false, pa)).readByte q = s.readByte q := by
  rcases s.saveCtx_cases c pa with h | ⟨d, hd, h⟩
  · simp only [h, State.readByte, State.markSaved_mem]
  · have hsize : (s.markSaved c pa).savedSize (d.savedAt pa) = n :=
      (State.savedSize_congr (s.markSaved_cores c pa) rfl rfl rfl).trans (hn d hd)
    have hlen := (s.markSaved c pa).imageBytes_length_le (d.savedAt pa)
    rw [h, State.readByte_wr_outside (by rwa [State.markSaved_mem]) (by omega)]
    simp only [State.readByte, State.markSaved_mem]

section image
variable {s : State} {c d : Ctx}

/-- A number of an image's head, read where the image was written. -/
theorem State.readN_head (hs : Memory.wf s.mem = true) (hd : s.ctx? c.id = some d) (pa i : Nat) {w : List Byte} {off n x : Nat}
    (hi : ((s.markSaved c pa).headSections (d.savedAt pa) ((s.markSaved c pa).logOf (d.savedAt pa)).length)[i]? = some w)
    (hw : leBytes n x <+: w.drop off) : (s.saveCtx c (false, pa)).readN
      (pa + ((([8, 8, 16, 64 * 8, 64, 64 * 8, 7 * 8, 8 * 8, 32 * 4, 16 * 8, 40, 64 * 32, 512] : List Nat).take i).sum + off)) n = x % 256 ^ n := by
  rw [State.saveCtx_eq hd]
  refine State.readN_wr_leBytes (by rwa [State.markSaved_mem]) pa ?_
  have hsec := drop_prefix_trans ((s.markSaved c pa).imageHead_prefix (d.savedAt pa)) (State.headSection_prefix _ _ _ hi)
  rw [Nat.zero_add] at hsec
  exact drop_prefix_trans hsec hw

theorem State.saveCtx_info (hs : Memory.wf s.mem = true) (hd : s.ctx? c.id = some d) (pa : Nat) :
    ∃ k, ∀ j < 8, (s.saveCtx c (false, pa)).readN (pa + j) 1 = d.imageInfo k / 256 ^ j % 256 := by
  refine ⟨((s.markSaved c pa).logOf (d.savedAt pa)).length, fun j hj => ?_⟩
  have h := State.readN_head hs hd pa 0 rfl (leBytes_prefix_drop (k := j) (m := 1) (n := 8) (by omega) _)
  rw [List.take_zero, List.sum_nil, Nat.zero_add, Nat.pow_one] at h
  exact h

/-- What a saved context is, and how wide, in the first bytes of its image. -/
theorem State.saveCtx_shape (hs : Memory.wf s.mem = true) (hd : s.ctx? c.id = some d) (pa : Nat) (hwidth : d.width ≤ 64)
    (hvregs : d.vregs ≤ 160) :
    let t := s.saveCtx c (false, pa)
    t.readN pa 1 = d.kind.imageCode ∧ t.readN (pa + 1) 1 = d.width ∧ t.readN (pa + 2) 1 = d.vregs ∧ t.readN (pa + 3) 1 = 1 := by
  obtain ⟨k, hinfo⟩ := State.saveCtx_info hs hd pa
  have hkind : d.kind.imageCode < 256 := by cases d.kind <;> decide
  intro t
  have h0 := hinfo 0 (by omega)
  have h1 := hinfo 1 (by omega)
  have h2 := hinfo 2 (by omega)
  have h3 := hinfo 3 (by omega)
  simp only [Ctx.imageInfo, Nat.reducePow, Nat.add_zero, Nat.div_one] at h0 h1 h2 h3
  refine ⟨h0.trans ?_, h1.trans ?_, h2.trans ?_, h3.trans ?_⟩ <;> omega

theorem State.saveCtx_pcs (hs : Memory.wf s.mem = true) (hd : s.ctx? c.id = some d) (pa : Nat) {l : Nat} (hl : l < 64) :
    (s.saveCtx c (false, pa)).readN (pa + 0x20 + 8 * l) 8 = if (d.lane l).st = .exited then 0 else (d.lane l).pc.toNat := by
  have h := State.readN_head hs hd pa 3 rfl (row_prefix_flatMap_range (fun _ _ => leBytes_length ..) hl)
  rw [Nat.add_assoc]
  refine h.trans (Nat.mod_eq_of_lt ?_) |>.trans (by simp only [beq_iff_eq]; rfl)
  split
  · decide
  · exact BitVec.isLt _

theorem State.saveCtx_sregs (hs : Memory.wf s.mem = true) (hd : s.ctx? c.id = some d) (pa : Nat) {n : Nat} (hn : n < 64) :
    (s.saveCtx c (false, pa)).readN (pa + 0x260 + 8 * n) 8 = (d.rdS n).toNat := by
  have h := State.readN_head hs hd pa 5 rfl (row_prefix_flatMap_range (fun _ _ => leBytes_length ..) hn)
  rw [Nat.add_assoc]
  exact h.trans (Nat.mod_eq_of_lt (BitVec.isLt _))

theorem State.saveCtx_mregs (hs : Memory.wf s.mem = true) (hd : s.ctx? c.id = some d) (pa : Nat) {n : Nat} (hn : n < 8) :
    (s.saveCtx c (false, pa)).readN (pa + 0x498 + 8 * n) 8 = (d.rdM n).toNat := by
  have h := State.readN_head hs hd pa 7 rfl (row_prefix_flatMap_range (fun _ _ => leBytes_length ..) hn)
  rw [Nat.add_assoc]
  exact h.trans (Nat.mod_eq_of_lt (BitVec.isLt _))

theorem TokSt.code_lt (t : TokSt) : t.code < 4 := by cases t <;> simp [TokSt.code]

theorem State.saveCtx_tokens (hs : Memory.wf s.mem = true) (hd : s.ctx? c.id = some d) (pa : Nat) {k : Nat} (hk : k < 32) :
    (s.saveCtx c (false, pa)).readN (pa + 0x4D8 + 4 * k) 2 = (d.rdTok k).code := by
  have hcode := (d.rdTok k).code_lt
  have h := State.readN_head hs hd pa 8 rfl
    (drop_prefix_trans (row_prefix_flatMap_range (fun _ _ => leBytes_length ..) hk) (leBytes_prefix_drop (k := 0) (m := 2) (by decide) _))
  rw [Nat.add_assoc]
  refine h.trans (Eq.trans ?_ (Nat.mod_eq_of_lt (by omega : (d.rdTok k).code < 256 ^ 2)))
  rw [Nat.pow_zero, Nat.div_one]
  exact Nat.add_mul_mod_self_left ..

theorem State.saveCtx_vregs (hs : Memory.wf s.mem = true) (hd : s.ctx? c.id = some d) (pa : Nat) {n l : Nat} (hn : n < d.vregs)
    (hl : l < d.width) : (s.saveCtx c (false, pa)).readN (pa + 0x1000 + 4 * (n * d.width + l)) 4 = (d.rdV n l).toNat := by
  have hat := drop_prefix_trans ((s.markSaved c pa).imageV_prefix (d.savedAt pa)) ((d.savedAt pa).imageV_prefix hn hl)
  rw [State.saveCtx_eq hd, Nat.add_assoc]
  exact (State.readN_wr_leBytes (by rwa [State.markSaved_mem]) pa hat).trans (Nat.mod_eq_of_lt (BitVec.isLt _))

end image

end Sys2Proof.Machine
end

section
/-! PROOFS. What the saving of a gang does to each context (17_context_debug_trace.md R365, R368, R382): it is mapped to one that keeps its
registers, tokens and lanes; the gang's own are saved, and no other is changed. -/

namespace Sys2Proof.Machine

/-! Contexts that are mapped one by one. -/

/-- Each context of the first state goes over into one of the second, as a relation says. -/
def State.CtxsBy (s t : State) (R : Ctx → Ctx → Prop) : Prop := ∃ h : Ctx → Ctx, t.ctxs = s.ctxs.map h ∧ ∀ x ∈ s.ctxs, R x (h x)

theorem State.CtxsBy.of_eq {s t : State} {R : Ctx → Ctx → Prop} (h : t.ctxs = s.ctxs) (hR : ∀ x, R x x) : s.CtxsBy t R :=
  ⟨id, by rw [h, List.map_id], fun x _ => hR x⟩

theorem State.CtxsBy.of_updCtx {s t : State} {R : Ctx → Ctx → Prop} {id : Nat} {g : Ctx → Ctx} (h : t.ctxs = (s.updCtx id g).ctxs)
    (hR : ∀ x ∈ s.ctxs, R x (if x.id = id then g x else x)) : s.CtxsBy t R :=
  ⟨_, by rw [h, State.updCtx_ctxs, updWhere_id_eq], hR⟩

theorem State.CtxsBy.trans {s t u : State} {R S T : Ctx → Ctx → Prop} (hR : s.CtxsBy t R) (hS : t.CtxsBy u S)
    (hT : ∀ x ∈ s.ctxs, ∀ y ∈ t.ctxs, ∀ z, R x y → S y z → T x z) : s.CtxsBy u T := by
  obtain ⟨f, hf, hRf⟩ := hR
  obtain ⟨g, hg, hSg⟩ := hS
  have hmem : ∀ x ∈ s.ctxs, f x ∈ t.ctxs := fun x hx => hf ▸ List.mem_map_of_mem hx
  exact ⟨g ∘ f, by rw [hg, hf, List.map_map], fun x hx => hT x hx _ (hmem x hx) _ (hRf x hx) (hSg _ (hmem x hx))⟩

section maps
variable {s t : State} {R : Ctx → Ctx → Prop}

theorem State.CtxsBy.mono {S : Ctx → Ctx → Prop} (h : s.CtxsBy t R) (hRS : ∀ x ∈ s.ctxs, ∀ y, R x y → S x y) : s.CtxsBy t S := by
  obtain ⟨f, hf, hRf⟩ := h
  exact ⟨f, hf, fun x hx => hRS x hx _ (hRf x hx)⟩

theorem State.CtxsBy.exists_of_mem (h : s.CtxsBy t R) {x : Ctx} (hx : x ∈ s.ctxs) : ∃ y ∈ t.ctxs, R x y := by
  obtain ⟨f, hf, hRf⟩ := h
  exact ⟨f x, hf ▸ List.mem_map_of_mem hx, hRf x hx⟩

theorem State.CtxsBy.exists_of_mem' (h : s.CtxsBy t R) {y : Ctx} (hy : y ∈ t.ctxs) : ∃ x ∈ s.ctxs, R x y := by
  obtain ⟨f, hf, hRf⟩ := h
  obtain ⟨x, hx, rfl⟩ := List.mem_map.mp (hf ▸ hy)
  exact ⟨x, hx, hRf x hx⟩

theorem State.CtxsBy.ids (h : s.CtxsBy t R) (hid : ∀ x y, R x y → y.id = x.id) : (t.ctxs.map fun x => x.id) = s.ctxs.map fun x => x.id := by
  obtain ⟨f, hf, hRf⟩ := h
  rw [hf, List.map_map]
  exact List.map_congr_left fun x hx => hid x _ (hRf x hx)

end maps

/-- A context is found by its number where no other has it. -/
theorem State.ctx?_of_mem {s : State} (hnd : (s.ctxs.map fun x => x.id).Nodup) {c : Ctx} (hc : c ∈ s.ctxs) : s.ctx? c.id = some c := by
  cases hfind : s.ctx? c.id with
  | none => simpa using List.find?_eq_none.mp hfind c hc
  | some d =>
    have hid : d.id = c.id := by simpa using List.find?_some hfind
    rw [List.inj_on_of_nodup_map hnd (List.mem_of_find?_eq_some hfind) hc hid]

/-! Saved contexts. -/

/-- What saving those of a list of numbers makes of a context. -/
def Ctx.SavedIn (ids : List Nat) (x y : Ctx) : Prop := (x.id ∈ ids ∧ ∃ pa, y = x.savedAt pa) ∨ (x.id ∉ ids ∧ y = x)

theorem Ctx.SavedIn.trans {is js : List Nat} {x y z : Ctx} (h : x.SavedIn is y) (h' : y.SavedIn js z) : x.SavedIn (is ++ js) z := by
  rcases h with ⟨hi, pa, rfl⟩ | ⟨hi, rfl⟩
  · refine .inl ⟨List.mem_append_left _ hi, ?_⟩
    rcases h' with ⟨-, pb, rfl⟩ | ⟨-, rfl⟩
    · exact ⟨pb, rfl⟩
    · exact ⟨pa, rfl⟩
  · rcases h' with ⟨hj, hz⟩ | ⟨hj, rfl⟩
    · exact .inl ⟨List.mem_append_right _ hj, hz⟩
    · exact .inr ⟨by simp [hi, hj], rfl⟩

theorem State.saveCtx_ctxsBy (s : State) (c : Ctx) (pa : Nat) : s.CtxsBy (s.saveCtx c (false, pa)) (Ctx.SavedIn [c.id]) := by
  refine .of_updCtx (s.saveCtx_ctxs c pa) fun x _ => ?_
  split
  · exact .inl ⟨List.mem_singleton.mpr ‹_›, pa, rfl⟩
  · exact .inr ⟨by simpa using ‹_›, rfl⟩

theorem State.saveCtxs_ctxsBy (s : State) (cs : List Ctx) (pa : Nat) : s.CtxsBy (s.saveCtxs cs pa) (Ctx.SavedIn (cs.map fun c => c.id)) := by
  induction cs generalizing s pa with
  | nil => exact .of_eq rfl fun x => .inr ⟨List.not_mem_nil, rfl⟩
  | cons c r ih => exact (s.saveCtx_ctxsBy c pa).trans (ih ..) fun x _ y _ z hxy hyz => hxy.trans hyz

/-! Saved blocks. -/

@[simp] theorem State.moveArea_ctxs (s : State) (a b n : Nat) : (s.moveArea a b n).ctxs = s.ctxs := s.wr_ctxs ..

@[simp] theorem State.saveMatrix_ctxs (s : State) (b : Block) (at' : Nat) : (s.saveMatrix b at').ctxs = s.ctxs := by
  simp only [State.saveMatrix, State.wr_ctxs, State.moveArea_ctxs]

theorem State.savedCtxs_congr {s t : State} (h : t.ctxs = s.ctxs) (b : Block) : t.savedCtxs b = s.savedCtxs b := by
  simp only [State.savedCtxs, h]

/-- The contexts that a saved block's image holds. -/
theorem State.mem_savedCtxs {s : State} {b : Block} {c : Ctx} : c ∈ s.savedCtxs b ↔
    c ∈ s.ctxs ∧ c.block = b.id ∧ c.kind ≠ .seq ∧ c.ended = false ∧ (c.saved = false ∨ c.preempted = true) := by
  simp only [State.savedCtxs, List.mem_append, List.mem_filter, ← and_or_left, Bool.and_eq_true, Bool.or_eq_true, beq_iff_eq, bne_iff_ne,
    Bool.not_eq_true', and_assoc, ne_eq]
  refine ⟨fun ⟨hc, hb, hk, he, hs, _⟩ => ⟨hc, hb, hk, he, hs⟩, fun ⟨hc, hb, hk, he, hs⟩ => ⟨hc, hb, hk, he, hs, ?_⟩⟩
  exact (Classical.em _).symm

/-- What the saving of blocks makes of a context: a slot or lane context of theirs is saved, unless it was or has ended; no other changes. -/
structure Ctx.SavedWith (bs : List Block) (x y : Ctx) : Prop where
  cases : y = x ∨ ∃ pa, y = x.savedAt pa
  own : y ≠ x → x.kind ≠ .seq ∧ ∃ b ∈ bs, b.id = x.block
  saves : x.kind ≠ .seq → (∃ b ∈ bs, b.id = x.block) → x.saved = false → x.ended = false → ∃ pa, y = x.savedAt pa

theorem Ctx.SavedWith.id {bs : List Block} {x y : Ctx} (h : x.SavedWith bs y) : y.id = x.id := by
  rcases h.cases with rfl | ⟨pa, rfl⟩ <;> rfl

theorem Ctx.SavedWith.trans {as bs : List Block} {x y z : Ctx} (h : x.SavedWith as y) (h' : y.SavedWith bs z) : x.SavedWith (as ++ bs) z := by
  have hin : ∀ {cs : List Block}, (∀ b ∈ cs, b ∈ as ++ bs) → (∃ b ∈ cs, b.id = x.block) → ∃ b ∈ as ++ bs, b.id = x.block :=
    fun hsub ⟨b, hb, hid⟩ => ⟨b, hsub b hb, hid⟩
  have hleft : ∀ b ∈ as, b ∈ as ++ bs := fun _ => List.mem_append_left _
  have hright : ∀ b ∈ bs, b ∈ as ++ bs := fun _ => List.mem_append_right _
  rcases h.cases with rfl | ⟨pa, rfl⟩
  · refine ⟨h'.cases, fun hne => ⟨(h'.own hne).1, hin hright (h'.own hne).2⟩, fun hk hbs hs he => ?_⟩
    obtain ⟨b, hb, hid⟩ := hbs
    rcases List.mem_append.mp hb with hb | hb
    · obtain ⟨pa, hpa⟩ := h.saves hk ⟨b, hb, hid⟩ hs he
      have : y.saved = true := congrArg Ctx.saved hpa
      exact absurd hs (by simp [this])
    · exact h'.saves hk ⟨b, hb, hid⟩ hs he
  · have hz : ∃ pb, z = x.savedAt pb := by
      rcases h'.cases with rfl | ⟨pb, rfl⟩
      · exact ⟨pa, rfl⟩
      · exact ⟨pb, rfl⟩
    refine ⟨.inr hz, fun hne => ?_, fun _ _ _ _ => hz⟩
    by_cases hxy : x.savedAt pa = x
    · rw [hxy] at h'
      exact ⟨(h'.own hne).1, hin hright (h'.own hne).2⟩
    · exact ⟨(h.own hxy).1, hin hleft (h.own hxy).2⟩

theorem State.saveBlock_ctxs (s : State) (b : Block) (at' : Nat) : ∃ (u : State) (pa : Nat), u.ctxs = s.ctxs
    ∧ (s.saveBlock b at').ctxs = (u.saveCtxs (s.savedCtxs b) pa).ctxs := by
  have hctxs : (if b.holds = true then ((s.wr at' (s.blockHeader b)).moveArea b.start (at' + 4096) b.size).saveMatrix b (at' + 4096 + pageUp b.size)
      else (s.wr at' (s.blockHeader b)).moveArea b.start (at' + 4096) b.size).ctxs = s.ctxs := by
    split <;> simp
  refine ⟨_, at' + 4096 + pageUp b.size + if b.holds = true then matrixBytes else 0, hctxs, ?_⟩
  rw [← State.savedCtxs_congr hctxs]
  rfl

theorem State.saveBlock_ctxsBy {s : State} (hnd : (s.ctxs.map fun x => x.id).Nodup) (b : Block) (at' : Nat) :
    s.CtxsBy (s.saveBlock b at') (Ctx.SavedWith [b]) := by
  obtain ⟨u, pa, hu, hctxs⟩ := s.saveBlock_ctxs b at'
  obtain ⟨f, hf, hsaved⟩ := u.saveCtxs_ctxsBy (s.savedCtxs b) pa
  refine ⟨f, by rw [hctxs, hf, hu], fun x hx => ?_⟩
  rcases hsaved x (hu ▸ hx) with ⟨hin, hx'⟩ | ⟨hout, hx'⟩
  · obtain ⟨z, hz, hid⟩ := List.mem_map.mp hin
    obtain ⟨hmem, hblock, hkind, -, -⟩ := State.mem_savedCtxs.mp hz
    obtain rfl := List.inj_on_of_nodup_map hnd hmem hx hid
    exact ⟨.inr hx', fun _ => ⟨hkind, b, List.mem_singleton_self b, hblock.symm⟩, fun _ _ _ _ => hx'⟩
  · refine ⟨.inl hx', fun hne => absurd hx' hne, fun hkind ⟨b', hb', hid⟩ hs he => ?_⟩
    obtain rfl := List.mem_singleton.mp hb'
    exact absurd (List.mem_map_of_mem (State.mem_savedCtxs.mpr ⟨hx, hid.symm, hkind, he, .inl hs⟩)) hout

theorem State.saveBlocks_ctxsBy {s : State} (hnd : (s.ctxs.map fun x => x.id).Nodup) (bs : List Block) (at' : Nat) :
    s.CtxsBy (s.saveBlocks bs at') (Ctx.SavedWith bs) := by
  induction bs generalizing s at' with
  | nil => exact .of_eq rfl fun x => ⟨.inl rfl, fun hne => absurd rfl hne, fun _ ⟨b, hb, _⟩ => absurd hb List.not_mem_nil⟩
  | cons b r ih =>
    have hfirst := State.saveBlock_ctxsBy hnd b at'
    have hnd' : ((s.saveBlock b at').ctxs.map fun x => x.id).Nodup := by rwa [hfirst.ids fun _ _ h => h.id]
    exact hfirst.trans (ih hnd' _) fun x _ y _ z hxy hyz => hxy.trans hyz

/-! Saved gangs. -/

/-- What the saving of a gang's sequencer context makes of a context. -/
def Ctx.SeqSaved (g : Gang) (x y : Ctx) : Prop :=
  y = x ∨ (x.kind = .seq ∧ x.gang = g.id) ∧ y = { x with fileAt := y.fileAt, saved := y.saved, image := y.image, waitSince := y.waitSince }

/-- What the saving of a gang makes of a context. -/
structure Ctx.GangSaved (g : Gang) (bs : List Block) (x y : Ctx) : Prop where
  keeps : y = { x with fileAt := y.fileAt, saved := y.saved, image := y.image, waitSince := y.waitSince }
  own : ¬ ((x.kind = .seq ∧ x.gang = g.id) ∨ (x.kind ≠ .seq ∧ ∃ b ∈ bs, b.id = x.block)) → y = x
  saves : x.kind ≠ .seq → (∃ b ∈ bs, b.id = x.block) → x.saved = false → x.ended = false → y.saved = true ∧ ∃ pa, y.image = some (false, pa)

theorem Ctx.GangSaved.of_steps {g : Gang} {bs : List Block} {x y z : Ctx} (h : x.SeqSaved g y) (h' : y.SavedWith bs z) : x.GangSaved g bs z := by
  rcases h with rfl | ⟨hseq, hy⟩
  · refine ⟨?_, fun hnot => ?_, fun hk hb hs he => ?_⟩
    · rcases h'.cases with rfl | ⟨pa, rfl⟩ <;> rfl
    · by_contra hne
      exact hnot (.inr (h'.own hne))
    · obtain ⟨pa, rfl⟩ := h'.saves hk hb hs he
      exact ⟨rfl, pa, rfl⟩
  · have hkind : y.kind = .seq := (congrArg Ctx.kind hy).trans hseq.1
    have hzy : z = y := by
      by_contra hne
      exact (h'.own hne).1 hkind
    exact ⟨hzy ▸ hy, fun hnot => absurd (.inl hseq) hnot, fun hk => absurd hseq.1 hk⟩

/-- The saving of a gang's sequencer context changes that context alone. -/
theorem State.gangSeq_ctxsBy {s : State} (hnd : (s.ctxs.map fun x => x.id).Nodup) {g : Gang} {c : Ctx} (hc : s.gangSeq g = some c)
    (f pa : Nat) :
    let s1 := (s.moveArea c.filePa f 16384).updCtx c.id fun c => { c with fileAt := f }
    s.CtxsBy (if c.ended = true then s1.updCtx c.id fun c => { c with saved := true, image := some (false, pa) } else s1.saveCtx c (false, pa))
      (Ctx.SeqSaved g) := by
  intro s1
  have hseq : ∀ x ∈ s.ctxs, x.id = c.id → x.kind = .seq ∧ x.gang = g.id := fun x hx hid => by
    rw [List.inj_on_of_nodup_map hnd hx (List.mem_of_find?_eq_some hc) hid]
    simpa using List.find?_some hc
  have hfile : s.CtxsBy s1 fun x y => y = if x.id = c.id then { x with fileAt := f } else x :=
    .of_updCtx (by simp only [s1, State.updCtx_ctxs, State.moveArea_ctxs]) fun _ _ => rfl
  split
  · refine hfile.trans (.of_updCtx rfl fun _ _ => rfl : s1.CtxsBy _ fun y z =>
      z = if y.id = c.id then { y with saved := true, image := some (false, pa) } else y) ?_
    rintro x hx y - z rfl rfl
    by_cases hid : x.id = c.id
    · exact .inr ⟨hseq x hx hid, by simp [hid]⟩
    · exact .inl (by simp [hid])
  · refine hfile.trans (s1.saveCtx_ctxsBy c pa) ?_
    rintro x hx y - z rfl hz
    by_cases hid : x.id = c.id
    · rw [if_pos hid] at hz
      rcases hz with ⟨-, pb, rfl⟩ | ⟨-, rfl⟩ <;> exact .inr ⟨hseq x hx hid, rfl⟩
    · rw [if_neg hid] at hz
      rcases hz with ⟨hin, -⟩ | ⟨-, rfl⟩
      · exact absurd (List.mem_singleton.mp hin) hid
      · exact .inl rfl

theorem State.saveGang_ctxsBy {s : State} (hnd : (s.ctxs.map fun x => x.id).Nodup) (g : Gang) (at' : Nat) :
    s.CtxsBy (s.saveGang g at') (Ctx.GangSaved g (s.gangBlocks g)) := by
  obtain ⟨u, pa, hu, hctxs⟩ : ∃ (u : State) (pa : Nat), s.CtxsBy u (Ctx.SeqSaved g)
      ∧ (s.saveGang g at').ctxs = (u.saveBlocks (s.gangBlocks g) pa).ctxs := by
    cases hseq : s.gangSeq g with
    | none => exact ⟨s, _, .of_eq rfl fun _ => .inl rfl, by simp only [State.saveGang, hseq]; rfl⟩
    | some c => exact ⟨_, _, State.gangSeq_ctxsBy hnd hseq _ at', by simp only [State.saveGang, hseq]; rfl⟩
  have hid : ∀ x y, Ctx.SeqSaved g x y → y.id = x.id := fun x y h => by
    rcases h with rfl | ⟨-, hy⟩
    · rfl
    · rw [hy]
  have hnd' : (u.ctxs.map fun x => x.id).Nodup := by rwa [hu.ids hid]
  obtain ⟨f, hf, hR⟩ := hu.trans (State.saveBlocks_ctxsBy hnd' (s.gangBlocks g) pa) fun x _ y _ z hxy hyz => Ctx.GangSaved.of_steps hxy hyz
  exact ⟨f, hctxs.trans hf, hR⟩

/-- What became of a context of a number that is its alone. -/
theorem State.CtxsBy.ctx? {s t : State} {R : Ctx → Ctx → Prop} (h : s.CtxsBy t R) (hid : ∀ x y, R x y → y.id = x.id)
    (hnd : (s.ctxs.map fun x => x.id).Nodup) {c : Ctx} (hc : c ∈ s.ctxs) : ∃ d, t.ctx? c.id = some d ∧ R c d := by
  obtain ⟨d, hd, hcd⟩ := h.exists_of_mem hc
  have hfind := State.ctx?_of_mem (by rwa [h.ids hid]) hd
  exact ⟨d, hid c d hcd ▸ hfind, hcd⟩

/-- A context of a gang that is saved keeps its registers, tokens and lanes, and one of no part of the gang is as it was. -/
theorem State.saveGang_ctx? {s : State} (hnd : (s.ctxs.map fun x => x.id).Nodup) (g : Gang) (at' : Nat) {c : Ctx} (hc : c ∈ s.ctxs) :
    ∃ d, (s.saveGang g at').ctx? c.id = some d ∧ c.GangSaved g (s.gangBlocks g) d :=
  (State.saveGang_ctxsBy hnd g at').ctx? (fun x y h => by rw [h.keeps]) hnd hc

end Sys2Proof.Machine
end

section
/-! PROOFS. What the image of a block holds (17_context_debug_trace.md R368): its header, the bytes of its region, and its contexts' images
behind them. -/

namespace Sys2Proof.Machine

theorem State.readN_congr {s t : State} {pa n : Nat} (h : ∀ i < n, t.readByte (pa + i) = s.readByte (pa + i)) : t.readN pa n = s.readN pa n := by
  induction n generalizing pa with
  | zero => rfl
  | succ n ih =>
    have h0 : t.readByte pa = s.readByte pa := h 0 (Nat.succ_pos n)
    have hrest : t.readN (pa + 1) n = s.readN (pa + 1) n := ih fun i hi => by
      rw [Nat.add_assoc, Nat.add_comm 1 i]
      exact h (i + 1) (Nat.succ_lt_succ hi)
    rw [State.readN, State.readN, h0, hrest]

theorem State.readBytes_getElem? (s : State) (pa : Nat) {n i : Nat} (hi : i < n) : (s.readBytes pa n)[i]? = some (s.readByte (pa + i)) := by
  induction n generalizing pa i with
  | zero => omega
  | succ n ih =>
    rw [State.readBytes]
    cases i with
    | zero => rfl
    | succ i =>
      rw [List.getElem?_cons_succ, ih (pa + 1) (by omega), Nat.add_assoc, Nat.add_comm 1 i]

theorem State.readBytes_length (s : State) (pa n : Nat) : (s.readBytes pa n).length = n := by
  induction n generalizing pa with
  | zero => rfl
  | succ n ih => rw [State.readBytes, List.length_cons, ih]

/-! Areas that are moved. -/

@[simp] theorem State.moveArea_cores (s : State) (a b n : Nat) : (s.moveArea a b n).cores = s.cores := by
  show (s.wr b (s.readBytes a n)).cores = s.cores
  rw [State.wr_eq]

theorem State.moveArea_wf {s : State} (hs : Memory.wf s.mem = true) (a b n : Nat) : Memory.wf (s.moveArea a b n).mem = true :=
  State.wf_wr hs ..

/-- The bytes of an area where they were moved to. -/
theorem State.moveArea_readByte {s : State} (hs : Memory.wf s.mem = true) (a b : Nat) {n i : Nat} (hi : i < n) :
    (s.moveArea a b n).readByte (b + i) = s.readByte (a + i) := by
  show (s.wr b (s.readBytes a n)).readByte (b + i) = _
  rw [State.readByte_wr hs, if_pos (Nat.le_add_right ..), Nat.add_sub_cancel_left, s.readBytes_getElem? a hi, Option.getD_some]

theorem State.moveArea_readByte_outside {s : State} (hs : Memory.wf s.mem = true) {a b n q : Nat} (hq : q < b ∨ b + n ≤ q) :
    (s.moveArea a b n).readByte q = s.readByte q :=
  State.readByte_wr_outside hs (by rwa [State.readBytes_length])

/-! Contexts saved one after the other. -/

/-- The bytes that the images of contexts take. -/
def State.savedSizes (s : State) (cs : List Ctx) : Nat := (cs.map s.savedSize).sum

theorem State.savedSizes_eq_foldl (s : State) (cs : List Ctx) : cs.foldl (fun n c => n + s.savedSize c) 0 = s.savedSizes cs := by
  rw [State.savedSizes, List.sum_eq_foldl, List.foldl_map]

/-- Every context of the number of one of a list is of its size. -/
def State.SizedAs (s : State) (cs : List Ctx) : Prop := ∀ c ∈ cs, ∀ d ∈ s.ctxs, d.id = c.id → d.width = c.width ∧ d.vregs = c.vregs

theorem State.SizedAs.saveCtx {s : State} {cs : List Ctx} (h : s.SizedAs cs) (x : Ctx) (pa : Nat) : (s.saveCtx x (false, pa)).SizedAs cs := by
  intro c hc d hd hid
  obtain ⟨y, hy, hsaved⟩ := (s.saveCtx_ctxsBy x pa).exists_of_mem' hd
  rcases hsaved with ⟨-, pb, rfl⟩ | ⟨-, rfl⟩
  · exact h c hc y hy hid
  · exact h c hc d hy hid

/-- Saving contexts one after the other writes to the place of their images alone. -/
theorem State.saveCtxs_readByte {s : State} (hs : Memory.wf s.mem = true) {cs : List Ctx} (hsz : s.SizedAs cs) {pa q : Nat}
    (hq : q < pa ∨ pa + s.savedSizes cs ≤ q) : (s.saveCtxs cs pa).readByte q = s.readByte q := by
  induction cs generalizing s pa with
  | nil => rfl
  | cons c r ih =>
    have hsize : ∀ x, (s.saveCtx c (false, pa)).savedSize x = s.savedSize x := fun x =>
      State.savedSize_congr (s.saveCtx_cores c pa) rfl rfl rfl
    have hsum : s.savedSizes (c :: r) = s.savedSize c + (s.saveCtx c (false, pa)).savedSizes r := by
      simp only [State.savedSizes, List.map_cons, List.sum_cons, funext hsize]
    have hown : ∀ d, s.ctx? c.id = some d → s.savedSize d = s.savedSize c := fun d hd => by
      have hid : d.id = c.id := by simpa using List.find?_some hd
      obtain ⟨hw, hv⟩ := hsz c List.mem_cons_self d (List.mem_of_find?_eq_some hd) hid
      exact State.savedSize_congr rfl hid hw hv
    have hrest : (s.saveCtx c (false, pa)).SizedAs r := State.SizedAs.saveCtx (fun x hx => hsz x (List.mem_cons_of_mem _ hx)) c pa
    rw [hsum] at hq
    exact (ih (State.saveCtx_wf hs c pa) hrest (by omega)).trans (State.saveCtx_readByte hs hown (by omega))

/-! A block's image. -/

theorem State.blockHeader_length (s : State) (b : Block) : (s.blockHeader b).length = 256 := by
  unfold State.blockHeader
  simp only
  split <;> simp

section block
variable {s : State} {b : Block} {at' : Nat}

/-- A state whose memory has the header of a block's image and its region, but not yet its contexts' images. -/
def State.saveRegion (s : State) (b : Block) (at' : Nat) : State := (s.wr at' (s.blockHeader b)).moveArea b.start (at' + 4096) b.size

theorem State.saveRegion_ctxs (s : State) (b : Block) (at' : Nat) : (s.saveRegion b at').ctxs = s.ctxs := by
  simp only [State.saveRegion, State.moveArea_ctxs, State.wr_ctxs]

theorem State.saveRegion_cores (s : State) (b : Block) (at' : Nat) : (s.saveRegion b at').cores = s.cores := by
  rw [State.saveRegion, State.moveArea_cores, State.wr_eq]

theorem State.saveRegion_wf (hs : Memory.wf s.mem = true) : Memory.wf (s.saveRegion b at').mem = true :=
  State.moveArea_wf (State.wf_wr hs ..) ..

/-- Without a matrix state, the contexts' images follow the region. -/
theorem State.saveBlock_mem (hb : b.holds = false) :
    (s.saveBlock b at').mem = ((s.saveRegion b at').saveCtxs (s.savedCtxs b) (at' + 4096 + pageUp b.size)).mem := by
  have hne : ¬ b.holds = true := by simp [hb]
  unfold State.saveBlock
  extract_lets s1 s2 m s3 s4 k
  have h3 : s3 = s.saveRegion b at' := if_neg hne
  show s4.mem = _
  simp only [s4, h3, m, if_neg hne, Nat.add_zero, State.savedCtxs_congr (s.saveRegion_ctxs b at')]

theorem State.blockImage_eq (hb : b.holds = false) : s.blockImage b = 4096 + pageUp b.size + s.savedSizes (s.savedCtxs b) := by
  simp only [State.blockImage, hb, Bool.false_eq_true, if_false, Nat.add_zero, State.savedSizes_eq_foldl]

theorem le_pageUp (n : Nat) : n ≤ pageUp n := by
  unfold pageUp
  omega

/-- The contexts' images stand behind the region: everything else is as the region's move left it. -/
theorem State.saveBlock_readByte_region (hs : Memory.wf s.mem = true) (hb : b.holds = false) (hnd : (s.ctxs.map fun x => x.id).Nodup)
    {q : Nat} (hq : q < at' + 4096 + pageUp b.size ∨ at' + s.blockImage b ≤ q) :
    (s.saveBlock b at').readByte q = (s.saveRegion b at').readByte q := by
  have hsz : (s.saveRegion b at').SizedAs (s.savedCtxs b) := fun c hc d hd hid => by
    rw [State.saveRegion_ctxs] at hd
    obtain rfl := List.inj_on_of_nodup_map hnd hd (State.mem_savedCtxs.mp hc).1 hid
    exact ⟨rfl, rfl⟩
  have hsizes : (s.saveRegion b at').savedSizes (s.savedCtxs b) = s.savedSizes (s.savedCtxs b) := by
    have hsize : (s.saveRegion b at').savedSize = s.savedSize :=
      funext fun x => State.savedSize_congr (s.saveRegion_cores b at') rfl rfl rfl
    rw [State.savedSizes, hsize, State.savedSizes]
  rw [State.blockImage_eq hb] at hq
  have hmem : (s.saveBlock b at').readByte q = ((s.saveRegion b at').saveCtxs (s.savedCtxs b) (at' + 4096 + pageUp b.size)).readByte q := by
    rw [State.readByte, State.saveBlock_mem hb]
    rfl
  rw [hmem, State.saveCtxs_readByte (State.saveRegion_wf hs) hsz (by omega)]

/-- Saving a block writes to the place of its image alone. -/
theorem State.saveBlock_readByte_outside (hs : Memory.wf s.mem = true) (hb : b.holds = false) (hnd : (s.ctxs.map fun x => x.id).Nodup)
    {q : Nat} (hq : q < at' ∨ at' + s.blockImage b ≤ q) : (s.saveBlock b at').readByte q = s.readByte q := by
  have hsize := le_pageUp b.size
  have hlen := s.blockHeader_length b
  have himage := s.blockImage_eq hb
  rw [State.saveBlock_readByte_region hs hb hnd (by omega), State.saveRegion,
    State.moveArea_readByte_outside (State.wf_wr hs ..) (by omega), State.readByte_wr_outside hs (by omega)]

/-- The region of a saved block in its image. -/
theorem State.saveBlock_readByte_inside (hs : Memory.wf s.mem = true) (hb : b.holds = false) (hnd : (s.ctxs.map fun x => x.id).Nodup)
    (hapart : at' + s.blockImage b ≤ b.start ∨ b.start + b.size ≤ at') {i : Nat} (hi : i < b.size) :
    (s.saveBlock b at').readByte (at' + 4096 + i) = s.readByte (b.start + i) := by
  have hsize := le_pageUp b.size
  have hlen := s.blockHeader_length b
  have himage := s.blockImage_eq hb
  rw [State.saveBlock_readByte_region hs hb hnd (by omega), State.saveRegion, State.moveArea_readByte (State.wf_wr hs ..) _ _ hi,
    State.readByte_wr_outside hs (by omega)]

/-- The number of a saved block's contexts in its header. -/
theorem State.saveBlock_header (hs : Memory.wf s.mem = true) (hb : b.holds = false) (hnd : (s.ctxs.map fun x => x.id).Nodup) :
    let slot := bitOf ((s.savedCtxs b).any fun c => c.kind == .slot)
    (s.saveBlock b at').readN at' 8 = ((s.savedCtxs b).length - slot) % 16 + 16 * slot := by
  intro slot
  have hslot : slot ≤ 1 := by
    simp only [slot, bitOf]
    split <;> omega
  have hat : leBytes 8 (((s.savedCtxs b).length - slot) % 16 + 16 * slot) <+: (s.blockHeader b).drop 0 := by
    simp only [State.blockHeader, List.append_assoc, List.drop_zero]
    exact List.prefix_append ..
  have hhead := State.readN_wr_leBytes hs at' hat
  have hsame : (s.saveBlock b at').readN at' 8 = (s.wr at' (s.blockHeader b)).readN at' 8 := State.readN_congr fun i hi => by
    rw [State.saveBlock_readByte_region hs hb hnd (by omega), State.saveRegion,
      State.moveArea_readByte_outside (State.wf_wr hs ..) (by omega)]
  exact hsame.trans (hhead.trans (Nat.mod_eq_of_lt (by omega)))

end block

end Sys2Proof.Machine
end

section
/-! PROOFS. What the return of a saved gang does to each context (17_context_debug_trace.md R365, R368): it keeps its registers and tokens
and goes on with what it held. -/

namespace Sys2Proof.Machine

/-! Loaded contexts. -/

/-- A lane that fetches afresh. -/
def Lane.clearHold (x : Lane) : Lane := { x with fetchHold := Option.none }

/-- What loading, once or more, makes of a context that may be one of those loaded. -/
structure Ctx.Loads (x y : Ctx) : Prop where
  keeps : y = { x with cost := y.cost, saved := y.saved, image := y.image, slotNo := y.slotNo, lanes := y.lanes }
  lanes : y.lanes = x.lanes ∨ y.lanes = x.lanes.map Lane.clearHold
  cases : y = x ∨ y.saved = false ∧ y.image = none

theorem Ctx.Loads.refl (x : Ctx) : x.Loads x := ⟨rfl, .inl rfl, .inl rfl⟩

theorem Ctx.Loads.id {x y : Ctx} (h : x.Loads y) : y.id = x.id := by rw [h.keeps]

theorem Ctx.Loads.trans {x y z : Ctx} (h : x.Loads y) (h' : y.Loads z) : x.Loads z := by
  refine ⟨?_, ?_, ?_⟩
  · have hz := h'.keeps
    rw [h.keeps] at hz
    exact hz
  · rcases h.lanes with hy | hy <;> rcases h'.lanes with hz | hz <;> rw [hz, hy]
    · exact .inl rfl
    · exact .inr rfl
    · exact .inr rfl
    · exact .inr (by rw [List.map_map]; rfl)
  · rcases h'.cases with rfl | hz
    · exact h.cases
    · exact .inr hz

/-- A context without pending fetches keeps its lanes. -/
theorem Ctx.Loads.lanes_eq {x y : Ctx} (h : x.Loads y) (hx : ∀ l ∈ x.lanes, l.fetchHold = none) : y.lanes = x.lanes := by
  rcases h.lanes with hy | hy
  · exact hy
  · rw [hy]
    refine (List.map_congr_left fun l hl => ?_).trans (List.map_id _)
    rw [Lane.clearHold, ← hx l hl]
    rfl

/-- What loading those of a list of numbers makes of a context. -/
structure Ctx.LoadedIn (ids : List Nat) (x y : Ctx) : Prop where
  loads : x.Loads y
  inCore : x.id ∈ ids → y.saved = false ∧ y.image = none

theorem Ctx.LoadedIn.trans {is js : List Nat} {x y z : Ctx} (h : x.LoadedIn is y) (h' : y.LoadedIn js z) : x.LoadedIn (is ++ js) z := by
  refine ⟨h.loads.trans h'.loads, fun hin => ?_⟩
  rcases h'.loads.cases with rfl | hz
  · rcases List.mem_append.mp hin with hi | hj
    · exact h.inCore hi
    · exact h'.inCore (h.loads.id ▸ hj)
  · exact hz

theorem State.loadCtx_ctxsBy {s t : State} {c : Ctx} {g : Ctx → Ctx} (ht : t.ctxs = (s.updCtx c.id g).ctxs)
    (hg : ∀ x, g x = { x with cost := (g x).cost }) : s.CtxsBy (t.loadCtx c) (Ctx.LoadedIn [c.id]) := by
  have hcost : s.CtxsBy t fun x y => y = if x.id = c.id then g x else x := .of_updCtx ht fun _ _ => rfl
  have hload : t.CtxsBy (t.loadCtx c) fun y z => z = if y.id = c.id then { y with
      lanes := if y.lanes.any (fun x => x.fetchHold.isSome) then y.lanes.map fun x => { x with fetchHold := none } else y.lanes
      saved := false, image := none, slotNo := if y.kind == .seq then y.slotNo else t.freeSlot y.loc } else y :=
    .of_updCtx rfl fun _ _ => rfl
  refine hcost.trans hload ?_
  rintro x - y - z rfl rfl
  by_cases hid : x.id = c.id
  · have hgx : (g x).id = c.id := by rw [hg x]; exact hid
    rw [if_pos hid, if_pos hgx]
    refine ⟨⟨?_, ?_, .inr ⟨rfl, rfl⟩⟩, fun _ => ⟨rfl, rfl⟩⟩
    · rw [hg x]
    · rw [hg x]
      simp only
      split
      · exact .inr rfl
      · exact .inl rfl
  · rw [if_neg hid, if_neg hid]
    exact ⟨.refl x, fun hin => absurd (List.mem_singleton.mp hin) hid⟩

/-! Loaded blocks. -/

@[simp] theorem State.loadMatrix_ctxs (s : State) (b : Block) (at' : Nat) : (s.loadMatrix b at').ctxs = s.ctxs := by
  unfold State.loadMatrix
  extract_lets m s1 r k
  have h1 : s1.ctxs = s.ctxs := by simp only [s1, State.moveArea_ctxs]
  rw [State.setCore_ctxs, h1]

/-- Contexts loaded one after the other. -/
theorem State.loadCtxs_ctxsBy (w : Nat) (cs : List Ctx) (s : State) :
    s.CtxsBy (cs.foldl (fun s c => (s.updCtx c.id fun c => { c with cost := w }).loadCtx c) s) (Ctx.LoadedIn (cs.map fun c => c.id)) := by
  induction cs generalizing s with
  | nil => exact .of_eq rfl fun x => ⟨.refl x, fun hin => absurd hin List.not_mem_nil⟩
  | cons c r ih => exact (State.loadCtx_ctxsBy rfl fun _ => rfl).trans (ih _) fun x _ y _ z hxy hyz => hxy.trans hyz

theorem State.loadBlock_ctxsBy (s : State) (l : Launch) (b : Block) (at' : Nat) :
    s.CtxsBy (s.loadBlock l b at') (Ctx.LoadedIn ((s.savedCtxs b).map fun c => c.id)) := by
  obtain ⟨u, hu, hload⟩ : ∃ u : State, u.ctxs = s.ctxs ∧ s.loadBlock l b at' =
      (s.savedCtxs b).foldl (fun t c => (t.updCtx c.id fun c => { c with cost := s.weight l.record.energy }).loadCtx c) u := by
    refine ⟨_, ?_, rfl⟩
    rw [State.updBlock_ctxs, State.charge_ctxs]
    split
    · rw [State.setCore_ctxs, State.loadMatrix_ctxs, State.moveArea_ctxs]
    · exact s.moveArea_ctxs ..
  obtain ⟨f, hf, hR⟩ := State.loadCtxs_ctxsBy (s.weight l.record.energy) (s.savedCtxs b) u
  exact ⟨f, by rw [hload, hf, hu], fun x hx => hR x (hu.symm ▸ hx)⟩

/-- What loading the blocks of a list makes of a context: one that was pre-empted with its block is in its core. -/
structure Ctx.LoadedWith (bs : List Block) (x y : Ctx) : Prop where
  loads : x.Loads y
  inCore : x.preempted = true → x.ended = false → x.kind ≠ .seq → (∃ b ∈ bs, b.id = x.block ∧ b.saved.isSome = true) →
    y.saved = false ∧ y.image = none

theorem Ctx.LoadedWith.trans {as bs : List Block} {x y z : Ctx} (h : x.LoadedWith as y) (h' : y.LoadedWith bs z) :
    x.LoadedWith (as ++ bs) z := by
  refine ⟨h.loads.trans h'.loads, fun hp he hk ⟨b, hb, hid, hs⟩ => ?_⟩
  rcases h'.loads.cases with rfl | hz
  · rcases List.mem_append.mp hb with ha | hb
    · exact h.inCore hp he hk ⟨b, ha, hid, hs⟩
    · rcases h.loads.cases with rfl | hy
      · exact h'.inCore hp he hk ⟨b, hb, hid, hs⟩
      · exact hy
  · exact hz

theorem State.loadBlocks_ctxsBy (l : Launch) (bs : List Block) (s : State) :
    s.CtxsBy (bs.foldl (fun s b => match b.saved with | some a => s.loadBlock l b a | none => s) s) (Ctx.LoadedWith bs) := by
  induction bs generalizing s with
  | nil => exact .of_eq rfl fun x => ⟨.refl x, fun _ _ _ ⟨b, hb, _⟩ => absurd hb List.not_mem_nil⟩
  | cons b r ih =>
    rw [List.foldl_cons]
    refine State.CtxsBy.trans (R := Ctx.LoadedWith [b]) ?_ (ih _) fun x _ y _ z hxy hyz => hxy.trans hyz
    split
    · rename_i a ha
      refine (s.loadBlock_ctxsBy l b a).mono fun x hx y h => ⟨h.loads, fun hp he hk ⟨b', hb', hid, _⟩ => h.inCore ?_⟩
      obtain rfl := List.mem_singleton.mp hb'
      exact List.mem_map_of_mem (State.mem_savedCtxs.mpr ⟨hx, hid.symm, hk, he, .inr hp⟩)
    · rename_i hnone
      refine .of_eq rfl fun x => ⟨.refl x, fun _ _ _ ⟨b', hb', _, hs⟩ => ?_⟩
      obtain rfl := List.mem_singleton.mp hb'
      rw [hnone] at hs
      cases hs

/-! Monitors. -/

/-- A context whose lanes are in the same states has the same monitored waits. -/
theorem Ctx.monitors_congr {x y : Ctx} (hw : y.width = x.width) (h : ∀ l, (y.lane l).st = (x.lane l).st) : y.monitors = x.monitors := by
  simp only [Ctx.monitors, Ctx.waitGroup, Ctx.allLanes, hw, h]

theorem Ctx.Loads.monitors {x y : Ctx} (h : x.Loads y) : y.monitors = x.monitors := by
  have hw : y.width = x.width := by rw [h.keeps]
  refine Ctx.monitors_congr hw fun l => ?_
  rcases h.lanes with hy | hy
  · rw [Ctx.lane, hy, Ctx.lane]
  · simp only [Ctx.lane, hy, nth_eq_getD, List.getElem?_map]
    cases x.lanes[l]? <;> rfl

/-- A context that monitors nothing is not armed again. -/
theorem State.rearm_of_monitors {s : State} {id : Nat} (h : ∀ x ∈ s.ctxs, x.id = id → x.monitors = []) : s.rearm id = s := by
  unfold State.rearm
  split
  · rename_i c hc
    rw [h c (List.mem_of_find?_eq_some hc) (by simpa using List.find?_some hc)]
    rfl
  · rfl

/-! A loaded gang. -/

/-- A gang of which no context monitors anything comes back as its parts are loaded. -/
theorem State.loadGang_ctxsBy {s : State} (hnd : (s.ctxs.map fun x => x.id).Nodup) (l : Launch) (g : Gang)
    (hmon : ∀ x ∈ s.ctxs, x.gang = g.id → x.monitors = []) : s.CtxsBy (s.loadGang l g) (Ctx.LoadedWith (s.gangBlocks g)) := by
  obtain ⟨u, hu, hgang⟩ : ∃ u : State, s.CtxsBy u (Ctx.LoadedWith (s.gangBlocks g))
      ∧ s.loadGang l g = (u.ctxs.filter fun c => c.gang == g.id && !c.saved && !c.ended).foldl (fun s c => s.rearm c.id) u := by
    have hseq : s.CtxsBy (match s.gangSeq g with
        | some c => (s.moveArea c.filePa ({ c with saved := false, image := none } : Ctx).filePa 16384).loadCtx c
        | none => s) (Ctx.LoadedWith []) := by
      split
      · rename_i c hc
        have hmove : s.CtxsBy (s.moveArea c.filePa ({ c with saved := false, image := none } : Ctx).filePa 16384) fun x y => y = x :=
          .of_eq (s.moveArea_ctxs ..) fun _ => rfl
        refine hmove.trans (State.loadCtx_ctxsBy (c := c) (g := fun x => x) ?_ fun _ => rfl) ?_
        · rw [State.updCtx_fixed fun _ _ _ => rfl]
        · rintro x - y - z rfl hz
          exact ⟨hz.loads, fun _ _ _ ⟨b, hb, _⟩ => absurd hb List.not_mem_nil⟩
      · exact .of_eq rfl fun x => ⟨.refl x, fun _ _ _ ⟨b, hb, _⟩ => absurd hb List.not_mem_nil⟩
    obtain ⟨f, hf, hR⟩ := hseq.trans (State.loadBlocks_ctxsBy l (s.gangBlocks g) _) fun x _ y _ z hxy hyz => hxy.trans hyz
    exact ⟨State.updGang _ g.id fun g => { g with saved := false, image := 0, extent := 0 }, ⟨f, hf, hR⟩, rfl⟩
  have hnone : ∀ x ∈ u.ctxs, x.gang = g.id → x.monitors = [] := fun x hx hxg => by
    obtain ⟨y, hy, hyx⟩ := hu.exists_of_mem' hx
    rw [hyx.loads.monitors]
    rw [hyx.loads.keeps] at hxg
    exact hmon y hy hxg
  have hnd' : (u.ctxs.map fun x => x.id).Nodup := by rwa [hu.ids fun _ _ h => h.loads.id]
  have hrearm : s.loadGang l g = u := by
    rw [hgang]
    refine List.foldlRecOn (motive := fun t => t = u) _ _ rfl fun t ht c hc => ?_
    obtain ⟨hmem, hcg⟩ := List.mem_filter.mp hc
    have hcgang : c.gang = g.id := by
      simp only [Bool.and_eq_true, beq_iff_eq] at hcg
      exact hcg.1.1
    rw [ht]
    refine State.rearm_of_monitors fun x hx hid => ?_
    rw [List.inj_on_of_nodup_map hnd' hx hmem hid]
    exact hnone c hmem hcgang
  rw [hrearm]
  exact hu

/-- What a context of a gang that is loaded has become. -/
theorem State.loadGang_ctx? {s : State} (hnd : (s.ctxs.map fun x => x.id).Nodup) (l : Launch) (g : Gang)
    (hmon : ∀ x ∈ s.ctxs, x.gang = g.id → x.monitors = []) {c : Ctx} (hc : c ∈ s.ctxs) :
    ∃ d, (s.loadGang l g).ctx? c.id = some d ∧ c.LoadedWith (s.gangBlocks g) d :=
  (State.loadGang_ctxsBy hnd l g hmon).ctx? (fun _ _ h => h.loads.id) hnd hc

end Sys2Proof.Machine
end

section
/-! PROOFS. Ends of warps, the Lens, and saved contexts, gangs and blocks (13_spawn.md; 17_context_debug_trace.md R365 to R368). -/

namespace Sys2Proof.Machine

/-- What stands at a saved context's place, and what is left of everything else. -/
theorem State.saveCtx_saved {s : State} {c : Ctx} (hc : s.ctx? c.id = some c) (pa : Nat) :
    (s.saveCtx c (false, pa)).ctx? c.id = some (c.savedAt pa) ∧ ∀ x ∈ s.ctxs, x.id ≠ c.id → x ∈ (s.saveCtx c (false, pa)).ctxs := by
  refine ⟨?_, fun x hx hid => ?_⟩
  · rw [State.ctx?_congr (s.saveCtx_ctxs c pa)]
    exact State.ctx?_updCtx hc fun _ => rfl
  · rw [s.saveCtx_ctxs, State.updCtx_ctxs, updWhere_id_eq]
    exact List.mem_map.mpr ⟨x, hx, if_neg hid⟩

/-- A gang is saved where its contexts stand at run boundaries. -/
theorem State.savable_idle {s : State} {g : Gang} (h : s.savable g = true) {c : Ctx} (hc : c ∈ s.ctxs) (hg : c.gang = g.id)
    (he : c.ended = false) : c.commitQ = [] ∧ ∀ x ∈ c.lanes, x.deferred = none := by
  simp only [State.savable, Bool.and_eq_true, List.all_eq_true, Bool.or_eq_true, bne_iff_ne, List.isEmpty_iff, Option.isNone_iff_eq_none] at h
  obtain ⟨⟨-, hall⟩, -⟩ := h
  rcases hall c hc with (hne | hend) | hidle
  · exact absurd hg hne
  · exact absurd he (by simp [hend])
  · exact hidle

theorem Ctx.GangSaved.holds {g : Gang} {bs : List Block} {c d : Ctx} (h : c.GangSaved g bs d) :
    d.v = c.v ∧ d.s = c.s ∧ d.p = c.p ∧ d.m = c.m ∧ d.tok = c.tok ∧ d.sr = c.sr ∧ d.lanes = c.lanes := by
  rw [h.keeps]
  exact ⟨rfl, rfl, rfl, rfl, rfl, rfl, rfl⟩

theorem Ctx.Loads.holds {c d : Ctx} (h : c.Loads d) (hfetch : ∀ x ∈ c.lanes, x.fetchHold = none) :
    d.v = c.v ∧ d.s = c.s ∧ d.p = c.p ∧ d.m = c.m ∧ d.tok = c.tok ∧ d.sr = c.sr ∧ d.lanes = c.lanes := by
  have hlanes := h.lanes_eq hfetch
  rw [h.keeps] at hlanes ⊢
  exact ⟨rfl, rfl, rfl, rfl, rfl, rfl, hlanes⟩

/-- Settles O56: each clause is the lemma of its event, or of what is saved and loaded. -/
theorem blockAndLensEvents : Obligations.BlockAndLensEvents := by
  unfold Obligations.BlockAndLensEvents
  refine ⟨fun cid => ?_, fun b l e arg => ?_, fun l g core gid idx base rest => ?_, fun i r b hblock => ?_,
    fun i r c hblock hkind hended => ?_, fun ck id => ?_, fun l ck e => ?_, fun s ck lid e x hwf _ => State.formWarp_one hwf ck lid e x,
    fun ck => ?_, fun l ck bs s1 => ?_, fun l f rest ck core => ?_, fun c l ck va => ?_, fun c core => ?_,
    fun s c pa hc hwidth hvregs hs => ?_, fun s g hsave c hc hg he => State.savable_idle hsave hc hg he, fun s g at' c hc hnd => ?_,
    fun s b at' hb hapart hs _ hnd => ?_, fun s l g b at' c hc hnd _ hb hsaved hid _ hkind hpre hended hmon hfetch => ?_⟩
  · exact leaves_of_event (fun _ => rfl) fun s ⟨c, hc, hend, hjc⟩ => State.warpEnd_ended hc hend hjc
  · exact leaves_of_event (fun _ => rfl) fun s ⟨hb, hl, hslot, hkilled, hover, hvalid, hroom⟩ =>
      State.startSuccessor_starts hb hl hslot hkilled hover hvalid hroom
  · exact happens_of_event (fun _ => rfl) fun s ⟨hl, hq, hg, hsv, hdy, hdie, hcl, hcore, hfree, hre, hfirst, hformed, hen, had⟩ =>
      State.relaunchBlock_admitted hl hq hg hsv hdy hdie hcl hcore hfree hre hfirst hformed hen had
  · exact ⟨happens_of_event (fun _ => rfl) fun s ⟨hr, hb⟩ => (State.homeFailure_block hr hblock).1 b hb,
      happens_of_event (fun _ => rfl) fun s ⟨hr, hb, hc⟩ => (State.homeFailure_block hr hblock).2 hb hc⟩
  · exact happens_of_event (fun _ => rfl) fun s ⟨hr, hb, hc⟩ => State.homeFailure_sequencer hr hblock hkind hended hb hc
  · exact happens_of_event (fun _ => rfl) fun s h => State.entryEligible_found h
  · exact ⟨happens_of_event (fun _ => rfl) fun s ⟨hl, hfull⟩ => State.fullWarp_full hl hfull,
      happens_of_event (fun _ => rfl) fun s ⟨hl, x, hx, t, ht, hage⟩ => State.ageFlush_aged hl hx ht hage⟩
  · exact happens_of_event (fun _ => rfl) fun s ⟨hadm, he, hidle⟩ => by
      obtain ⟨t, ht⟩ := Option.isSome_iff_exists.mp (State.idleFlush_isSome hadm he hidle)
      rw [ht, Option.getD_some]
  · exact happens_of_event (fun _ => rfl) fun s ⟨hl, hsome, hquota, hroom, hread⟩ => State.spillReturn_read hl hsome hquota hroom hread
  · exact happens_of_event (fun _ => rfl) fun s ⟨hck, hcore, hf, hl, hfits, hrest⟩ => State.admitChild_first hck hcore hf hl hfits hrest
  · exact happens_of_event (fun _ => rfl) fun s ⟨hl, hctxs, hlaunch, hck, hwait, hsince, hlong, hev, hevlong, hstuck, hva, hslots⟩ =>
      State.evict_only hl hctxs hlaunch hck hwait hsince hlong hev hevlong hstuck hva hslots
  · refine leaves_of_event (fun _ => rfl) fun s ⟨hc, hcan⟩ => ?_
    obtain ⟨t, ht, hin⟩ := State.restoreWarp_inCore hc hcan
    exact ⟨t, ht, fun x hx => hin.inCore x (List.mem_of_find?_eq_some hx) (by simpa using List.find?_some hx)⟩
  · obtain ⟨hctx, hothers⟩ := State.saveCtx_saved hc pa
    obtain ⟨hkind, hw, hv, hone⟩ := State.saveCtx_shape hs hc pa hwidth hvregs
    exact ⟨hctx, hothers, hkind, hw, hv, hone, fun l hl => State.saveCtx_pcs hs hc pa hl, fun n hn => State.saveCtx_sregs hs hc pa hn,
      fun n hn => State.saveCtx_mregs hs hc pa hn, fun k hk => State.saveCtx_tokens hs hc pa hk,
      fun n hn l hl => State.saveCtx_vregs hs hc pa hn hl,
      fun q hq => State.saveCtx_readByte hs (fun d hd => by rw [Option.some.inj (hd.symm.trans hc)]) hq⟩
  · obtain ⟨d, hd, hsaved⟩ := State.saveGang_ctx? hnd g at' hc
    obtain ⟨hv, hsr, hp, hm, htok, hsys, hlanes⟩ := hsaved.holds
    exact ⟨d, hd, hv, hsr, hp, hm, htok, hsys, hlanes, hsaved.own, fun hmine hkind =>
      hsaved.saves hkind (hmine.resolve_left fun hseq => hkind hseq.1).2⟩
  · exact ⟨State.saveBlock_header hs hb hnd, fun i hi => State.saveBlock_readByte_inside hs hb hnd hapart hi,
      fun q hq => State.saveBlock_readByte_outside hs hb hnd hq⟩
  · obtain ⟨d, hd, hloaded⟩ := State.loadGang_ctx? hnd l g hmon hc
    obtain ⟨hin, himage⟩ := hloaded.inCore hpre hended hkind ⟨b, hb, hid, by rw [hsaved]; rfl⟩
    exact ⟨d, hd, hin, himage, hloaded.loads.holds hfetch⟩

end Sys2Proof.Machine
end

section
/-! PROOFS. Words that the spec writes out (02_formats.md, 05_integer_lane.md R82, 06_float.md, 07_memory.md, 08_ordering.md, 10_atomics.md,
13_spawn.md, 17_system.md). -/

namespace Sys2Proof.Machine

/-- Settles O1: each word is decoded by evaluation. -/
theorem specExamplesDecode : Obligations.SpecExamplesDecode := by
  unfold Obligations.SpecExamplesDecode
  refine ⟨?iadd, ?ffma, ?ld, ?fence, ?atom, ?spawn, ?mtsr⟩ <;> decide

end Sys2Proof.Machine
end

section
/-! PROOFS. The integer arithmetic of 05_integer_lane.md R80 to R88 as arithmetic of bit vectors: reading a pattern of N bits (`extN`),
narrowing an integer to one (`wrapN`, `satN`), shifts, bit counts and bit fields. -/

namespace Sys2Proof.Machine

/-! Patterns of N bits. -/

theorem tyBits_eq (ty : Nat) : tyBits ty = 32 ∨ tyBits ty = 64 := by
  unfold tyBits
  split <;> simp

theorem extN_signed {n : Nat} (hn : 0 < n) (x : W64) : extN n true x = (x.setWidth n).toInt := by
  have h2 : 2 ^ (n - 1) * 2 = 2 ^ n := Nat.two_pow_pred_mul_two hn
  have hcond : 2 * (x.toNat % 2 ^ n) < 2 ^ n ↔ ¬ 2 ^ (n - 1) ≤ x.toNat % 2 ^ n := by omega
  simp only [extN, BitVec.toInt_eq_toNat_cond, BitVec.toNat_setWidth, hcond, ite_not, Bool.true_and, decide_eq_true_eq]

theorem extN_unsigned (n : Nat) (x : W64) : extN n false x = (x.setWidth n).toNat := by
  simp [extN]

theorem wrapN_eq_ofInt (n : Nat) (i : Int) : wrapN n i = (BitVec.ofInt n i).setWidth 64 := by
  apply BitVec.eq_of_toNat_eq
  simp [wrapN]

/-- Modulo 2^N a pattern reads as itself, whatever the signedness. -/
theorem ofInt_extN {n : Nat} (hn : 0 < n) (sg : Bool) (x : W64) : BitVec.ofInt n (extN n sg x) = x.setWidth n := by
  cases sg with
  | true => rw [extN_signed hn, BitVec.ofInt_toInt]
  | false => rw [extN_unsigned, BitVec.ofInt_natCast, BitVec.ofNat_toNat, BitVec.setWidth_eq]

theorem wrapN_add_extN {n : Nat} (hn : 0 < n) (sg : Bool) (a b : W64) :
    wrapN n (extN n sg a + extN n sg b) = (a.setWidth n + b.setWidth n).setWidth 64 := by
  rw [wrapN_eq_ofInt, BitVec.ofInt_add, ofInt_extN hn, ofInt_extN hn]

theorem wrapN_neg_extN {n : Nat} (hn : 0 < n) (sg : Bool) (a : W64) : wrapN n (-extN n sg a) = (-a.setWidth n).setWidth 64 := by
  rw [wrapN_eq_ofInt, BitVec.ofInt_neg, ofInt_extN hn]

theorem wrapN_sub_extN {n : Nat} (hn : 0 < n) (sg : Bool) (a b : W64) :
    wrapN n (extN n sg a - extN n sg b) = (a.setWidth n - b.setWidth n).setWidth 64 := by
  rw [wrapN_eq_ofInt, Int.sub_eq_add_neg, BitVec.ofInt_add, BitVec.ofInt_neg, ofInt_extN hn, ofInt_extN hn, BitVec.sub_eq_add_neg]

theorem wrapN_mul_extN {n : Nat} (hn : 0 < n) (sg : Bool) (a b : W64) :
    wrapN n (extN n sg a * extN n sg b) = (a.setWidth n * b.setWidth n).setWidth 64 := by
  rw [wrapN_eq_ofInt, BitVec.ofInt_mul, ofInt_extN hn, ofInt_extN hn]

theorem wrapN_natCast {n x : Nat} (hn : n ≤ 64) (hx : x < 2 ^ n) : (wrapN n x).toNat = x := by
  have h64 : x < 2 ^ 64 := hx.trans_le (Nat.pow_le_pow_right (by decide) hn)
  simp only [wrapN, BitVec.toNat_ofNat]
  rw [← Int.natCast_emod, Int.toNat_natCast, Nat.mod_eq_of_lt hx, Nat.mod_eq_of_lt h64]

/-- An unsigned saturated value is the value itself or the greatest one. -/
theorem satN_unsigned {n : Nat} (hn : n ≤ 64) (x : Nat) : (satN n false x).toNat = min x (2 ^ n - 1) := by
  have hpos : 0 < 2 ^ n := Nat.two_pow_pos n
  have hclamp : max (tyMin n false) (min (tyMax n false) (x : Int)) = (min x (2 ^ n - 1) : Nat) := by
    simp only [tyMin, tyMax, Bool.false_eq_true, if_false]
    omega
  rw [satN, hclamp, wrapN_natCast hn (by omega)]

/-- Settles O12: `BitVec.ofInt` turns exact arithmetic into that of words, and reads patterns back as themselves (`ofInt_extN`). -/
theorem wrapIsBitVecArithmetic : Obligations.WrapIsBitVecArithmetic := by
  unfold Obligations.WrapIsBitVecArithmetic
  intro sg a b
  refine ⟨?_, ?_, ?_, ?_, wrapN_add_extN (by decide) sg a b, wrapN_sub_extN (by decide) sg a b, wrapN_mul_extN (by decide) sg a b, ?_, ?_⟩
  · simp [wrapN_add_extN]
  · simp [wrapN_sub_extN]
  · simp [wrapN_mul_extN]
  · simp [wrapN_neg_extN]
  · rw [extN_unsigned, extN_unsigned, BitVec.setWidth_eq, BitVec.setWidth_eq, ← Int.natCast_add, satN_unsigned (by decide)]
  · rw [satN, wrapN_eq_ofInt, BitVec.setWidth_setWidth_of_le _ (by decide), BitVec.setWidth_eq, extN_signed (by decide),
      extN_signed (by decide)]
    rfl

/-! Shifts (R86). -/

section
variable {n ty : Nat} (hn : tyBits ty = n) (y : BitVec n)
include hn

theorem tyBits_pos : 0 < n := by
  rcases tyBits_eq ty with h | h <;> omega

theorem tyBits_le : n ≤ 64 := by
  rcases tyBits_eq ty with h | h <;> omega

/-- A word of N bits, zero-extended, has its own N bits. -/
theorem toNat_setWidth_mod : (y.setWidth 64).toNat % 2 ^ n = y.toNat := by
  rw [BitVec.toNat_setWidth_of_le (tyBits_le hn), Nat.mod_eq_of_lt y.isLt]

omit hn in
/-- A pattern of N bits whose number is that of a word of N bits is that word, zero-extended. -/
theorem ofNat_eq_setWidth {x : Nat} (h : x = y.toNat) : BitVec.ofNat 64 x = y.setWidth 64 := by
  rw [h, BitVec.ofNat_toNat]

theorem shiftOp_shl (k : Nat) : shiftOp 0 ty k (y.setWidth 64) = (y <<< k).setWidth 64 := by
  simp only [shiftOp, hn, toNat_setWidth_mod hn]
  split
  case isTrue hk => simp [BitVec.shiftLeft_eq_zero hk]
  case isFalse => exact ofNat_eq_setWidth _ (by rw [BitVec.toNat_shiftLeft, Nat.shiftLeft_eq])

theorem shiftOp_shr (k : Nat) : shiftOp 1 ty k (y.setWidth 64) = (y >>> k).setWidth 64 := by
  simp only [shiftOp, hn, toNat_setWidth_mod hn]
  split
  case isTrue hk => simp [BitVec.ushiftRight_eq_zero hk]
  case isFalse => exact ofNat_eq_setWidth _ (by rw [BitVec.toNat_ushiftRight, Nat.shiftRight_eq_div_pow])

omit hn in
/-- From N - 1 on, a shift that brings in the sign leaves nothing but the sign. -/
theorem sshiftRight_min (k : Nat) : y.sshiftRight (min k (n - 1)) = y.sshiftRight k := by
  rcases Nat.le_total k (n - 1) with h | h
  · rw [min_eq_left h]
  · rw [min_eq_right h]
    apply BitVec.eq_of_getLsbD_eq
    intro i hi
    simp only [BitVec.getLsbD_sshiftRight, BitVec.msb_eq_getLsbD_last]
    rcases Nat.eq_zero_or_pos i with rfl | hpos
    · by_cases hk : k = n - 1
      · rw [hk]
      · rw [if_pos (by omega), if_neg (by omega)]; rfl
    · rw [if_neg (by omega), if_neg (by omega)]

theorem shiftOp_sha (k : Nat) : shiftOp 2 ty k (y.setWidth 64) = (y.sshiftRight k).setWidth 64 := by
  rw [← sshiftRight_min, BitVec.sshiftRight, Int.shiftRight_eq_div_pow, ← wrapN_eq_ofInt]
  simp only [shiftOp, hn]
  rw [extN_signed (tyBits_pos hn), BitVec.setWidth_setWidth_of_le _ (tyBits_le hn), BitVec.setWidth_eq]

theorem shiftOp_rol (k : Nat) : shiftOp 3 ty k (y.setWidth 64) = (y.rotateLeft k).setWidth 64 := by
  have hr : k % n < n := Nat.mod_lt _ (tyBits_pos hn)
  have hpow : 2 ^ n = 2 ^ (n - k % n) * 2 ^ (k % n) := by rw [← Nat.pow_add, Nat.sub_add_cancel hr.le]
  have hlow : y.toNat / 2 ^ (n - k % n) < 2 ^ (k % n) := Nat.div_lt_of_lt_mul (hpow ▸ y.isLt)
  simp only [shiftOp, hn, toNat_setWidth_mod hn]
  refine ofNat_eq_setWidth _ ?_
  rw [BitVec.toNat_rotateLeft, Nat.shiftLeft_eq, Nat.shiftRight_eq_div_pow, hpow, Nat.mul_mod_mul_right, ← Nat.shiftLeft_eq,
    Nat.shiftLeft_add_eq_or_of_lt hlow]

end

end Sys2Proof.Machine
end

section
/-! PROOFS. Bit counts (05_integer_lane.md R87) and bit fields (R88), bit by bit. -/

namespace Sys2Proof.Machine

/-! Bit counts. -/

theorem popCount_eq (n x : Nat) : popCount n x = ((List.range n).filter fun i => x.testBit i).length := by
  induction n generalizing x with
  | zero => rfl
  | succ k ih =>
    have hhead : x % 2 = if x.testBit 0 then 1 else 0 := by
      rw [Nat.testBit_zero]
      rcases Nat.mod_two_eq_zero_or_one x with h | h <;> simp [h]
    have htail : ((List.range k).map Nat.succ).filter (fun i => x.testBit i)
        = ((List.range k).filter fun i => (x / 2).testBit i).map Nat.succ := by
      rw [List.filter_map]
      simp only [Function.comp_def, Nat.testBit_succ]
    rw [popCount, ih, List.range_succ_eq_map, List.filter_cons, htail, hhead]
    split <;> simp [Nat.add_comm]

theorem popCount_le (n x : Nat) : popCount n x ≤ n := by
  rw [popCount_eq]
  exact (List.length_filter_le _ _).trans_eq List.length_range

theorem trailing_le (n x : Nat) : trailing n x ≤ n := by
  induction n generalizing x with
  | zero => exact Nat.le_refl 0
  | succ k ih =>
    rw [trailing]
    have := ih (x / 2)
    split <;> omega

theorem testBit_of_lt_trailing {n x i : Nat} (h : i < trailing n x) : x.testBit i = false := by
  induction n generalizing x i with
  | zero => exact absurd h (Nat.not_lt_zero i)
  | succ k ih =>
    rw [trailing] at h
    split at h
    case isTrue => exact absurd h (Nat.not_lt_zero i)
    case isFalse hodd =>
      cases i with
      | zero => simpa [Nat.testBit_zero] using hodd
      | succ j => rw [Nat.testBit_succ]; exact ih (by omega)

theorem testBit_trailing {n x : Nat} (h : trailing n x < n) : x.testBit (trailing n x) = true := by
  induction n generalizing x with
  | zero => exact absurd h (Nat.not_lt_zero _)
  | succ k ih =>
    rw [trailing] at h ⊢
    split
    case isTrue hodd => simpa [Nat.testBit_zero] using hodd
    case isFalse hodd =>
      rw [if_neg hodd] at h
      rw [Nat.add_comm 1, Nat.testBit_succ]
      exact ih (by omega)

/-- The position below which no bit is set, and which is set unless it is n, is the number of trailing zeros. -/
theorem trailing_eq_of {n x t : Nat} (hle : t ≤ n) (hbelow : ∀ i < t, x.testBit i = false) (hset : t < n → x.testBit t = true) :
    trailing n x = t := by
  rcases Nat.lt_trichotomy (trailing n x) t with h | h | h
  · exact absurd (testBit_trailing (h.trans_le hle)) (by simp [hbelow _ h])
  · exact h
  · exact absurd (hset (h.trans_le (trailing_le n x))) (by simp [testBit_of_lt_trailing h])

theorem revBits_lt (n x : Nat) : revBits n x < 2 ^ n := by
  induction n generalizing x with
  | zero => exact Nat.one_pos
  | succ k ih =>
    have hlow := ih (x / 2)
    have hhead : x % 2 * 2 ^ k ≤ 1 * 2 ^ k := Nat.mul_le_mul_right _ (by omega)
    rw [revBits, Nat.pow_succ]
    omega

/-- Bit i of the low n bits reversed is bit n - 1 - i. -/
theorem testBit_revBits (n x i : Nat) : (revBits n x).testBit i = (decide (i < n) && x.testBit (n - 1 - i)) := by
  induction n generalizing x i with
  | zero => simp [revBits]
  | succ k ih =>
    rw [revBits, Nat.mul_comm, Nat.testBit_two_pow_mul_add _ (revBits_lt k _)]
    rcases Nat.lt_trichotomy i k with h | rfl | h
    · have hback : k + 1 - 1 - i = (k - 1 - i) + 1 := by omega
      rw [if_pos h, ih, hback, Nat.testBit_succ, decide_eq_true h, decide_eq_true (by omega)]
    · simp
    · have hone : (x % 2).testBit (i - k) = false :=
        Nat.testBit_lt_two_pow ((Nat.mod_lt x (by decide)).trans_le (Nat.pow_le_pow_right (n := 2) (i := 1) (by decide) (by omega)))
      rw [if_neg (by omega), hone, decide_eq_false (by omega), Bool.false_and]

/-- The zeros above the highest set bit. -/
theorem trailing_revBits {n x : Nat} (hx : x < 2 ^ n) : trailing n (revBits n x) = n - (if x = 0 then 0 else Nat.log2 x + 1) := by
  apply trailing_eq_of (Nat.sub_le ..)
  · intro i hi
    rw [testBit_revBits]
    by_cases h0 : x = 0
    · simp [h0]
    · rw [if_neg h0] at hi
      have habove : x < 2 ^ (n - 1 - i) :=
        Nat.lt_log2_self.trans_le (Nat.pow_le_pow_right (by decide) (by omega))
      rw [Nat.testBit_lt_two_pow habove, Bool.and_false]
  · intro hlt
    have h0 : x ≠ 0 := by
      rintro rfl
      exact absurd hlt (by simp)
    have hlog : x.log2 < n := (Nat.log2_lt h0).mpr hx
    rw [if_neg h0] at hlt ⊢
    rw [testBit_revBits, decide_eq_true hlt, show n - 1 - (n - (x.log2 + 1)) = x.log2 by omega, Nat.testBit_log2 h0, Bool.true_and]

/-- A count of at most 64 as a word. -/
theorem toNat_ofNat_count {c n : Nat} (hc : c ≤ n) (hn : n ≤ 64) : (BitVec.ofNat 64 c).toNat = c :=
  Nat.mod_eq_of_lt (by omega)

/-! What `bitOp` computes. -/

section
variable (ty : Nat) (a : W64)

theorem bitOp_popc : (bitOp 0 ty a).toNat = ((List.range (tyBits ty)).filter fun i => (a.toNat % 2 ^ tyBits ty).testBit i).length := by
  rw [← popCount_eq]
  exact toNat_ofNat_count (popCount_le ..) (tyBits_le rfl)

theorem bitOp_clz : (bitOp 1 ty a).toNat =
    tyBits ty - (if a.toNat % 2 ^ tyBits ty = 0 then 0 else Nat.log2 (a.toNat % 2 ^ tyBits ty) + 1) := by
  rw [← trailing_revBits (Nat.mod_lt _ (Nat.two_pow_pos _))]
  exact toNat_ofNat_count (trailing_le ..) (tyBits_le rfl)

theorem bitOp_ctz : (bitOp 2 ty a).toNat = trailing (tyBits ty) (a.toNat % 2 ^ tyBits ty) :=
  toNat_ofNat_count (trailing_le ..) (tyBits_le rfl)

theorem bitOp_brev (i : Nat) : (bitOp 3 ty a).getLsbD i = (decide (i < tyBits ty) && a.getLsbD (tyBits ty - 1 - i)) := by
  have hle : tyBits ty ≤ 64 := tyBits_le rfl
  have hrev : bitOp 3 ty a = BitVec.ofNat 64 (revBits (tyBits ty) (a.toNat % 2 ^ tyBits ty)) := rfl
  rw [hrev, BitVec.getLsbD_ofNat, testBit_revBits, Nat.testBit_mod_two_pow, BitVec.testBit_toNat]
  by_cases h : i < tyBits ty
  · rw [decide_eq_true h, decide_eq_true (by omega), decide_eq_true (by omega)]
    simp
  · simp [h]

end

/-! Bit fields. -/

/-- A pattern of m bits read as an integer and taken modulo 2^w: its own bits, and from m on the sign of a signed one. -/
theorem getLsbD_ofInt_extN {m : Nat} (hm : 0 < m) (w : Nat) (sg : Bool) (x : W64) (i : Nat) :
    (BitVec.ofInt w (extN m sg x)).getLsbD i = (decide (i < w) && if i < m then x.getLsbD i else sg && x.getLsbD (m - 1)) := by
  cases sg with
  | true =>
    rw [extN_signed hm, ← BitVec.signExtend, BitVec.getLsbD_signExtend, BitVec.msb_eq_getLsbD_last, BitVec.getLsbD_setWidth,
      BitVec.getLsbD_setWidth, decide_eq_true (show m - 1 < m by omega)]
    by_cases h : i < m <;> simp [h]
  | false =>
    rw [extN_unsigned, BitVec.ofInt_natCast, BitVec.getLsbD_ofNat, BitVec.testBit_toNat, BitVec.getLsbD_setWidth]
    by_cases h : i < m <;> simp [h]

theorem getLsbD_wrapN_extN {m n : Nat} (hm : 0 < m) (hn : n ≤ 64) (sg : Bool) (x : W64) {i : Nat} (hi : i < n) :
    (wrapN n (extN m sg x)).getLsbD i = if i < m then x.getLsbD i else sg && x.getLsbD (m - 1) := by
  rw [wrapN_eq_ofInt, BitVec.getLsbD_setWidth, getLsbD_ofInt_extN hm, decide_eq_true hi, decide_eq_true (by omega : i < 64)]
  simp

/-- Bits pos to pos + len - 1 of an integer, as a number: those of any 2^w residue of it that is wide enough. -/
theorem ediv_emod_two_pow (z : Int) {pos len w : Nat} (hw : pos + len ≤ w) :
    z / (2 ^ pos : Nat) % (2 ^ len : Nat) = ((BitVec.ofInt w z).toNat / 2 ^ pos % 2 ^ len : Nat) := by
  obtain ⟨k, rfl⟩ := Nat.exists_eq_add_of_le hw
  have hsplit : z = (BitVec.ofInt (pos + len + k) z).toNat
      + (2 ^ pos : Nat) * ((2 ^ len : Nat) * ((2 ^ k : Nat) * (z / (2 ^ (pos + len + k) : Nat)))) := by
    have hpos : (0 : Int) < (2 ^ (pos + len + k) : Nat) := by exact_mod_cast Nat.two_pow_pos _
    rw [BitVec.toNat_ofInt, Int.toNat_of_nonneg (Int.emod_nonneg _ hpos.ne'), ← mul_assoc, ← mul_assoc, ← Int.natCast_mul, ← Int.natCast_mul,
      ← Nat.pow_add, ← Nat.pow_add]
    exact (Int.emod_add_mul_ediv z _).symm
  conv_lhs => rw [hsplit]
  rw [Int.add_mul_ediv_left _ _ (by exact_mod_cast (Nat.two_pow_pos pos).ne'), Int.add_mul_emod_self_left]
  push_cast
  rfl

theorem extN_ofNat {m x : Nat} (hx : x < 2 ^ m) (hm : m ≤ 64) (sg : Bool) :
    extN m sg (BitVec.ofNat 64 x) = if sg && (x : Int) ≥ (2 ^ (m - 1) : Nat) then (x : Int) - (2 ^ m : Nat) else x := by
  have h64 : x < 2 ^ 64 := hx.trans_le (Nat.pow_le_pow_right (by decide) hm)
  simp only [extN, BitVec.toNat_ofNat, Nat.mod_eq_of_lt h64, Nat.mod_eq_of_lt hx, ge_iff_le, Nat.cast_le]

/-- The position in a control operand (R88). -/
def ctlPos (ctl : W32) : Nat := ctl.toNat % 2 ^ 8
/-- len' of a control operand (R88). -/
def ctlLen (ty : Nat) (ctl : W32) : Nat := min (ctl.toNat / 2 ^ 8 % 2 ^ 8) (tyBits ty)

section
variable (ty : Nat) (a b : W64) (ctl : W32)

theorem ctlPos_lt : ctlPos ctl < 256 := Nat.mod_lt _ (by decide)

theorem ctlLen_le : ctlLen ty ctl ≤ 64 := (Nat.min_le_right ..).trans (tyBits_le rfl)

theorem nbits_ctl : nbits ctl.toNat 7 0 = ctlPos ctl ∧ min (nbits ctl.toNat 15 8) (tyBits ty) = ctlLen ty ctl := by
  rw [nbits_eq, nbits_eq, Nat.pow_zero, Nat.div_one]
  exact ⟨rfl, rfl⟩

/-- Bit i of a, for any i (R88): from N on the sign of a signed type and 0 of an unsigned one. -/
def bitAt (i : Nat) : Bool := if i < tyBits ty then a.getLsbD i else tySigned ty && a.getLsbD (tyBits ty - 1)

/-- The field that BFX extracts, as a number. -/
def bfxField : Nat := (BitVec.ofInt 320 (extN (tyBits ty) (tySigned ty) a)).toNat / 2 ^ ctlPos ctl % 2 ^ ctlLen ty ctl

theorem testBit_bfxField {i : Nat} (hi : i < ctlLen ty ctl) : (bfxField ty a ctl).testBit i = bitAt ty a (ctlPos ctl + i) := by
  have hpos := ctlPos_lt ctl
  have hlen := ctlLen_le ty ctl
  rw [bfxField, Nat.testBit_mod_two_pow, Nat.testBit_div_two_pow, BitVec.testBit_toNat, getLsbD_ofInt_extN (tyBits_pos rfl),
    decide_eq_true hi, decide_eq_true (by omega : i + ctlPos ctl < 320), Nat.add_comm i]
  rfl

/-- BFX reads its field as a pattern of len' bits (R88). -/
theorem bfxOp_eq : bfxOp ty a ctl = if ctlLen ty ctl = 0 then 0
    else wrapN (tyBits ty) (extN (ctlLen ty ctl) (tySigned ty) (BitVec.ofNat 64 (bfxField ty a ctl))) := by
  obtain ⟨hpos, hlen⟩ := nbits_ctl ty ctl
  have hwide : ctlPos ctl + ctlLen ty ctl ≤ 320 := by
    have := ctlPos_lt ctl
    have := ctlLen_le ty ctl
    omega
  have hlt : bfxField ty a ctl < 2 ^ ctlLen ty ctl := Nat.mod_lt _ (Nat.two_pow_pos _)
  simp only [bfxOp, hpos, hlen, beq_iff_eq, ediv_emod_two_pow _ hwide]
  rw [extN_ofNat hlt (ctlLen_le ty ctl)]
  rfl

theorem getLsbD_bfxOp {i : Nat} (hi : i < tyBits ty) : (bfxOp ty a ctl).getLsbD i =
    (decide (ctlLen ty ctl ≠ 0) && if i < ctlLen ty ctl then bitAt ty a (ctlPos ctl + i)
      else tySigned ty && bitAt ty a (ctlPos ctl + ctlLen ty ctl - 1)) := by
  have hle := ctlLen_le ty ctl
  have hfield : ∀ j < ctlLen ty ctl, (BitVec.ofNat 64 (bfxField ty a ctl)).getLsbD j = bitAt ty a (ctlPos ctl + j) := fun j hj => by
    rw [BitVec.getLsbD_ofNat, testBit_bfxField ty a ctl hj, decide_eq_true (by omega : j < 64), Bool.true_and]
  rw [bfxOp_eq]
  by_cases h0 : ctlLen ty ctl = 0
  · simp [h0]
  · rw [if_neg h0, getLsbD_wrapN_extN (Nat.pos_of_ne_zero h0) (tyBits_le rfl) _ _ hi, decide_eq_true h0, Bool.true_and,
      hfield (ctlLen ty ctl - 1) (by omega), ← Nat.add_sub_assoc (by omega)]
    split
    case isTrue hlt => rw [hfield i hlt]
    case isFalse => rfl

omit ty ctl b in
theorem getLsbD_lowN {n : Nat} (hn : n ≤ 64) {i : Nat} (hi : i < n) : (lowN n a).getLsbD i = a.getLsbD i := by
  rw [lowN, BitVec.getLsbD_ofNat, Nat.testBit_mod_two_pow, BitVec.testBit_toNat, decide_eq_true hi, decide_eq_true (by omega : i < 64)]
  rfl

theorem getLsbD_bfiOp {i : Nat} (hi : i < tyBits ty) : (bfiOp ty a b ctl).getLsbD i =
    if ctlPos ctl ≤ i ∧ i < ctlPos ctl + ctlLen ty ctl then b.getLsbD (i - ctlPos ctl) else a.getLsbD i := by
  obtain ⟨hpos, hlen⟩ := nbits_ctl ty ctl
  have hle : tyBits ty ≤ 64 := tyBits_le rfl
  simp only [bfiOp, hpos, hlen]
  rw [getLsbD_lowN _ hle hi]
  simp only [BitVec.getLsbD_or, BitVec.getLsbD_and, BitVec.getLsbD_not, BitVec.getLsbD_ofNat, Nat.testBit_mod_two_pow, Nat.testBit_mul_two_pow,
    Nat.testBit_two_pow_sub_one, BitVec.testBit_toNat, decide_eq_true hi, decide_eq_true (by omega : i < 64), Bool.true_and]
  by_cases h : ctlPos ctl ≤ i
  · have hin : i - ctlPos ctl < ctlLen ty ctl ↔ i < ctlPos ctl + ctlLen ty ctl := by omega
    by_cases hend : i < ctlPos ctl + ctlLen ty ctl <;> simp [h, hin, hend]
  · simp [h]

end

/-- Settles O17: `getLsbD_bfxOp` and `getLsbD_bfiOp` give every bit. -/
theorem bitFields : Obligations.BitFields := by
  unfold Obligations.BitFields
  exact fun ty a b ctl _ => ⟨fun i hi => getLsbD_bfxOp ty a ctl hi, fun i hi => getLsbD_bfiOp ty a b ctl hi⟩

end Sys2Proof.Machine
end

section
/-! PROOFS. Class 0x1 (05_integer_lane.md R82 to R95): the value that each computation gives D, and with it the next state. -/

namespace Sys2Proof.Machine

/-- How an instruction whose computation gives D a value a lane is shown. -/
theorem performs_of_alu {i : Instr} {k : Kind} {f : Fields} {body : Env → Res} {wide : Env → Bool} {g : Env → Nat → W64}
    (hv : i.view = some (k, f)) (hx : ∀ s, exec i s = execIsa k f body s)
    (hb : ∀ v : Env, v.k = k → v.f = f → v.clear → body v = v.alu (wide v) (g v)) :
    Performs i Env.any fun v => v.result (wide v) (g v) :=
  performs_of hv hx fun v hk hf hc _ => (hb v hk hf hc).trans (v.alu_eq _ _)

theorem Env.aluP_eq (v : Env) (g : Nat → Bool) : v.aluP g = .ok (v.resultP g) := by
  unfold Env.aluP Env.resultP Env.uniform
  cases usesV v.k v.f <;> simp

/-! Arithmetic (R82 to R84). -/

theorem Env.binary_add (v : Env) : v.binary (addOp v.f.ty (v.f.sub == 1) false) = v.alu v.w fun l =>
    if v.f.sub = 1 then satN v.n v.sg (v.extA l + v.extB l) else wrapN v.n (v.extA l + v.extB l) := by
  simp only [Env.binary, addOp, beq_iff_eq]
  rfl

theorem Env.binary_sub (v : Env) : v.binary (addOp v.f.ty (v.f.sub == 1) true) = v.alu v.w fun l =>
    if v.f.sub = 1 then satN v.n v.sg (v.extA l - v.extB l) else wrapN v.n (v.extA l - v.extB l) := by
  simp only [Env.binary, addOp, beq_iff_eq]
  rfl

theorem extN_zero (n : Nat) (sg : Bool) : extN n sg 0 = 0 := by
  have h : ¬ 2 ^ (n - 1) ≤ 0 := Nat.not_le.mpr (Nat.two_pow_pos _)
  simp [extN, h]

/-- The product and its addend by SUB (R83). -/
theorem mulOp_eq (ty : Nat) (sub : Fin 8) (a b c : W64) :
    let n := tyBits ty
    let sg := tySigned ty
    mulOp ty sub.val a b c = if sub = 0 then wrapN n (extN n sg a * extN n sg b + extN n sg c)
      else if sub = 1 then wrapN n (extN n sg a * extN n sg b / 2 ^ n + extN n sg c)
      else wrapN 64 (extN n sg a * extN n sg b + extN 64 sg c) := by
  simp only [mulOp, Nat.cast_pow, Nat.cast_ofNat]
  by_cases h0 : sub = 0
  · rw [h0]; rfl
  · by_cases h1 : sub = 1
    · rw [h1]; rfl
    · rw [if_neg h0, if_neg h1]
      split
      case h_1 h => exact absurd (Fin.ext h) h0
      case h_2 h => exact absurd (Fin.ext h) h1
      case h_3 => rfl

theorem Env.multiply_imul (v : Env) : v.multiply false = v.alu (v.w || v.f.sub = 2) fun l =>
    if v.f.sub = 0 then wrapN v.n (v.extA l * v.extB l)
    else if v.f.sub = 1 then wrapN v.n (v.extA l * v.extB l / 2 ^ v.n) else wrapN 64 (v.extA l * v.extB l) := by
  simp only [Env.multiply, mulOp_eq, Bool.false_eq_true, if_false, extN_zero, Int.add_zero, beq_eq_decide]
  rfl

theorem Env.multiply_imad (v : Env) : v.multiply true = v.alu (v.w || v.f.sub = 2) fun l =>
    let c := v.rd (v.w || v.f.sub = 2) v.f.c l
    if v.f.sub = 0 then wrapN v.n (v.extA l * v.extB l + extN v.n v.sg c)
    else if v.f.sub = 1 then wrapN v.n (v.extA l * v.extB l / 2 ^ v.n + extN v.n v.sg c)
    else wrapN 64 (v.extA l * v.extB l + extN 64 v.sg c) := by
  simp only [Env.multiply, mulOp_eq, if_true, beq_eq_decide]
  rfl

/-- IABS and INEG are of a signed type (R84). -/
theorem Env.clear_signed {v : Env} (hc : v.clear) (hk : v.k = .iabs ∨ v.k = .ineg) : v.sg = true := by
  have h := encOk_extra (Env.clear_checks hc).1
  rcases hk with hk | hk <;> (rw [hk] at h; exact h)

theorem Env.unary_abs {v : Env} (h : v.sg = true) : v.unary (absOp v.f.ty (v.f.m.getLsbD 3)) = v.alu v.w fun l =>
    if v.f.m.getLsbD 3 then satN v.n true |v.extA l| else wrapN v.n |v.extA l| := by
  simp only [Env.unary, absOp, Int.natCast_natAbs, Env.extA, h]
  rfl

theorem Env.unary_neg {v : Env} (h : v.sg = true) : v.unary (negOp v.f.ty (v.f.m.getLsbD 3)) = v.alu v.w fun l =>
    if v.f.m.getLsbD 3 then satN v.n true (-v.extA l) else wrapN v.n (-v.extA l) := by
  simp only [Env.unary, negOp, Env.extA, h]
  rfl

/-- Settles O11: each instruction's computation is the stated one, and `ofInt_extN` makes the signedness of a wrapped sum immaterial. -/
theorem integerArithmetic : Obligations.IntegerArithmetic := by
  unfold Obligations.IntegerArithmetic
  intro f
  refine ⟨?iadd, ?isub, ?signedness, ?imul, ?imad, ?imin, ?imax, ?iabs, ?ineg⟩
  case iadd => exact performs_of_alu (k := .iadd) rfl (fun _ => rfl) fun v _ hf _ => hf ▸ v.binary_add
  case isub => exact performs_of_alu (k := .isub) rfl (fun _ => rfl) fun v _ hf _ => hf ▸ v.binary_sub
  case signedness =>
    intro n hn a b
    have hpos : 0 < n := by
      simp only [List.mem_cons, List.not_mem_nil, or_false] at hn
      omega
    simp only [wrapN_add_extN hpos, wrapN_sub_extN hpos, and_self]
  case imul => exact performs_of_alu (k := .imul) rfl (fun _ => rfl) fun v _ hf _ => hf ▸ v.multiply_imul
  case imad => exact performs_of_alu (k := .imad) rfl (fun _ => rfl) fun v _ hf _ => hf ▸ v.multiply_imad
  case imin => exact performs_of_alu (k := .imin) rfl (fun _ => rfl) fun v _ hf _ => by subst hf; rfl
  case imax => exact performs_of_alu (k := .imax) rfl (fun _ => rfl) fun v _ hf _ => by subst hf; rfl
  case iabs =>
    exact performs_of_alu (k := .iabs) rfl (fun _ => rfl) fun v hk hf hc => hf ▸ Env.unary_abs (Env.clear_signed hc (.inl hk))
  case ineg =>
    exact performs_of_alu (k := .ineg) rfl (fun _ => rfl) fun v hk hf hc => hf ▸ Env.unary_neg (Env.clear_signed hc (.inr hk))

/-- Settles O13: each computation is the stated one by definition. -/
theorem logicForms : Obligations.LogicForms := by
  unfold Obligations.LogicForms
  intro f
  refine ⟨?andL, ?orL, ?xorL, ?andn, ?orn, ?xnor⟩
  case andL => exact performs_of_alu (k := .andL) rfl (fun _ => rfl) fun v _ hf _ => by subst hf; rfl
  case orL => exact performs_of_alu (k := .orL) rfl (fun _ => rfl) fun v _ hf _ => by subst hf; rfl
  case xorL => exact performs_of_alu (k := .xorL) rfl (fun _ => rfl) fun v _ hf _ => by subst hf; rfl
  case andn => exact performs_of_alu (k := .andn) rfl (fun _ => rfl) fun v _ hf _ => by subst hf; rfl
  case orn => exact performs_of_alu (k := .orn) rfl (fun _ => rfl) fun v _ hf _ => by subst hf; rfl
  case xnor => exact performs_of_alu (k := .xnor) rfl (fun _ => rfl) fun v _ hf _ => by subst hf; rfl

/-! Shifts and bit counts (R86, R87). -/

theorem Env.shift_eq (v : Env) (op : Nat) : v.shift op = v.alu v.w fun l =>
    shiftOp op v.f.ty ((v.rdB v.w false l).toNat % 2 ^ 32) (v.patA l) := rfl

/-- Settles O14: the computations by definition, the shifts of words by `shiftOp_shl` and the lemmas beside it. -/
theorem shiftForms : Obligations.ShiftForms := by
  unfold Obligations.ShiftForms
  refine ⟨fun f => ⟨?shl, ?shr, ?sha, ?rol⟩, fun k x y sg => ?_⟩
  case shl => exact performs_of_alu (k := .shl) rfl (fun _ => rfl) fun v _ hf _ => hf ▸ v.shift_eq 0
  case shr => exact performs_of_alu (k := .shr) rfl (fun _ => rfl) fun v _ hf _ => hf ▸ v.shift_eq 1
  case sha => exact performs_of_alu (k := .sha) rfl (fun _ => rfl) fun v _ hf _ => hf ▸ v.shift_eq 2
  case rol => exact performs_of_alu (k := .rol) rfl (fun _ => rfl) fun v _ hf _ => hf ▸ v.shift_eq 3
  have h64 : tyBits (if sg then 3 else 2) = 64 := by cases sg <;> rfl
  have h32 : tyBits (if sg then 1 else 0) = 32 := by cases sg <;> rfl
  refine ⟨?_, ?_, ?_, ?_, shiftOp_shl h32 y k, shiftOp_shr h32 y k, shiftOp_sha h32 y k, shiftOp_rol h32 y k⟩
  · simpa using shiftOp_shl h64 x k
  · simpa using shiftOp_shr h64 x k
  · simpa using shiftOp_sha h64 x k
  · simpa using shiftOp_rol h64 x k

/-- Settles O15: the computations by definition, the counts by `bitOp_popc` and the lemmas beside it. -/
theorem bitCounts : Obligations.BitCounts := by
  unfold Obligations.BitCounts
  refine ⟨fun f => ⟨?popc, ?clz, ?ctz, ?brev⟩, fun ty a => ⟨bitOp_popc ty a, bitOp_clz ty a, ?zeros, ?reverse, ?above⟩⟩
  case popc => exact performs_of_alu (k := .popc) rfl (fun _ => rfl) fun v _ hf _ => by subst hf; rfl
  case clz => exact performs_of_alu (k := .clz) rfl (fun _ => rfl) fun v _ hf _ => by subst hf; rfl
  case ctz => exact performs_of_alu (k := .ctz) rfl (fun _ => rfl) fun v _ hf _ => by subst hf; rfl
  case brev => exact performs_of_alu (k := .brev) rfl (fun _ => rfl) fun v _ hf _ => by subst hf; rfl
  case zeros =>
    rw [bitOp_ctz]
    exact ⟨trailing_le .., fun i => testBit_of_lt_trailing, testBit_trailing⟩
  case reverse => exact fun i hi => by rw [bitOp_brev, decide_eq_true hi, Bool.true_and]
  case above => exact fun i hi => by rw [bitOp_brev, decide_eq_false (by omega), Bool.false_and]

/-! Comparison, selection and moves (R89 to R92). -/

/-- The conditions of ICMP on the integers that A and B are (R89). -/
theorem Env.icmp_eq (v : Env) (cc l : Nat) : icmp cc v.f.ty (v.patA l) (v.patB l) = match cc with
    | 0 => decide (v.extA l = v.extB l)
    | 1 => decide (v.extA l ≠ v.extB l)
    | 2 => decide (v.extA l < v.extB l)
    | 3 => decide (v.extA l ≤ v.extB l)
    | 4 => decide (v.extB l < v.extA l)
    | _ => decide (v.extB l ≤ v.extA l) := by
  simp only [icmp, bne, beq_eq_decide, decide_not]
  rfl

theorem Env.compare_eq (v : Env) : v.compare = .ok (
    let g := fun l => match v.f.sub.val with
      | 0 => decide (v.extA l = v.extB l)
      | 1 => decide (v.extA l ≠ v.extB l)
      | 2 => decide (v.extA l < v.extB l)
      | 3 => decide (v.extA l ≤ v.extB l)
      | 4 => decide (v.extB l < v.extA l)
      | _ => decide (v.extB l ≤ v.extA l)
    if v.f.m.getLsbD 3 then v.resultP g else v.result v.w fun l => if g l then 1 else 0) := by
  have hicmp := fun l => v.icmp_eq v.f.sub.val l
  unfold Env.compare
  split
  case isTrue hp => exact (v.aluP_eq _).trans (by simp only [if_pos hp, ← hicmp]; rfl)
  case isFalse hp => exact (v.alu_eq _ _).trans (by simp only [if_neg hp, ← hicmp]; rfl)

theorem Env.select_eq (v : Env) : v.select = v.alu v.w fun l =>
    if v.c.rdP v.f.c.byte l ^^ v.f.m.getLsbD 3 then v.patA l else v.patB l := by
  simp only [Env.select, Bool.bne_eq_xor]
  rfl

/-- MOV.I32 is of a format that holds IMM32 (R81). -/
theorem Env.clear_imm {v : Env} (hc : v.clear) (hk : v.k = .movI32) : v.isImm = true := by
  have h := encOk_fmt (Env.clear_checks hc).1
  rw [hk] at h
  exact beq_iff_eq.mpr (List.mem_singleton.mp h)

/-- MOV.I32 extends to 64 bits for N = 64 and for a 64-bit destination (R91). -/
theorem Env.movWide_eq (v : Env) : movWide v.f = (v.w || v.f.d.isS || (match v.f.d with | .e _ => true | _ => false)) := by
  rw [movWide, Bool.or_assoc]
  cases v.f.d <;> rfl

theorem Env.rdB_imm {v : Env} (h : v.isImm = true) (wide sg : Bool) (l : Nat) :
    v.rdB wide sg l = if wide && sg then v.imm.signExtend 64 else v.imm.setWidth 64 := by
  rw [Env.rdB, if_pos h]

/-- MOVS gives a v destination its special lane by lane, and so an e destination where lanes differ in it; any other once (R92). -/
theorem Env.movs_eq (v : Env) : v.movs = .ok (
    let code := nbits v.f.m.toNat 5 0
    let g := fun l => BitVec.ofNat 64 (v.special code l)
    if v.f.d.isS then v.onceOut (v.putOnce (code == 0x10) [] (g v.low))
    else if v.f.d.isV || code = 0x00 || code = 0x01 || code = 0x11 then v.put (code == 0x10) v.parts g
    else v.onceOut (v.putOnce (code == 0x10) [] (g v.low))) := by
  rw [Env.movs]
  cases hd : v.f.d with
  | v n => rfl
  | s n => rfl
  | e n => simp only [Env.onceOut, perLane, beq_eq_decide]; rfl
  | reserved n => simp [Env.put, Env.putOnce, Env.onceOut, Reg.isS, hd]
  | zero => simp [Env.put, Env.putOnce, Env.onceOut, Reg.isS, hd]

theorem bitOf_eq_toNat (b : Bool) : bitOf b = b.toNat := by
  cases b <;> rfl

/-- Settles O16: the equation of each computation. -/
theorem fieldsComparesMoves : Obligations.FieldsComparesMoves := by
  unfold Obligations.FieldsComparesMoves
  intro f
  refine ⟨?bfx, ?bfi, ?icmp, ?sel, ?mov, ?movI32, fun x hx => ?movI64, ?movs, ?lea, ?plop⟩
  case bfx => exact performs_of_alu (k := .bfx) rfl (fun _ => rfl) fun v _ hf _ => by subst hf; rfl
  case bfi => exact performs_of_alu (k := .bfi) rfl (fun _ => rfl) fun v _ hf _ => by subst hf; rfl
  case icmp => exact performs_of (k := .icmp) rfl (fun _ => rfl) fun v _ hf _ _ => hf ▸ v.compare_eq
  case sel => exact performs_of_alu (k := .sel) rfl (fun _ => rfl) fun v _ hf _ => hf ▸ v.select_eq
  case mov => exact performs_of_alu (k := .mov) rfl (fun _ => rfl) fun v _ hf _ => by subst hf; rfl
  case movI32 =>
    refine performs_of_alu (k := .movI32) rfl (fun _ => rfl) fun v hk hf hc => ?_
    subst hf
    simp only [Env.rdB_imm (Env.clear_imm hc hk), Env.movWide_eq]
    rfl
  case movI64 =>
    exact performs_of_alu (k := .movI64) rfl (fun _ => rfl) fun v _ _ _ => by rw [hx]
  case movs => exact performs_of (k := .movs) rfl (fun _ => rfl) fun v _ hf _ _ => hf ▸ v.movs_eq
  case lea => exact performs_of_alu (k := .lea) rfl (fun _ => rfl) fun v _ hf _ => by subst hf; rfl
  case plop =>
    refine performs_of (k := .plop) rfl (fun _ => rfl) fun v _ hf _ _ => ?_
    subst hf
    simp only [Env.plop, bitOf_eq_toNat]

end Sys2Proof.Machine
end

section
/-! PROOFS. Class 0x2 (05_integer_lane.md R96 to R101): what the lane exchanges write, and with it the next state. -/

namespace Sys2Proof.Machine

/-- The A that a lane contributes (R94): its own, or, with no v register named, that of the lowest lane. -/
def Env.source (v : Env) (l : Nat) : W64 := v.patA (if usesV v.k v.f then l else v.low)

section
variable (v : Env)

theorem Env.part_eq (l : Nat) : v.part v.w l = v.source l := by
  rw [Env.part, Env.uniform, Env.source]
  cases usesV v.k v.f <;> rfl

/-- What a computation that some lane must take part in answers. -/
theorem Env.ok_someOut (o : Out) : (if v.parts.isEmpty then Res.ok Out.nil else Res.ok o) = .ok (v.someOut o) := by
  rw [Env.someOut]
  split <;> rfl

/-! Votes (R96). -/

/-- What VOTE tells: whether every participant says yes, some does, or all agree. -/
def Env.voteValue : Bool :=
  match v.f.sub.val with
  | 0 => v.parts.all fun l => v.c.rdP v.f.a.byte l
  | 1 => v.parts.any fun l => v.c.rdP v.f.a.byte l
  | _ => (v.parts.all fun l => v.c.rdP v.f.a.byte l) || v.parts.all fun l => !v.c.rdP v.f.a.byte l

/-- The participants that say yes. -/
def Env.ayes : List Nat := v.parts.filter fun l => v.c.rdP v.f.a.byte l

theorem Env.voteValue_iff : v.voteValue = true ↔
    if v.f.sub = 0 then v.ayes = v.parts else if v.f.sub = 1 then v.ayes ≠ [] else v.ayes = v.parts ∨ v.ayes = [] := by
  unfold Env.voteValue Env.ayes
  split
  case h_1 h =>
    rw [if_pos (show v.f.sub = 0 from Fin.ext h), List.filter_eq_self, List.all_eq_true]
  case h_2 h =>
    rw [show v.f.sub = 1 from Fin.ext h, if_neg (by decide), if_pos rfl]
    simp only [List.any_eq_true, ne_eq, List.filter_eq_nil_iff, not_forall, not_not, exists_prop]
  case h_3 h0 h1 =>
    rw [if_neg (show v.f.sub ≠ 0 from fun h => h0 (congrArg Fin.val h)), if_neg (show v.f.sub ≠ 1 from fun h => h1 (congrArg Fin.val h)),
      List.filter_eq_self, List.filter_eq_nil_iff]
    simp only [Bool.or_eq_true, List.all_eq_true, Bool.not_eq_true', Bool.not_eq_true]

theorem Env.vote_eq : v.vote = .ok (if v.f.m.getLsbD 3 then Out.regs (v.parts.map fun l => Held.p v.f.d.byte l v.voteValue)
    else v.putOnce false v.parts (if v.voteValue then 1 else 0)) := by
  by_cases hp : v.f.m.getLsbD 3 = true
  · rw [if_pos hp]
    exact if_pos hp
  · rw [if_neg hp]
    exact if_neg hp

/-! Shuffles (R97). -/

theorem shflLane_eq (sub : Fin 8) (seg l k : Nat) : shflLane sub.val seg l k =
    if sub = 0 then l - l % seg + k % seg else if sub = 1 then (if l < l - l % seg + k then l else l - k)
    else if sub = 2 then (if l - l % seg + seg ≤ l + k then l else l + k) else l ^^^ (k % seg) := by
  by_cases h0 : sub = 0
  · rw [h0]; rfl
  · by_cases h1 : sub = 1
    · rw [h1]; rfl
    · by_cases h2 : sub = 2
      · rw [h2]; rfl
      · rw [if_neg h0, if_neg h1, if_neg h2]
        unfold shflLane
        split
        case h_1 h => exact absurd (Fin.ext h) h0
        case h_2 h => exact absurd (Fin.ext h) h1
        case h_3 h => exact absurd (Fin.ext h) h2
        case h_4 => rfl

/-- The segment of a SHFL of a warp or of a producer slot (R97, log entry 83). -/
theorem Env.segment_warp {v : Env} (h : v.c.kind ≠ .seq) :
    v.segment = if nbits v.f.m.toNat 5 3 = 0 then v.c.width else 2 ^ nbits v.f.m.toNat 5 3 := by
  rw [Env.segment_eq, Env.wholeWidth_eq, if_neg h]

theorem Env.shfl_eq : v.shfl = .ok (v.put v.w v.parts fun l =>
    let j := shflLane v.f.sub.val v.segment l (if v.isImm then v.imm else v.rd32 v.f.b l).toNat
    v.source (if j ∈ v.parts then j else l)) := by
  simp only [← Env.part_eq, ← List.contains_iff_mem]
  rfl

/-- A SHFL runs in no sequencer context (R11). -/
theorem Env.clear_shfl {v : Env} (hc : v.clear) (hk : v.k = .shfl) : v.c.kind ≠ .seq := by
  obtain ⟨-, hcontext, -, -⟩ := Env.clear_checks hc
  intro hseq
  rw [hseq, hk, contextOk] at hcontext
  exact Bool.noConfusion hcontext

/-! Quads (R98). -/

theorem Env.quad_eq {partner : Nat → Nat} (h : ∀ l, v.partner l = partner l) : v.quad = .ok (v.put v.w v.parts fun l =>
    match v.f.a with
    | .e _ => if partner l ∈ v.parts then v.source (partner l) else 0
    | _ => v.source (partner l)) := by
  obtain rfl : v.partner = partner := funext h
  simp only [Env.quad, ← Env.part_eq, List.contains_iff_mem]
  rfl

theorem Env.partner_qswap {v : Env} (h : v.k = .qswap) (l : Nat) : v.partner l = l ^^^ (v.f.sub.val + 1) := by
  rw [Env.partner, h]; rfl

theorem Env.partner_qbc {v : Env} (h : v.k = .qbc) (l : Nat) : v.partner l = 4 * (l / 4) + nbits v.f.m.toNat 4 3 := by
  rw [Env.partner, h]; rfl

/-! Reductions, scans and matches (R99, R101). -/

/-- A reduction over lanes in their order. -/
def Env.folded (ls : List Nat) : W64 := ls.foldl (fun r l => redOp v.f.sub.val v.f.ty r (v.source l)) (redUnit v.f.sub.val v.f.ty)

theorem Env.redux_eq : v.redux = .ok (v.someOut (v.putOnce v.w v.parts (v.folded v.parts))) := by
  simp only [Env.folded, ← Env.part_eq]
  exact v.ok_someOut _

theorem Env.scan_eq : v.scan = .ok (v.put v.w v.parts fun l =>
    v.folded (v.parts.filter fun j => if v.f.m.getLsbD 3 then decide (j < l) else decide (j ≤ l))) := by
  simp only [Env.folded, ← Env.part_eq]
  rfl

/-- The participants whose A is that of a lane, as a mask. -/
def Env.matching (l : Nat) : W64 := maskOf (v.parts.filter fun j => v.source j == v.source l)

theorem Env.matchOp_eq : v.matchOp = .ok (if v.f.d.isV then v.put true v.parts v.matching
    else v.someOut (v.putOnce true v.parts (v.matching v.low))) := by
  unfold Env.matching
  simp only [← Env.part_eq]
  rw [Env.matchOp]
  cases v.f.d
  case v => rfl
  case s | e | reserved | zero => exact v.ok_someOut _

/-! Single lanes (R100). -/

theorem Env.rdlane_eq : v.rdlane = .ok (v.someOut (v.putOnce v.w v.parts (if v.laneOperand < v.c.width then
    (match v.f.a with | .e _ => if v.laneOperand ∈ v.r.lanes then v.source v.laneOperand else 0 | _ => v.source v.laneOperand) else 0))) := by
  simp only [← Env.part_eq, ← List.contains_iff_mem]
  exact v.ok_someOut _

theorem Env.wrlane_eq {v : Env} {n : Fin 160} (hd : v.f.d = .v n) : v.wrlane = .ok (v.onceOut (
    if v.laneOperand < v.c.width ∧ (v.c.lane v.laneOperand).st ≠ .exited then
      Out.regs (Held.v n.val v.laneOperand ((v.patA v.low).setWidth 32) ::
        if v.w then [Held.v (n.val + 1) v.laneOperand ((v.patA v.low >>> 32).setWidth 32)] else [])
    else Out.nil)) := by
  simp only [Env.wrlane, hd, Env.onceOut]
  cases v.lowG
  case false => rfl
  case true =>
    simp only [Bool.true_and, Bool.and_eq_true, decide_eq_true_eq, bne_iff_ne, if_true]
    split <;> rfl

end

/-- Settles O18: the equation of each computation, on what lanes contribute (`source`). -/
theorem laneExchanges : Obligations.LaneExchanges := by
  unfold Obligations.LaneExchanges
  intro f
  dsimp only
  refine ⟨?ballot, ?vote, ⟨?shfl, ?narrow⟩, ⟨?qswap, ?qbc⟩, ⟨?redux, ?scan, ?matchL⟩, ?rdlane, fun n hn => ?wrlane⟩
  case ballot => exact performs_of (k := .ballot) rfl (fun _ => rfl) fun v _ hf _ _ => by subst hf; rfl
  case vote =>
    refine performs_of (k := .vote) rfl (fun _ => rfl) fun v _ hf _ _ => ?_
    subst hf
    have hvalue := v.voteValue_iff
    simp only [Env.ayes] at hvalue
    simp only [← hvalue, Bool.decide_eq_true]
    exact v.vote_eq
  case shfl =>
    refine performs_of (k := .shfl) rfl (fun _ => rfl) fun v hk hf hc _ => ?_
    subst hf
    have hseg := Env.segment_warp (Env.clear_shfl hc hk)
    simp only [← hseg, ← shflLane_eq]
    exact v.shfl_eq
  case narrow =>
    intro s v hv hseq _ hw
    obtain ⟨hk, rfl⟩ : Kind.shfl = v.k ∧ f = v.f := by simpa [Instr.view] using (s.envOf_eq hv).1
    have hnarrow : v.wholeWidth < v.segment := by rwa [Env.segment_warp hseq, Env.wholeWidth_eq, if_neg hseq]
    exact exec_of_checkFails hv (Env.checkFails_placement (.inr ⟨hk.symm, hnarrow⟩))
  case qswap =>
    exact performs_of (k := .qswap) rfl (fun _ => rfl) fun v hk hf _ _ => by subst hf; exact v.quad_eq (Env.partner_qswap hk)
  case qbc =>
    exact performs_of (k := .qbc) rfl (fun _ => rfl) fun v hk hf _ _ => by subst hf; exact v.quad_eq (Env.partner_qbc hk)
  case redux => exact performs_of (k := .redux) rfl (fun _ => rfl) fun v _ hf _ _ => by subst hf; exact v.redux_eq
  case scan => exact performs_of (k := .scan) rfl (fun _ => rfl) fun v _ hf _ _ => by subst hf; exact v.scan_eq
  case matchL => exact performs_of (k := .matchL) rfl (fun _ => rfl) fun v _ hf _ _ => by subst hf; exact v.matchOp_eq
  case rdlane => exact performs_of (k := .rdlane) rfl (fun _ => rfl) fun v _ hf _ _ => by subst hf; exact v.rdlane_eq
  case wrlane => exact performs_of (k := .wrlane) rfl (fun _ => rfl) fun v _ hf _ _ => by subst hf; exact Env.wrlane_eq hn

end Sys2Proof.Machine
end

section
/-! PROOFS. Classes 0x3 and 0x4 (06_float.md R113 to R126): the value that each computation gives D, and with it the next state. -/

namespace Sys2Proof.Machine

/-- How an instruction whose computation is a format operation is shown. -/
theorem performs_of_float {i : Instr} {k : Kind} {f : Fields} {body : Env → Res} (g : Nat → Nat → Nat → Nat)
    (hv : i.view = some (k, f)) (hx : ∀ s, exec i s = execIsa k f body s) (hb : ∀ v : Env, v.f = f → body v = v.float g) :
    Performs i Env.any fun v => v.result false fun l => BitVec.ofNat 64
      (g (v.rd32 f.a l).toNat (if v.isImm then v.imm else v.rd32 f.b l).toNat (v.rd32 f.c l).toNat) :=
  performs_of_alu hv hx fun v _ hf _ => (hb v hf).trans (by subst hf; rfl)

/-- FCMP's result goes to a predicate or is an integer (R115). -/
theorem Env.fCompare_eq (v : Env) : v.fCompare = .ok (
    let g := fun l => fcmp v.f.sub.val v.f.ft (v.rd32 v.f.a l).toNat (if v.isImm then v.imm else v.rd32 v.f.b l).toNat
    if v.f.m.getLsbD 5 then v.resultP g else v.result false fun l => if g l then 1 else 0) := by
  unfold Env.fCompare
  split
  case isTrue hp => exact v.aluP_eq _
  case isFalse hp => exact v.alu_eq _ _

/-- Settles O19: each computation is the stated operation on the containers. -/
theorem floatInstructions : Obligations.FloatInstructions := by
  unfold Obligations.FloatInstructions
  intro f
  refine ⟨?arith, ?minMax, ?fcmp, ?fclass, ?frnd, ?fdot2, ?fcvt, ?f2i, ?i2f, ?fpack, ?funpk, ?fscl, ?frcp, ?fsqrt⟩
  case arith =>
    simp only [List.forall_mem_cons, List.not_mem_nil, false_imp_iff, implies_true, and_true]
    refine ⟨?fadd, ?fsub, ?fmul, ?ffma⟩
    case fadd => exact performs_of_float (k := .fadd) (lanewise f.ft (farith 0 f.rm)) rfl (fun _ => rfl) fun v hf => by subst hf; rfl
    case fsub => exact performs_of_float (k := .fsub) (lanewise f.ft (farith 1 f.rm)) rfl (fun _ => rfl) fun v hf => by subst hf; rfl
    case fmul => exact performs_of_float (k := .fmul) (lanewise f.ft (farith 2 f.rm)) rfl (fun _ => rfl) fun v hf => by subst hf; rfl
    case ffma => exact performs_of_float (k := .ffma) (lanewise f.ft (farith 3 f.rm)) rfl (fun _ => rfl) fun v hf => by subst hf; rfl
  case minMax =>
    simp only [List.forall_mem_cons, List.not_mem_nil, false_imp_iff, implies_true, and_true]
    refine ⟨?fmin, ?fmax⟩
    case fmin =>
      exact performs_of_float (k := .fmin) (lanewise f.ft fun ct x y _ => fminmax false (f.sub.val == 1) ct x y) rfl
        (fun _ => rfl) fun v hf => by subst hf; rfl
    case fmax =>
      exact performs_of_float (k := .fmax) (lanewise f.ft fun ct x y _ => fminmax true (f.sub.val == 1) ct x y) rfl
        (fun _ => rfl) fun v hf => by subst hf; rfl
  case fcmp => exact performs_of (k := .fcmp) rfl (fun _ => rfl) fun v _ hf _ _ => hf ▸ v.fCompare_eq
  case fclass => exact performs_of_float (k := .fclass) (fun a _ _ => fclass f.ft a) rfl (fun _ => rfl) fun v hf => by subst hf; rfl
  case frnd => exact performs_of_float (k := .frnd) (fun a _ _ => frnd f.rm f.ft a) rfl (fun _ => rfl) fun v hf => by subst hf; rfl
  case fdot2 =>
    exact performs_of_float (k := .fdot2) (fun a b c => fdot2 f.rm (ftCt f.ft) a b c) rfl
      (fun _ => rfl) fun v hf => by subst hf; rfl
  case fcvt => exact performs_of_float (k := .fcvt) (fun a _ _ => fcvt f.rm f.ft f.hiTy a) rfl (fun _ => rfl) fun v hf => by subst hf; rfl
  case f2i => exact performs_of_alu (k := .f2i) rfl (fun _ => rfl) fun v _ hf _ => by subst hf; rfl
  case i2f => exact performs_of_alu (k := .i2f) rfl (fun _ => rfl) fun v _ hf _ => by subst hf; rfl
  case fpack =>
    exact performs_of_float (k := .fpack) (fun a b c => fpack f.rm f.ft (f.m.getLsbD 5) a b c) rfl
      (fun _ => rfl) fun v hf => by subst hf; rfl
  case funpk =>
    exact performs_of_float (k := .funpk) (fun a _ _ => funpk f.ft (nbits f.m.toNat 6 5) a) rfl
      (fun _ => rfl) fun v hf => by subst hf; rfl
  case fscl =>
    exact performs_of_float (k := .fscl) (fun a b _ => fscl (f.m.getLsbD 7) f.rm f.ft a (BitVec.ofNat 32 b)) rfl
      (fun _ => rfl) fun v hf => by subst hf; rfl
  case frcp => exact performs_of_float (k := .frcp) (fun a _ _ => frcp f.rm f.ft a) rfl (fun _ => rfl) fun v hf => by subst hf; rfl
  case fsqrt => exact performs_of_float (k := .fsqrt) (fun a _ _ => fsqrt f.rm f.ft a) rfl (fun _ => rfl) fun v hf => by subst hf; rfl

end Sys2Proof.Machine
end

section
/-! PROOFS. The values of patterns (06_float.md R103): a finite pattern of a format is a multiple of the format's least positive
value, and these multiples grow with the pattern. -/

namespace Sys2Proof.Machine

/-- The value of a decoded number in a field; 0 for an infinity and a NaN. -/
def FVal.val (K : Type) [DivisionRing K] (v : FVal) : K :=
  match v with
  | .fin n m e => (if n then -1 else 1) * (m : K) * (2 : K) ^ e
  | _ => 0

/-- Whether a decoded value is a finite number. -/
def FVal.isFin (v : FVal) : Prop := match v with | .fin _ _ _ => True | _ => False

/-- The significand of a magnitude pattern. -/
def Fmt.sig (f : Fmt) (p : Nat) : Nat := if p < 2 ^ f.fbits then p else p % 2 ^ f.fbits + 2 ^ f.fbits

/-- The exponent of a format's least positive value. -/
def Fmt.unitExp (f : Fmt) : Int := 1 - (f.bias : Int) - f.fbits

/-- The exponent of a magnitude pattern's significand. -/
def Fmt.expo (f : Fmt) (p : Nat) : Int := f.unitExp + (p / 2 ^ f.fbits - 1 : Nat)

/-- A magnitude pattern as a multiple of the format's least positive value, also of patterns past the largest finite one. -/
def Fmt.units (f : Fmt) (p : Nat) : Nat := f.sig p * 2 ^ (p / 2 ^ f.fbits - 1)

/-- The value of a magnitude pattern. -/
noncomputable def Fmt.mval (f : Fmt) (p : Nat) : ℝ := f.units p * (2 : ℝ) ^ f.unitExp

section
variable (f : Fmt)

/-- A significand of one bit more than the fraction at the j-th binade: subnormals and the first binade share j = 0, and twice the
hidden bit is the first pattern of the next one. -/
theorem Fmt.units_add {n j : Nat} (hn : n ≤ 2 * 2 ^ f.fbits) (hj : j = 0 ∨ 2 ^ f.fbits ≤ n) :
    f.units (n + j * 2 ^ f.fbits) = n * 2 ^ j := by
  have hpos : 0 < 2 ^ f.fbits := Nat.two_pow_pos _
  unfold Fmt.units Fmt.sig
  generalize 2 ^ f.fbits = F at *
  rcases Nat.lt_trichotomy n F with hlt | rfl | hgt
  · obtain rfl : j = 0 := by omega
    simp [hlt, Nat.div_eq_of_lt hlt]
  · simp [Nat.add_mul_div_right _ _ hpos, Nat.div_self hpos]
  · rcases Nat.lt_or_eq_of_le hn with hlt2 | rfl
    · have hdiv : n / F = 1 := by
        rw [Nat.div_eq_iff hpos]; omega
      have hmod : n % F = n - F := by
        rw [Nat.mod_eq_sub_mod hgt.le, Nat.mod_eq_of_lt (by omega)]
      simp [Nat.add_mul_div_right _ _ hpos, hdiv, hmod, Nat.not_lt.mpr (Nat.le_add_right_of_le hgt.le), Nat.sub_add_cancel hgt.le]
    · have h2 : 2 * F + j * F = (2 + j) * F := by ring
      have hnlt : ¬ (2 + j) * F < F := by nlinarith
      rw [h2, if_neg hnlt]
      simp only [Nat.mul_mod_left, Nat.mul_div_cancel _ hpos, Nat.zero_add]
      rw [show 2 + j - 1 = j + 1 by omega, Nat.pow_succ]
      ring

/-- Every magnitude pattern is a significand at a binade. -/
theorem Fmt.exists_binade (p : Nat) : ∃ n j, p = n + j * 2 ^ f.fbits ∧ n < 2 * 2 ^ f.fbits ∧ (j = 0 ∨ 2 ^ f.fbits ≤ n) := by
  have hpos : 0 < 2 ^ f.fbits := Nat.two_pow_pos _
  have hdm := Nat.div_add_mod p (2 ^ f.fbits)
  have hmod := Nat.mod_lt p hpos
  refine ⟨p - (p / 2 ^ f.fbits - 1) * 2 ^ f.fbits, p / 2 ^ f.fbits - 1, ?_⟩
  rw [Nat.mul_comm] at hdm
  generalize p / 2 ^ f.fbits = q at *
  rcases q with _ | q
  · simp at hdm ⊢; omega
  · simp only [Nat.add_sub_cancel, Nat.succ_mul] at hdm ⊢
    omega

theorem Fmt.units_lt_succ (p : Nat) : f.units p < f.units (p + 1) := by
  obtain ⟨n, j, rfl, hn, hj⟩ := f.exists_binade p
  rw [show n + j * 2 ^ f.fbits + 1 = n + 1 + j * 2 ^ f.fbits by omega, f.units_add hn.le hj, f.units_add (by omega) (by omega)]
  exact Nat.mul_lt_mul_of_pos_right (Nat.lt_succ_self n) (Nat.two_pow_pos j)

theorem Fmt.mval_strictMono : StrictMono f.mval := by
  have hunits : StrictMono f.units := strictMono_nat_of_lt_succ f.units_lt_succ
  intro p q h
  exact mul_lt_mul_of_pos_right (by exact_mod_cast hunits h) (by positivity)

theorem Fmt.mval_le_iff {p q : Nat} : f.mval p ≤ f.mval q ↔ p ≤ q := f.mval_strictMono.le_iff_le
theorem Fmt.mval_lt_iff {p q : Nat} : f.mval p < f.mval q ↔ p < q := f.mval_strictMono.lt_iff_lt

@[simp] theorem Fmt.mval_zero : f.mval 0 = 0 := by
  simp [Fmt.mval, Fmt.units, Fmt.sig]

theorem Fmt.mval_nonneg (p : Nat) : 0 ≤ f.mval p := by
  unfold Fmt.mval; positivity

theorem Fmt.mval_add {n j : Nat} (hn : n ≤ 2 * 2 ^ f.fbits) (hj : j = 0 ∨ 2 ^ f.fbits ≤ n) :
    f.mval (n + j * 2 ^ f.fbits) = n * (2 : ℝ) ^ (f.unitExp + j) := by
  rw [Fmt.mval, f.units_add hn hj, zpow_add₀ two_ne_zero, zpow_natCast]
  push_cast
  ring

theorem Fmt.mval_eq (p : Nat) : f.mval p = f.sig p * (2 : ℝ) ^ f.expo p := by
  rw [Fmt.mval, Fmt.units, Fmt.expo, zpow_add₀ two_ne_zero, zpow_natCast]
  push_cast
  ring

end

/-! Decoding. -/

/-- What every format of Table 6.1 meets. -/
structure Fmt.Sound (f : Fmt) : Prop where
  fbits_pos : 0 < f.fbits
  fbits_le : f.fbits ≤ 23
  unitExp_ge : -149 ≤ f.unitExp
  unitExp_nonpos : f.unitExp ≤ 0
  expo_maxFin : f.expo f.maxFin ≤ 120
  expo_maxFin_nonneg : 0 ≤ f.expo f.maxFin
  sig_maxFin : 2 ^ f.fbits ≤ f.sig f.maxFin
  maxFin_lt : f.maxFin < 2 ^ f.mag
  inf_eq : f.hasInf = true → f.maxFin + 1 = (2 ^ f.ebits - 1) * 2 ^ f.fbits
  nan_gt : f.maxFin < f.nan
  nan_lt : f.nan < 2 ^ f.mag
  nan_frac : f.hasInf = true → f.nan % 2 ^ f.fbits ≠ 0

theorem fmtOf_sound (ct : Nat) : (fmtOf ct).Sound := by
  unfold fmtOf
  split <;> constructor <;> decide

theorem Fmt.decode_eq (f : Fmt) (x : Nat) : f.decode x =
    if x % 2 ^ f.mag ≤ f.maxFin then .fin (x.testBit f.mag) (f.sig (x % 2 ^ f.mag)) (f.expo (x % 2 ^ f.mag))
    else if f.hasInf = true ∧ x % 2 ^ f.mag % 2 ^ f.fbits = 0 then .inf (x.testBit f.mag) else .nan := by
  have hpos : 0 < 2 ^ f.fbits := Nat.two_pow_pos _
  unfold Fmt.decode Fmt.sig Fmt.expo Fmt.unitExp
  generalize x % 2 ^ f.mag = a
  by_cases ha : a ≤ f.maxFin
  · rw [if_pos ha]
    simp only [Nat.not_lt.mpr ha, if_false, Nat.shiftRight_eq_div_pow, beq_iff_eq, Nat.div_eq_zero_iff_lt hpos]
    split
    case isTrue hlt => simp [Nat.mod_eq_of_lt hlt, Nat.div_eq_of_lt hlt]
    case isFalse hlt =>
      have h1 : 1 ≤ a / 2 ^ f.fbits := (Nat.one_le_div_iff hpos).mpr (Nat.not_lt.mp hlt)
      congr 1
      omega
  · simp [ha, Nat.not_le.mp ha]

end Sys2Proof.Machine
end

section
/-! PROOFS. Rounding (06_float.md R108): which of the two patterns around a real number each mode takes, and that `Fmt.round` takes it. -/

namespace Sys2Proof.Machine

/-! The bits that rounding drops. -/

theorem shiftBy_of_nonneg {m : Nat} {k : Int} (h : 0 ≤ k) : shiftBy m k = m * 2 ^ k.toNat := by
  rw [shiftBy, if_pos h, Nat.shiftLeft_eq]

theorem shiftBy_of_neg {m : Nat} {k : Int} (h : k < 0) : shiftBy m k = m / 2 ^ (-k).toNat := by
  rw [shiftBy, if_neg (by omega), Nat.shiftRight_eq_div_pow]

/-- Which of the two neighbours of a number each mode takes (R108): the upper one, given whether the number is above their midpoint, is the
midpoint with an odd lower neighbour, and is above the lower neighbour. -/
def UpperTaken (rm : Nat) (neg : Bool) (aboveMid tieOdd inexact : Prop) : Prop :=
  match rm with
  | 0 => aboveMid ∨ tieOdd
  | 1 => False
  | 2 => inexact ∧ neg = false
  | _ => inexact ∧ neg = true

theorem not_upperTaken {rm : Nat} {neg : Bool} {aboveMid tieOdd inexact : Prop} (hmid : ¬ aboveMid) (htie : ¬ tieOdd)
    (hexact : ¬ inexact) : ¬ UpperTaken rm neg aboveMid tieOdd inexact := by
  unfold UpperTaken
  split
  case h_1 => exact not_or_intro hmid htie
  case h_2 => exact id
  case h_3 | h_4 => exact fun h => hexact h.1

/-- Toward zero the lower neighbour is taken. -/
theorem not_upperTaken_toward {rm : Nat} {neg : Bool} {aboveMid tieOdd inexact : Prop}
    (h : rm = 1 ∨ rm = 2 ∧ neg = true ∨ rm = 3 ∧ neg = false) : ¬ UpperTaken rm neg aboveMid tieOdd inexact := by
  rcases h with rfl | ⟨rfl, rfl⟩ | ⟨rfl, rfl⟩
  · exact id
  · exact fun ht => Bool.noConfusion ht.2
  · exact fun ht => Bool.noConfusion ht.2

/-- Away from zero the upper neighbour is taken unless the lower one is exact. -/
theorem upperTaken_away_iff {rm : Nat} {neg : Bool} {aboveMid tieOdd inexact : Prop} (h : rm = 2 ∧ neg = false ∨ rm = 3 ∧ neg = true) :
    UpperTaken rm neg aboveMid tieOdd inexact ↔ inexact := by
  rcases h with ⟨rfl, rfl⟩ | ⟨rfl, rfl⟩
  · exact and_iff_left rfl
  · exact and_iff_left rfl

/-- `roundsUp` on the dropped part u in units of the last bit dropped: r is its integral part and sticky tells of a fraction. -/
theorem roundsUp_iff {K : Type} [Field K] [LinearOrder K] [IsStrictOrderedRing K] (rm : Nat) (neg odd : Bool) {r s : Nat}
    {sticky : Bool} {u : K} (hr : (r : K) ≤ u) (hu : u < r + 1) (hsticky : sticky = true ↔ u ≠ r)
    (hs : s = 0 → r = 0 ∧ sticky = false) :
    roundsUp rm neg odd r s sticky = true ↔ UpperTaken rm neg ((2 : K) ^ s < 2 * u) ((2 : K) ^ s = 2 * u ∧ odd = true) (0 < u) := by
  have hinexact : (r != 0 || sticky) = true ↔ 0 < u := by
    have hr0 : (0 : K) ≤ r := Nat.cast_nonneg r
    rw [Bool.or_eq_true, bne_iff_ne, hsticky]
    constructor
    · rintro (h | h)
      · exact (Nat.cast_pos.mpr (Nat.pos_of_ne_zero h)).trans_le hr
      · exact hr0.trans_lt (lt_of_le_of_ne hr h.symm)
    · intro h
      by_contra hc
      push Not at hc
      rw [hc.2, hc.1] at h
      simp at h
  unfold roundsUp UpperTaken
  split
  case h_1 =>
    rcases s with _ | s
    · obtain ⟨rfl, rfl⟩ := hs rfl
      have : u = 0 := by simpa using hsticky
      simp [this]
    · simp only [pow_succ']
      rcases Nat.lt_trichotomy (2 ^ s) r with h | rfl | h
      · have h' : (2 : K) ^ s < u := lt_of_lt_of_le (by exact_mod_cast h) hr
        simp [h, h']
      · cases hst : sticky
        · have : u = 2 ^ s := by rw [hst] at hsticky; simpa using hsticky
          simp [this]
        · have h' : (2 : K) ^ s < u := lt_of_le_of_ne (by exact_mod_cast hr) (by simpa [eq_comm] using hsticky.mp hst)
          simp [h']
      · have h' : u < (2 : K) ^ s := hu.trans_le (by exact_mod_cast h)
        simp [h.not_gt, h'.not_gt, h'.ne', h.ne]
  case h_2 => simp
  case h_3 => simp only [Bool.and_eq_true, hinexact, Bool.not_eq_true']
  case h_4 => simp only [Bool.and_eq_true, hinexact]

/-! The two patterns around a number. -/

/-- The greatest pattern whose value does not exceed x is p. -/
def Fmt.Below (f : Fmt) (p : Nat) (x : ℝ) : Prop := f.mval p ≤ x ∧ x < f.mval (p + 1)

/-- Whether the magnitude x, of pattern p or between p and p + 1, goes to p + 1 (R108). -/
def Fmt.TakesUpper (f : Fmt) (rm : Nat) (neg : Bool) (p : Nat) (x : ℝ) : Prop :=
  UpperTaken rm neg (f.mval p + f.mval (p + 1) < 2 * x) (f.mval p + f.mval (p + 1) = 2 * x ∧ p % 2 = 1) (f.mval p < x)

/-- A rounded magnitude with its sign, or what overflow gives (R108, R110). -/
def Fmt.deliver (f : Fmt) (rm : Nat) (neg : Bool) (pat : Nat) : Nat :=
  let sg := if neg then 2 ^ f.mag else 0
  if pat ≤ f.maxFin then sg + pat
  else if !f.hasInf then sg + f.maxFin
  else if rm == 0 || (rm == 2 && !neg) || (rm == 3 && neg) then sg + (2 ^ f.ebits - 1) * 2 ^ f.fbits
  else sg + f.maxFin

/-- r is the magnitude x, with the sign neg, correctly rounded. -/
def Fmt.Rounds (f : Fmt) (rm : Nat) (neg : Bool) (x : ℝ) (r : Nat) : Prop :=
  ∃ p, f.Below p x ∧ (f.TakesUpper rm neg p x → r = f.deliver rm neg (p + 1)) ∧ (¬ f.TakesUpper rm neg p x → r = f.deliver rm neg p)

section
variable {f : Fmt} {rm : Nat} {neg : Bool}

theorem Fmt.Below.unique {p q : Nat} {x : ℝ} (hp : f.Below p x) (hq : f.Below q x) : p = q := by
  have h1 : p < q + 1 := f.mval_lt_iff.mp (hp.1.trans_lt hq.2)
  have h2 : q < p + 1 := f.mval_lt_iff.mp (hq.1.trans_lt hp.2)
  omega

theorem Fmt.Rounds.unique {x : ℝ} {r r' : Nat} (h : f.Rounds rm neg x r) (h' : f.Rounds rm neg x r') : r = r' := by
  obtain ⟨p, hp, hup, hdown⟩ := h
  obtain ⟨q, hq, hup', hdown'⟩ := h'
  obtain rfl := hp.unique hq
  by_cases ht : f.TakesUpper rm neg p x
  · rw [hup ht, hup' ht]
  · rw [hdown ht, hdown' ht]

theorem Fmt.below_mval (p : Nat) : f.Below p (f.mval p) := ⟨le_rfl, f.mval_strictMono (Nat.lt_succ_self p)⟩

theorem Fmt.not_takesUpper_mval (p : Nat) : ¬ f.TakesUpper rm neg p (f.mval p) := by
  have h := f.mval_strictMono (Nat.lt_succ_self p)
  exact not_upperTaken (by linarith) (fun h' => by linarith [h'.1]) (lt_irrefl _)

/-- The value of a pattern rounds to the pattern. -/
theorem Fmt.rounds_mval (p : Nat) : f.Rounds rm neg (f.mval p) (f.deliver rm neg p) :=
  ⟨p, f.below_mval p, fun h => absurd h (f.not_takesUpper_mval p), fun _ => rfl⟩

/-! What `Fmt.round` reads and where it cuts. -/

/-- m * 2^e is the magnitude x up to a part below the last bit of m, of which `sticky` tells; m then has two bits more than a
significand. -/
structure Fmt.Reads (f : Fmt) (m : Nat) (e : Int) (sticky : Bool) (x : ℝ) : Prop where
  le : m * (2 : ℝ) ^ e ≤ x
  lt : x < (m + 1) * (2 : ℝ) ^ e
  sticky_iff : sticky = true ↔ x ≠ m * (2 : ℝ) ^ e
  wide : sticky = true → 2 ^ (f.fbits + 1) ≤ m

theorem Fmt.reads_exact (m : Nat) (e : Int) : f.Reads m e false (m * (2 : ℝ) ^ e) where
  le := le_rfl
  lt := by
    have : (0 : ℝ) < 2 ^ e := by positivity
    linarith
  sticky_iff := by simp
  wide := by simp

/-- The exponent of the last bit kept of m * 2^e. -/
def Fmt.cut (f : Fmt) (m : Nat) (e : Int) : Int := max (Nat.log2 m + e) (1 - (f.bias : Int)) - f.fbits

/-- The binade of the last bit kept, counted from the least. -/
def Fmt.binade (f : Fmt) (m : Nat) (e : Int) : Nat := (f.cut m e - f.unitExp).toNat

/-- The bits kept. -/
def Fmt.kept (f : Fmt) (m : Nat) (e : Int) : Nat := shiftBy m (e - f.cut m e)

/-- How many bits are dropped. -/
def Fmt.dropped (f : Fmt) (m : Nat) (e : Int) : Nat := (f.cut m e - e).toNat

/-- The bits dropped. -/
def Fmt.rest (f : Fmt) (m : Nat) (e : Int) : Nat := if e < f.cut m e then m % 2 ^ f.dropped m e else 0

section
variable (m : Nat) (e : Int)

theorem Fmt.cut_eq : f.cut m e = f.unitExp + f.binade m e := by
  unfold Fmt.binade Fmt.cut Fmt.unitExp
  omega

variable {m} in
theorem Fmt.kept_le (hm : m ≠ 0) : f.kept m e < 2 * 2 ^ f.fbits ∧ (f.binade m e = 0 ∨ 2 ^ f.fbits ≤ f.kept m e) := by
  have hlow : 2 ^ Nat.log2 m ≤ m := Nat.log2_self_le hm
  have hhigh : m < 2 ^ (Nat.log2 m + 1) := Nat.lt_log2_self
  have hcut : f.cut m e = max (Nat.log2 m + e) (1 - (f.bias : Int)) - f.fbits := rfl
  have hbin := f.cut_eq m e
  unfold Fmt.unitExp at hbin
  unfold Fmt.kept
  rw [← Nat.pow_succ']
  generalize f.cut m e = q at *
  by_cases h : 0 ≤ e - q
  · rw [shiftBy_of_nonneg h]
    obtain ⟨d, hd⟩ := Int.eq_ofNat_of_zero_le h
    rw [hd, Int.toNat_natCast]
    constructor
    · calc m * 2 ^ d < 2 ^ (Nat.log2 m + 1) * 2 ^ d := Nat.mul_lt_mul_of_pos_right hhigh (Nat.two_pow_pos d)
        _ = 2 ^ (Nat.log2 m + 1 + d) := (Nat.pow_add ..).symm
        _ ≤ 2 ^ (f.fbits + 1) := Nat.pow_le_pow_right (by decide) (by omega)
    · refine or_iff_not_imp_left.mpr fun hne => ?_
      calc 2 ^ f.fbits ≤ 2 ^ (Nat.log2 m + d) := Nat.pow_le_pow_right (by decide) (by omega)
        _ = 2 ^ Nat.log2 m * 2 ^ d := Nat.pow_add ..
        _ ≤ m * 2 ^ d := Nat.mul_le_mul_right _ hlow
  · rw [shiftBy_of_neg (by omega)]
    obtain ⟨d, hd⟩ := Int.eq_ofNat_of_zero_le (show 0 ≤ -(e - q) by omega)
    rw [hd, Int.toNat_natCast]
    constructor
    · refine Nat.div_lt_of_lt_mul (hhigh.trans_le ?_)
      rw [← Nat.pow_add]
      exact Nat.pow_le_pow_right (by decide) (by omega)
    · refine or_iff_not_imp_left.mpr fun hne => ?_
      refine (Nat.le_div_iff_mul_le (Nat.two_pow_pos d)).mpr (le_trans ?_ hlow)
      rw [← Nat.pow_add]
      exact Nat.pow_le_pow_right (by decide) (by omega)

/-- What is kept and what is dropped make up the number. -/
theorem Fmt.kept_rest : m * (2 : ℝ) ^ e = (f.kept m e * 2 ^ f.dropped m e + f.rest m e) * (2 : ℝ) ^ (f.cut m e - f.dropped m e) := by
  unfold Fmt.kept Fmt.rest Fmt.dropped
  generalize f.cut m e = q
  by_cases h : e < q
  · obtain ⟨d, hd⟩ := Int.eq_ofNat_of_zero_le (show 0 ≤ q - e by omega)
    rw [if_pos h, shiftBy_of_neg (by omega), show -(e - q) = q - e by omega, hd, Int.toNat_natCast, show q - (d : Int) = e by omega]
    congr 1
    exact_mod_cast (Nat.div_add_mod' m (2 ^ d)).symm
  · obtain ⟨d, hd⟩ := Int.eq_ofNat_of_zero_le (show 0 ≤ e - q by omega)
    rw [if_neg h, shiftBy_of_nonneg (by omega), hd, Int.toNat_natCast, show (q - e).toNat = 0 by omega, show e = q + d by omega,
      zpow_add₀ two_ne_zero, zpow_natCast]
    push_cast
    ring_nf

end
end

end Sys2Proof.Machine
end

section
/-! PROOFS. `Fmt.round` (06_float.md R108) keeps the significand at its binade, and so rounds correctly. -/

namespace Sys2Proof.Machine

section
variable {f : Fmt} {rm : Nat} {neg : Bool}

/-- `Fmt.round` on the bits it keeps and drops. -/
theorem Fmt.round_eq {m : Nat} {e : Int} {sticky : Bool} (h : ¬ (m = 0 ∧ sticky = false)) : f.round rm neg m e sticky =
    f.deliver rm neg (f.kept m e + f.binade m e * 2 ^ f.fbits
      + bif roundsUp rm neg (f.kept m e % 2 == 1) (f.rest m e) (f.dropped m e) sticky then 1 else 0) := by
  have hcond : ¬ (m == 0 && !sticky) = true := by simpa using h
  have hbin : (f.cut m e + f.fbits + f.bias - 1).toNat = f.binade m e := by
    unfold Fmt.binade Fmt.unitExp
    congr 1
    omega
  rw [Nat.add_right_comm, ← hbin]
  exact if_neg hcond

theorem Fmt.round_zero (e : Int) : f.round rm neg 0 e false = f.deliver rm neg 0 := by
  simp [Fmt.round, Fmt.deliver]

theorem Fmt.rest_lt (m : Nat) (e : Int) : f.rest m e < 2 ^ f.dropped m e := by
  unfold Fmt.rest
  split
  · exact Nat.mod_lt _ (Nat.two_pow_pos _)
  · exact Nat.two_pow_pos _

/-- A number with a part below its last bit has bits to drop. -/
theorem Fmt.dropped_pos {m : Nat} (e : Int) (h : 2 ^ (f.fbits + 1) ≤ m) : f.dropped m e ≠ 0 := by
  have h0 : m ≠ 0 := fun h0 => by
    have := Nat.two_pow_pos (f.fbits + 1)
    omega
  have hlog : f.fbits + 1 ≤ Nat.log2 m := (Nat.le_log2 h0).mpr h
  unfold Fmt.dropped Fmt.cut
  omega

/-- The parity of a pattern is that of its significand. -/
theorem Fmt.pattern_parity (hf : f.Sound) (n j : Nat) : (n + j * 2 ^ f.fbits) % 2 = n % 2 := by
  obtain ⟨k, hk⟩ : 2 ∣ 2 ^ f.fbits := dvd_pow_self 2 hf.fbits_pos.ne'
  rw [hk, Nat.mul_left_comm, Nat.add_mul_mod_self_left]

/-- What is dropped of a number, in units of the last bit dropped. -/
theorem Fmt.Reads.exists_rest {m : Nat} {e : Int} {sticky : Bool} {x : ℝ} (hx : f.Reads m e sticky x) : ∃ u : ℝ,
    x = (f.kept m e * 2 ^ f.dropped m e + u) * (2 : ℝ) ^ (f.cut m e - f.dropped m e)
    ∧ (f.rest m e : ℝ) ≤ u ∧ u < f.rest m e + 1 ∧ (sticky = true ↔ u ≠ f.rest m e) := by
  have hsplit := f.kept_rest m e
  cases hs : sticky with
  | false =>
    have hexact : x = m * (2 : ℝ) ^ e := by simpa [hs] using hx.sticky_iff
    exact ⟨f.rest m e, hexact.trans hsplit, le_rfl, lt_add_one _, by simp⟩
  | true =>
    have hd := f.dropped_pos e (hx.wide hs)
    have hexp : f.cut m e - f.dropped m e = e := by
      unfold Fmt.dropped at hd ⊢
      omega
    rw [hexp] at hsplit ⊢
    have hpos : (0 : ℝ) < 2 ^ e := by positivity
    have hm : (m : ℝ) = f.kept m e * 2 ^ f.dropped m e + f.rest m e := mul_right_cancel₀ hpos.ne' hsplit
    have hrest : x = (f.kept m e * 2 ^ f.dropped m e + (x / 2 ^ e - (m - f.rest m e))) * (2 : ℝ) ^ e := by
      field_simp
      linarith
    have hle := (le_div_iff₀ hpos).mpr hx.le
    have hlt := (div_lt_iff₀ hpos).mpr hx.lt
    refine ⟨x / 2 ^ e - (m - f.rest m e), hrest, by linarith, by linarith, iff_of_true rfl fun heq => ?_⟩
    exact hx.sticky_iff.mp hs ((div_eq_iff hpos.ne').mp (by linarith))

/-- `Fmt.round` rounds correctly. -/
theorem Fmt.round_rounds (hf : f.Sound) {m : Nat} {e : Int} {sticky : Bool} {x : ℝ} (hx : f.Reads m e sticky x) :
    f.Rounds rm neg x (f.round rm neg m e sticky) := by
  by_cases h0 : m = 0 ∧ sticky = false
  · obtain ⟨rfl, rfl⟩ := h0
    have hx0 : x = f.mval 0 := by simpa using hx.sticky_iff
    rw [f.round_zero, hx0]
    exact f.rounds_mval 0
  have hm : m ≠ 0 := fun hm => by
    cases hs : sticky
    · exact h0 ⟨hm, hs⟩
    · exact absurd (hm ▸ hx.wide hs) (Nat.not_le.mpr (Nat.two_pow_pos _))
  have hdropped : f.dropped m e = 0 → f.rest m e = 0 ∧ sticky = false := fun h => by
    have hrest := f.rest_lt m e
    rw [h] at hrest
    exact ⟨by omega, Bool.eq_false_iff.mpr fun hs => f.dropped_pos e (hx.wide hs) h⟩
  obtain ⟨hle, hbin⟩ := f.kept_le e hm
  rw [f.round_eq h0]
  have hparity := f.pattern_parity hf (f.kept m e) (f.binade m e)
  have hlow := f.mval_add hle.le hbin
  have hhigh : f.mval (f.kept m e + f.binade m e * 2 ^ f.fbits + 1) = (f.kept m e + 1 : ℕ) * (2 : ℝ) ^ (f.unitExp + f.binade m e) := by
    rw [← f.mval_add (by omega) (by omega)]
    congr 1
    omega
  obtain ⟨u, hxu, hru, hur, hst⟩ := hx.exists_rest
  have hup := roundsUp_iff rm neg (f.kept m e % 2 == 1) hru hur hst hdropped
  have hlast : u < 2 ^ f.dropped m e := hur.trans_le (by exact_mod_cast f.rest_lt m e)
  have hu : 0 ≤ u := (Nat.cast_nonneg _).trans hru
  have hw : (0 : ℝ) < 2 ^ (f.cut m e - f.dropped m e) := by positivity
  have hbit : (2 : ℝ) ^ (f.unitExp + f.binade m e) = 2 ^ f.dropped m e * 2 ^ (f.cut m e - f.dropped m e) := by
    rw [← f.cut_eq, ← zpow_natCast, ← zpow_add₀ two_ne_zero]
    congr 1
    omega
  rw [hbit] at hlow hhigh
  push_cast at hhigh
  generalize f.kept m e + f.binade m e * 2 ^ f.fbits = p at *
  generalize (2 : ℝ) ^ (f.cut m e - f.dropped m e) = w at *
  have htakes : f.TakesUpper rm neg p x ↔
      roundsUp rm neg (f.kept m e % 2 == 1) (f.rest m e) (f.dropped m e) sticky = true := by
    rw [hup]
    have hmid : f.mval p + f.mval (p + 1) = (2 * f.kept m e * 2 ^ f.dropped m e + 2 ^ f.dropped m e) * w := by
      rw [hlow, hhigh]; ring
    have hx2 : 2 * x = (2 * f.kept m e * 2 ^ f.dropped m e + 2 * u) * w := by
      rw [hxu]; ring
    have hpos : f.mval p < x ↔ 0 < u := by
      rw [hlow, hxu, ← mul_assoc, mul_lt_mul_iff_left₀ hw, lt_add_iff_pos_right]
    unfold Fmt.TakesUpper
    rw [hmid, hx2, mul_lt_mul_iff_left₀ hw, mul_left_inj' hw.ne', add_lt_add_iff_left, add_right_inj, hpos, hparity, beq_iff_eq]
  refine ⟨p, ⟨?_, ?_⟩, fun h => ?_, fun h => ?_⟩
  · rw [hlow, hxu, ← mul_assoc]
    exact mul_le_mul_of_nonneg_right (by linarith) hw.le
  · rw [hhigh, hxu, ← mul_assoc]
    exact mul_lt_mul_of_pos_right (by linarith) hw
  · rw [htakes.mp h]; rfl
  · rw [Bool.eq_false_iff.mpr (fun h' => h (htakes.mpr h'))]; rfl

end

end Sys2Proof.Machine
end

section
/-! PROOFS. Correct rounding (06_float.md R108) as a statement about the values of patterns, and the patterns of a type. -/

namespace Sys2Proof.Machine

/-! The patterns of the IEEE-like types. -/

theorem testBit_add_sign {k p : Nat} (hp : p < 2 ^ k) (neg : Bool) : ((if neg then 2 ^ k else 0) + p).testBit k = neg := by
  cases neg
  · simp [Nat.testBit_lt_two_pow hp]
  · simp [Nat.testBit_two_pow_add_eq, Nat.testBit_lt_two_pow hp]

theorem add_sign_mod {k p : Nat} (hp : p < 2 ^ k) (neg : Bool) : ((if neg then 2 ^ k else 0) + p) % 2 ^ k = p := by
  cases neg <;> simp [Nat.mod_eq_of_lt hp]

/-- A pattern is its sign bit and its magnitude. -/
theorem add_sign_of_lt {k x : Nat} (hx : x < 2 ^ (k + 1)) : (if x.testBit k then 2 ^ k else 0) + x % 2 ^ k = x := by
  have hdm := Nat.div_add_mod x (2 ^ k)
  have hlt : x / 2 ^ k < 2 := Nat.div_lt_of_lt_mul (by rwa [← Nat.pow_succ])
  rw [Nat.testBit_eq_decide_div_mod_eq, Nat.mod_eq_of_lt hlt]
  rcases Nat.lt_succ_iff.mp hlt |> Nat.le_one_iff_eq_zero_or_eq_one.mp with h | h
  · rw [h] at hdm ⊢
    simpa using hdm
  · rw [h] at hdm ⊢
    simpa using hdm

/-- The value of a pattern of a type. -/
noncomputable def fval (ct p : Nat) : ℝ := (fdec ct p).val ℝ

section
variable {ct : Nat} (hct : ct ≤ 4) (x : Nat)
include hct

theorem fdec_eq : fdec ct x = if x % 2 ^ (fmtOf ct).mag ≤ (fmtOf ct).maxFin
    then .fin (x.testBit (fmtOf ct).mag) ((fmtOf ct).sig (x % 2 ^ (fmtOf ct).mag)) ((fmtOf ct).expo (x % 2 ^ (fmtOf ct).mag))
    else if (fmtOf ct).hasInf = true ∧ x % 2 ^ (fmtOf ct).mag % 2 ^ (fmtOf ct).fbits = 0 then .inf (x.testBit (fmtOf ct).mag) else .nan := by
  have h5 : ¬ (ct == 5) = true := by rw [beq_iff_eq]; omega
  have hmod : x % 2 ^ ((fmtOf ct).mag + 1) % 2 ^ (fmtOf ct).mag = x % 2 ^ (fmtOf ct).mag :=
    Nat.mod_mod_of_dvd x (pow_dvd_pow 2 (Nat.le_succ _))
  have hbit : (x % 2 ^ ((fmtOf ct).mag + 1)).testBit (fmtOf ct).mag = x.testBit (fmtOf ct).mag := by
    simp [Nat.testBit_mod_two_pow]
  rw [fdec, if_neg h5, Fmt.decode_eq, hmod, hbit]

theorem fenc_eq (rm : Nat) (v : FVal) : fenc ct rm v = (fmtOf ct).encode rm v := by
  have h5 : ¬ (ct == 5) = true := by rw [beq_iff_eq]; omega
  rw [fenc, if_neg h5]

theorem isFin_fdec : (fdec ct x).isFin ↔ x % 2 ^ (fmtOf ct).mag ≤ (fmtOf ct).maxFin := by
  rw [fdec_eq hct]
  by_cases h : x % 2 ^ (fmtOf ct).mag ≤ (fmtOf ct).maxFin
  · simp [h, FVal.isFin]
  · by_cases h' : (fmtOf ct).hasInf = true ∧ x % 2 ^ (fmtOf ct).mag % 2 ^ (fmtOf ct).fbits = 0 <;> simp [h, h', FVal.isFin]

variable {x}

theorem fdec_finite (h : x % 2 ^ (fmtOf ct).mag ≤ (fmtOf ct).maxFin) : fdec ct x =
    .fin (x.testBit (fmtOf ct).mag) ((fmtOf ct).sig (x % 2 ^ (fmtOf ct).mag)) ((fmtOf ct).expo (x % 2 ^ (fmtOf ct).mag)) := by
  rw [fdec_eq hct, if_pos h]

theorem val_fdec (h : x % 2 ^ (fmtOf ct).mag ≤ (fmtOf ct).maxFin) :
    fval ct x = (if x.testBit (fmtOf ct).mag then -1 else 1) * (fmtOf ct).mval (x % 2 ^ (fmtOf ct).mag) := by
  rw [fval, fdec_finite hct h, Fmt.mval_eq, ← mul_assoc]
  rfl

/-- A finite pattern with its sign decodes to its magnitude. -/
theorem fdec_add_sign {p : Nat} (hp : p ≤ (fmtOf ct).maxFin) (neg : Bool) : fdec ct ((if neg then 2 ^ (fmtOf ct).mag else 0) + p) =
    .fin neg ((fmtOf ct).sig p) ((fmtOf ct).expo p) := by
  have hlt := hp.trans_lt (fmtOf_sound ct).maxFin_lt
  rw [fdec_eq hct, add_sign_mod hlt, if_pos hp, testBit_add_sign hlt]

theorem val_add_sign {p : Nat} (hp : p ≤ (fmtOf ct).maxFin) (neg : Bool) :
    fval ct ((if neg then 2 ^ (fmtOf ct).mag else 0) + p) = (if neg then -1 else 1) * (fmtOf ct).mval p := by
  rw [fval, fdec_add_sign hct hp, Fmt.mval_eq, ← mul_assoc]
  rfl

theorem val_maxFin : fval ct (fmtOf ct).maxFin = (fmtOf ct).mval (fmtOf ct).maxFin := by
  simpa using val_add_sign hct le_rfl false

end

/-! Between two neighbours of a format. -/

/-- No magnitude of the format, with either sign, lies strictly between its neighbours low and high. -/
theorem Fmt.gap (f : Fmt) (p q : Nat) (sign : Bool) :
    (if sign then -1 else 1) * f.mval q ≤ f.mval p ∨ f.mval (p + 1) ≤ (if sign then -1 else 1) * f.mval q := by
  cases sign with
  | true =>
    left
    have hp := f.mval_nonneg p
    have hq := f.mval_nonneg q
    simp only [if_true]
    linarith
  | false =>
    simp only [Bool.false_eq_true, if_false, one_mul, f.mval_le_iff]
    omega

section
variable {low high x w : ℝ}

/-- The neighbour that .RN takes is the nearest, and a tie is decided. -/
theorem nearest_of_gap (hlow : low ≤ x) (hhigh : x < high) (hw : w ≤ low ∨ high ≤ w) :
    (low + high ≤ 2 * x → |high - x| ≤ |w - x| ∧ (|high - x| = |w - x| → w ≠ high → low + high = 2 * x))
    ∧ (2 * x ≤ low + high → |low - x| ≤ |w - x| ∧ (|low - x| = |w - x| → w ≠ low → low + high = 2 * x)) := by
  rw [abs_of_pos (sub_pos.mpr hhigh), abs_of_nonpos (sub_nonpos.mpr hlow)]
  rcases hw with hw | hw
  · rw [abs_of_nonpos (by linarith : w - x ≤ 0)]
    refine ⟨fun h => ⟨by linarith, fun heq _ => by linarith⟩, fun h => ⟨by linarith, fun heq hne => absurd (by linarith) hne⟩⟩
  · rw [abs_of_pos (by linarith : 0 < w - x)]
    refine ⟨fun h => ⟨by linarith, fun heq hne => absurd (by linarith) hne⟩, fun h => ⟨by linarith, fun heq _ => by linarith⟩⟩

end

/-! Correct rounding. -/

/-- r is v rounded to the type ct under rm, where v is within the type's finite range (R108). -/
def RoundsTo (ct rm : Nat) (v : ℝ) (r : Nat) : Prop :=
  |v| ≤ fval ct (fmtOf ct).maxFin →
    (fdec ct r).isFin ∧ ∀ p, (fdec ct p).isFin →
      (rm = 0 → |fval ct r - v| ≤ |fval ct p - v| ∧ (|fval ct r - v| = |fval ct p - v| → fval ct p ≠ fval ct r → r % 2 = 0))
      ∧ (rm = 2 ∨ rm = 1 ∧ v ≤ 0 → v ≤ fval ct r ∧ (v ≤ fval ct p → fval ct r ≤ fval ct p))
      ∧ (rm = 3 ∨ rm = 1 ∧ 0 ≤ v → fval ct r ≤ v ∧ (fval ct p ≤ v → fval ct p ≤ fval ct r))

/-- The magnitude that a correct rounding gives. -/
theorem Fmt.Rounds.exists_pattern {f : Fmt} {rm : Nat} {neg : Bool} {x : ℝ} {r : Nat} (h : f.Rounds rm neg x r)
    (hx : x ≤ f.mval f.maxFin) : ∃ p q, f.Below p x ∧ q ≤ f.maxFin ∧ r = (if neg then 2 ^ f.mag else 0) + q
      ∧ (f.TakesUpper rm neg p x → q = p + 1) ∧ (¬ f.TakesUpper rm neg p x → q = p) := by
  obtain ⟨p, hp, hup, hdown⟩ := h
  have hle : p ≤ f.maxFin := f.mval_le_iff.mp (hp.1.trans hx)
  have hdeliver : ∀ q ≤ f.maxFin, f.deliver rm neg q = (if neg then 2 ^ f.mag else 0) + q := fun q hq => if_pos hq
  by_cases ht : f.TakesUpper rm neg p x
  · have hlt : p + 1 ≤ f.maxFin := by
      by_contra hc
      obtain rfl : p = f.maxFin := by omega
      exact f.not_takesUpper_mval _ (le_antisymm hx hp.1 ▸ ht)
    exact ⟨p, p + 1, hp, hlt, (hup ht).trans (hdeliver _ hlt), fun _ => rfl, fun h => absurd ht h⟩
  · exact ⟨p, p, hp, hle, (hdown ht).trans (hdeliver _ hle), fun h => absurd h ht, fun _ => rfl⟩

/-- What the modes ask of a magnitude x with neighbours p and p + 1 of which q is taken: .RN the nearest, the modes toward zero the
lower, those away from zero the least at or above x. -/
theorem Fmt.taken_spec {f : Fmt} {rm : Nat} {neg : Bool} {x : ℝ} {p q : Nat} (hp : f.Below p x)
    (hup : f.TakesUpper rm neg p x → q = p + 1) (hdown : ¬ f.TakesUpper rm neg p x → q = p)
    {w : ℝ} (hw : w ≤ f.mval p ∨ f.mval (p + 1) ≤ w) :
    (rm = 0 → |f.mval q - x| ≤ |w - x| ∧ (|f.mval q - x| = |w - x| → w ≠ f.mval q → q % 2 = 0))
    ∧ (rm = 1 ∨ rm = 2 ∧ neg = true ∨ rm = 3 ∧ neg = false → f.mval q ≤ x ∧ (w ≤ x → w ≤ f.mval q))
    ∧ (rm = 2 ∧ neg = false ∨ rm = 3 ∧ neg = true → x ≤ f.mval q ∧ (x ≤ w → f.mval q ≤ w)) := by
  obtain ⟨hlow, hhigh⟩ := hp
  refine ⟨fun h => ?near, fun h => ?toward, fun h => ?away⟩
  case near =>
    obtain ⟨hnearUp, hnearDown⟩ := nearest_of_gap hlow hhigh hw
    subst h
    by_cases ht : f.TakesUpper 0 neg p x
    · rw [hup ht]
      have hge : f.mval p + f.mval (p + 1) ≤ 2 * x := by
        rcases ht with h | ⟨h, -⟩
        · exact h.le
        · exact h.le
      obtain ⟨hle, htie⟩ := hnearUp hge
      refine ⟨hle, fun heq hne => ?_⟩
      rcases ht with h | ⟨-, h⟩
      · exact absurd (htie heq hne) h.ne
      · omega
    · rw [hdown ht]
      have hle2 : 2 * x ≤ f.mval p + f.mval (p + 1) := le_of_not_gt fun h => ht (.inl h)
      obtain ⟨hle, htie⟩ := hnearDown hle2
      refine ⟨hle, fun heq hne => ?_⟩
      by_contra hodd
      exact ht (.inr ⟨htie heq hne, by omega⟩)
  case toward =>
    have ht : ¬ f.TakesUpper rm neg p x := not_upperTaken_toward h
    rw [hdown ht]
    exact ⟨hlow, fun hwx => hw.resolve_right fun h => by linarith⟩
  case away =>
    have ht : f.TakesUpper rm neg p x ↔ f.mval p < x := upperTaken_away_iff h
    rcases hlow.lt_or_eq with hlt | heq
    · rw [hup (ht.mpr hlt)]
      exact ⟨hhigh.le, fun hxw => hw.resolve_left fun h => by linarith⟩
    · rw [hdown fun h => (ht.mp h).ne heq, heq]
      exact ⟨le_rfl, id⟩

theorem roundsTo_of_rounds {ct : Nat} (hct : ct ≤ 4) {rm : Nat} {neg : Bool} {x : ℝ} {r : Nat} (h : (fmtOf ct).Rounds rm neg x r)
    (hx : 0 ≤ x) : RoundsTo ct rm ((if neg then -1 else 1) * x) r := by
  intro hrange
  have habs : |(if neg then -1 else 1) * x| = x := by cases neg <;> simp [abs_of_nonneg hx]
  rw [habs] at hrange
  obtain ⟨p, q, hp, hq, rfl, hup, hdown⟩ := h.exists_pattern (hrange.trans_eq (val_maxFin hct))
  have heven : 2 ∣ 2 ^ (fmtOf ct).mag :=
    dvd_pow_self 2 (Nat.add_pos_right _ (fmtOf_sound ct).fbits_pos).ne'
  have hparity : ((if neg then 2 ^ (fmtOf ct).mag else 0) + q) % 2 = q % 2 := by
    cases neg <;> simp only [Bool.false_eq_true, if_false, if_true] <;> omega
  refine ⟨by rw [fdec_add_sign hct hq]; trivial, fun a ha => ?_⟩
  have hr : fval ct ((if neg then 2 ^ (fmtOf ct).mag else 0) + q) = (if neg then -1 else 1) * (fmtOf ct).mval q := val_add_sign hct hq neg
  have ha' := val_fdec hct ((isFin_fdec hct a).mp ha)
  rw [hparity, hr]
  cases neg with
  | false =>
    obtain ⟨hnear, htoward, haway⟩ := (fmtOf ct).taken_spec hp hup hdown (ha' ▸ (fmtOf ct).gap p _ _ : fval ct a ≤ _ ∨ _ ≤ fval ct a)
    simp only [Bool.false_eq_true, if_false, one_mul]
    refine ⟨hnear, ?_, ?_⟩
    · rintro (h | ⟨h, hx0⟩)
      · exact haway (.inl ⟨h, rfl⟩)
      · have hx0 : x = 0 := le_antisymm hx0 hx
        obtain ⟨hle, -⟩ := htoward (.inl h)
        have hq0 := (fmtOf ct).mval_nonneg q
        exact ⟨by linarith, fun h => by linarith⟩
    · rintro (h | ⟨h, -⟩)
      · exact htoward (.inr (.inr ⟨h, rfl⟩))
      · exact htoward (.inl h)
  | true =>
    have hgap : -fval ct a ≤ (fmtOf ct).mval p ∨ (fmtOf ct).mval (p + 1) ≤ -fval ct a := by
      have := (fmtOf ct).gap p (a % 2 ^ (fmtOf ct).mag) (!a.testBit (fmtOf ct).mag)
      rw [show fval ct a = _ from ha']
      cases hs : a.testBit (fmtOf ct).mag <;> simpa [hs] using this
    obtain ⟨hnear, htoward, haway⟩ := (fmtOf ct).taken_spec hp hup hdown hgap
    simp only [if_true, neg_one_mul]
    have hr' : |-(fmtOf ct).mval q - -x| = |(fmtOf ct).mval q - x| := by rw [← neg_sub', abs_neg]
    have hw : |fval ct a - -x| = |-fval ct a - x| := by rw [← abs_neg, neg_sub', neg_neg]
    rw [hr', hw]
    refine ⟨fun h => ?_, ?_, ?_⟩
    · obtain ⟨hle, htie⟩ := hnear h
      exact ⟨hle, fun heq hne => htie heq fun h => hne (by linarith)⟩
    · intro h
      obtain ⟨hle, hgreatest⟩ := htoward (h.elim (fun h => .inr (.inl ⟨h, rfl⟩)) fun h => .inl h.1)
      exact ⟨by linarith, fun h => by linarith [hgreatest (by linarith)]⟩
    · rintro (h | ⟨h, hx0⟩)
      · obtain ⟨hle, hleast⟩ := haway (.inr ⟨h, rfl⟩)
        exact ⟨by linarith, fun h => by linarith [hleast (by linarith)]⟩
      · have hx0 : x = 0 := by linarith
        obtain ⟨hle, -⟩ := htoward (.inl h)
        have hq0 := (fmtOf ct).mval_nonneg q
        exact ⟨by linarith, fun h => by linarith⟩

end Sys2Proof.Machine
end

section
/-! PROOFS. Encoding (06_float.md R108 to R110): the pattern of a value depends on the sign and the value alone, a pattern's own value gives
the pattern back, and a result that is a NaN is the canonical one. -/

namespace Sys2Proof.Machine

/-! Decoded values. -/

namespace FVal

theorem isFin_iff {v : FVal} : v.isFin ↔ ∃ n m e, v = .fin n m e := by
  cases v <;> simp [isFin]

theorem val_fin (K : Type) [DivisionRing K] (n : Bool) (m : Nat) (e : Int) :
    (FVal.fin n m e).val K = (if n then -1 else 1) * (m : K) * (2 : K) ^ e := rfl

theorem abs_val_fin (n : Bool) (m : Nat) (e : Int) : |(FVal.fin n m e).val ℝ| = m * (2 : ℝ) ^ e := by
  have h : (0 : ℝ) ≤ m * (2 : ℝ) ^ e := by positivity
  rw [val_fin, mul_assoc]
  cases n <;> simp [abs_of_nonneg h]

/-- A value is its magnitude with its sign. -/
theorem val_eq_sign (v : FVal) : v.val ℝ = (if v.sign then -1 else 1) * |v.val ℝ| := by
  cases v with
  | nan => simp [val]
  | inf n => simp [val]
  | fin n m e => rw [abs_val_fin, ← mul_assoc]; rfl

end FVal

/-! Infinities and overflow. -/

/-- The magnitude of an infinity. -/
def Fmt.infMag (f : Fmt) : Nat := (2 ^ f.ebits - 1) * 2 ^ f.fbits

theorem Fmt.infMag_lt (f : Fmt) : f.infMag < 2 ^ f.mag := by
  have hpos : 0 < 2 ^ f.fbits := Nat.two_pow_pos _
  rw [Fmt.infMag, Fmt.mag, Nat.pow_add]
  exact Nat.mul_lt_mul_of_pos_right (Nat.sub_lt (Nat.two_pow_pos _) Nat.one_pos) hpos

theorem Fmt.infMag_eq (f : Fmt) : f.infMag = 2 ^ f.mag - 2 ^ f.fbits := by
  rw [Fmt.infMag, Fmt.mag, Nat.sub_mul, Nat.one_mul, ← Nat.pow_add]

/-- Past the largest finite pattern only the infinity has no fraction. -/
theorem Fmt.Sound.eq_infMag {f : Fmt} (hf : f.Sound) (hinf : f.hasInf = true) {p : Nat} (hlt : p < 2 ^ f.mag) (hgt : f.maxFin < p)
    (hfrac : p % 2 ^ f.fbits = 0) : p = f.infMag := by
  obtain ⟨k, rfl⟩ := Nat.dvd_of_mod_eq_zero hfrac
  have hge := hf.inf_eq hinf
  rw [Fmt.mag, Nat.pow_add, Nat.mul_comm] at hlt
  have hhigh : k < 2 ^ f.ebits := Nat.lt_of_mul_lt_mul_right hlt
  have hlow : 2 ^ f.ebits - 1 ≤ k :=
    Nat.le_of_mul_le_mul_right (by rw [← hge, Nat.mul_comm k]; omega) (Nat.two_pow_pos f.fbits)
  rw [Fmt.infMag, Nat.mul_comm, show k = 2 ^ f.ebits - 1 by omega]

/-- A delivered magnitude is a finite one or, where the format has it, that of an infinity. -/
theorem Fmt.deliver_cases (f : Fmt) (rm : Nat) (neg : Bool) (pat : Nat) :
    (∃ q ≤ f.maxFin, f.deliver rm neg pat = (if neg then 2 ^ f.mag else 0) + q)
    ∨ f.hasInf = true ∧ f.deliver rm neg pat = (if neg then 2 ^ f.mag else 0) + f.infMag := by
  by_cases hle : pat ≤ f.maxFin
  · exact .inl ⟨pat, hle, if_pos hle⟩
  · rw [Fmt.deliver, if_neg hle]
    cases hinf : f.hasInf with
    | false => exact .inl ⟨_, le_rfl, rfl⟩
    | true =>
      by_cases hup : (rm == 0 || (rm == 2 && !neg) || (rm == 3 && neg)) = true
      · exact .inr ⟨rfl, if_pos hup⟩
      · exact .inl ⟨_, le_rfl, if_neg hup⟩

/-! Encoding numbers. -/

section
variable {ct : Nat} (hct : ct ≤ 4) {rm : Nat}
include hct

theorem fenc_rounds {v : FVal} (hv : v.isFin) : (fmtOf ct).Rounds rm v.sign |v.val ℝ| (fenc ct rm v) := by
  obtain ⟨n, m, e, rfl⟩ := FVal.isFin_iff.mp hv
  rw [fenc_eq hct, FVal.abs_val_fin]
  exact (fmtOf ct).round_rounds (fmtOf_sound ct) ((fmtOf ct).reads_exact m e)

/-- A value encodes to its correct rounding. -/
theorem fenc_roundsTo {v : FVal} (hv : v.isFin) : RoundsTo ct rm (v.val ℝ) (fenc ct rm v) := by
  rw [v.val_eq_sign]
  exact roundsTo_of_rounds hct (fenc_rounds hct hv) (abs_nonneg _)

/-- The pattern depends on the sign and the value alone. -/
theorem fenc_congr {v w : FVal} (hv : v.isFin) (hw : w.isFin) (hsign : v.sign = w.sign) (hval : |v.val ℝ| = |w.val ℝ|) :
    fenc ct rm v = fenc ct rm w := by
  have h := fenc_rounds hct (rm := rm) hv
  rw [hsign, hval] at h
  exact h.unique (fenc_rounds hct hw)

/-- A value that the type holds encodes to its pattern. -/
theorem fenc_of_mval {v : FVal} (hv : v.isFin) {p : Nat} (hp : p ≤ (fmtOf ct).maxFin) (hval : |v.val ℝ| = (fmtOf ct).mval p) :
    fenc ct rm v = (if v.sign then 2 ^ (fmtOf ct).mag else 0) + p := by
  have h := fenc_rounds hct (rm := rm) hv
  rw [hval] at h
  rw [h.unique ((fmtOf ct).rounds_mval p), Fmt.deliver, if_pos hp]

theorem fenc_inf (neg : Bool) (h : (fmtOf ct).hasInf = true) :
    fenc ct rm (.inf neg) = (if neg then 2 ^ (fmtOf ct).mag else 0) + (fmtOf ct).infMag := by
  rw [fenc_eq hct]
  exact if_pos h

theorem fenc_inf_none (neg : Bool) (h : (fmtOf ct).hasInf = false) : fenc ct rm (.inf neg) = (fmtOf ct).nan := by
  rw [fenc_eq hct]
  exact if_neg (by simp [h])

theorem fenc_nan : fenc ct rm .nan = (fmtOf ct).nan := fenc_eq hct rm .nan

theorem fdec_infMag (neg : Bool) (h : (fmtOf ct).hasInf = true) :
    fdec ct ((if neg then 2 ^ (fmtOf ct).mag else 0) + (fmtOf ct).infMag) = .inf neg := by
  have hlt := (fmtOf ct).infMag_lt
  have hmax : (fmtOf ct).maxFin + 1 = (fmtOf ct).infMag := (fmtOf_sound ct).inf_eq h
  rw [fdec_eq hct, add_sign_mod hlt, testBit_add_sign hlt, if_neg (by omega), if_pos ⟨h, Nat.mul_mod_left ..⟩]

theorem fdec_nan : fdec ct (fmtOf ct).nan = .nan := by
  have hs := fmtOf_sound ct
  rw [fdec_eq hct, Nat.mod_eq_of_lt hs.nan_lt, if_neg (Nat.not_le.mpr hs.nan_gt), if_neg fun h => hs.nan_frac h.1 h.2]

/-- What a rounded number is delivered as is no NaN. -/
theorem isNan_deliver (neg : Bool) (pat : Nat) : (fdec ct ((fmtOf ct).deliver rm neg pat)).isNan = false := by
  rcases (fmtOf ct).deliver_cases rm neg pat with ⟨q, hq, h⟩ | ⟨hinf, h⟩
  · rw [h, fdec_add_sign hct hq]; rfl
  · rw [h, fdec_infMag hct neg hinf]; rfl

/-- A number encodes to no NaN. -/
theorem isNan_fenc_fin {v : FVal} (hv : v.isFin) : (fdec ct (fenc ct rm v)).isNan = false := by
  obtain ⟨p, -, hup, hdown⟩ := fenc_rounds hct (rm := rm) hv
  by_cases ht : (fmtOf ct).TakesUpper rm v.sign p |v.val ℝ|
  · rw [hup ht, isNan_deliver hct]
  · rw [hdown ht, isNan_deliver hct]

/-- A NaN among the results is the canonical one (R109). -/
theorem fenc_canonical {v : FVal} (h : (fdec ct (fenc ct rm v)).isNan = true) : fenc ct rm v = (fmtOf ct).nan := by
  cases v with
  | nan => exact fenc_nan hct
  | inf n =>
    cases hinf : (fmtOf ct).hasInf
    · exact fenc_inf_none hct n hinf
    · rw [fenc_inf hct n hinf, fdec_infMag hct n hinf] at h
      exact Bool.noConfusion h
  | fin n m e => rw [isNan_fenc_fin hct (v := .fin n m e) trivial] at h; exact Bool.noConfusion h

/-- A pattern that is no NaN is what its value encodes to. -/
theorem fenc_fdec {x : Nat} (hx : x < 2 ^ ((fmtOf ct).mag + 1)) (hnan : (fdec ct x).isNan = false) : fenc ct rm (fdec ct x) = x := by
  have hs := fmtOf_sound ct
  by_cases hfin : x % 2 ^ (fmtOf ct).mag ≤ (fmtOf ct).maxFin
  · have hdec := fdec_finite hct hfin
    have hval : |(fdec ct x).val ℝ| = (fmtOf ct).mval (x % 2 ^ (fmtOf ct).mag) := by rw [hdec, FVal.abs_val_fin, Fmt.mval_eq]
    rw [fenc_of_mval hct ((isFin_fdec hct x).mpr hfin) hfin hval, hdec]
    exact add_sign_of_lt hx
  · have hdec := fdec_eq hct x
    rw [if_neg hfin] at hdec
    by_cases hinf : (fmtOf ct).hasInf = true ∧ x % 2 ^ (fmtOf ct).mag % 2 ^ (fmtOf ct).fbits = 0
    · obtain ⟨hhas, hfrac⟩ := hinf
      rw [if_pos ⟨hhas, hfrac⟩] at hdec
      have hmag := hs.eq_infMag hhas (Nat.mod_lt x (Nat.two_pow_pos _)) (Nat.not_le.mp hfin) hfrac
      rw [hdec, fenc_inf hct _ hhas, ← hmag]
      exact add_sign_of_lt hx
    · rw [if_neg hinf] at hdec
      rw [hdec] at hnan
      exact Bool.noConfusion hnan

end

end Sys2Proof.Machine
end

section
/-! PROOFS. The exact values of the operations before their one rounding (06_float.md R113 to R125): sums, products, scalings, and the
reciprocal and the square root with what is lost below their last bit. -/

namespace Sys2Proof.Machine

/-! Signs and products. -/

namespace FVal

theorem negate_val (v : FVal) : v.negate.val ℝ = -v.val ℝ := by
  cases v with
  | nan | inf n => simp [negate, val]
  | fin n m e => cases n <;> simp [negate, val]

theorem negate_isFin {v : FVal} (hv : v.isFin) : v.negate.isFin := by
  obtain ⟨n, m, e, rfl⟩ := isFin_iff.mp hv
  trivial

theorem mul_isFin {v w : FVal} (hv : v.isFin) (hw : w.isFin) : (v.mul w).isFin := by
  obtain ⟨n, m, e, rfl⟩ := isFin_iff.mp hv
  obtain ⟨n', m', e', rfl⟩ := isFin_iff.mp hw
  trivial

theorem mul_val {v w : FVal} (hv : v.isFin) (hw : w.isFin) : (v.mul w).val ℝ = v.val ℝ * w.val ℝ := by
  obtain ⟨n, m, e, rfl⟩ := isFin_iff.mp hv
  obtain ⟨n', m', e', rfl⟩ := isFin_iff.mp hw
  simp only [mul, val_fin, zpow_add₀ (two_ne_zero (α := ℝ)), Nat.cast_mul]
  cases n <;> cases n' <;> simp <;> ring

/-! Sums. -/

/-- A value as an integer multiple of a power of two no greater than its last bit. -/
theorem scaled_val (K : Type) [Field K] [CharZero K] {v : FVal} {e0 : Int} (he : e0 ≤ v.exp) : (v.scaled e0 : K) * 2 ^ e0 = v.val K := by
  cases v with
  | nan | inf n => simp [scaled, val]
  | fin n m e =>
    obtain ⟨d, hd⟩ := Int.eq_ofNat_of_zero_le (show 0 ≤ e - e0 from Int.sub_nonneg_of_le he)
    have hm : (m : K) * 2 ^ e = m * 2 ^ d * 2 ^ e0 := by
      rw [show e = d + e0 by omega, zpow_add₀ two_ne_zero, zpow_natCast, mul_assoc]
    rw [val_fin, mul_assoc, hm, scaled, hd, Int.toNat_natCast]
    cases n <;> simp

end FVal

/-- The least exponent of a sum's terms, at most 0. -/
def sumExp (vs : List FVal) : Int := vs.foldl (fun e v => min e v.exp) 0

/-- A sum's terms at the least exponent, added. -/
def sumScaled (vs : List FVal) : Int := vs.foldl (fun t v => t + v.scaled (sumExp vs)) 0

/-- The sign of an infinity. -/
def FVal.infSign (v : FVal) : Option Bool := match v with | .inf n => some n | _ => none

theorem fsum_def (vs : List FVal) (zneg : Bool) : fsum vs zneg =
    if vs.any FVal.isNan || ((vs.filterMap FVal.infSign).contains true && (vs.filterMap FVal.infSign).contains false) then .nan
    else match vs.filterMap FVal.infSign with
      | n :: _ => .inf n
      | [] => if sumScaled vs == 0 then .fin zneg 0 0
        else .fin (decide (sumScaled vs < 0)) (sumScaled vs).natAbs (sumExp vs) := rfl

theorem foldl_min_exp_le (vs : List FVal) (e : Int) : vs.foldl (fun e v => min e v.exp) e ≤ e
    ∧ ∀ v ∈ vs, vs.foldl (fun e v => min e v.exp) e ≤ v.exp := by
  induction vs generalizing e with
  | nil => simp
  | cons v vs ih =>
    obtain ⟨hle, hall⟩ := ih (min e v.exp)
    simp only [List.foldl_cons, List.mem_cons, forall_eq_or_imp]
    exact ⟨hle.trans (min_le_left ..), hle.trans (min_le_right ..), hall⟩

theorem sumExp_le {vs : List FVal} {v : FVal} (hv : v ∈ vs) : sumExp vs ≤ v.exp := (foldl_min_exp_le vs 0).2 v hv

theorem foldl_scaled (vs : List FVal) (e0 t : Int) : vs.foldl (fun t v => t + v.scaled e0) t = t + (vs.map fun v => v.scaled e0).sum := by
  induction vs generalizing t with
  | nil => simp
  | cons v vs ih => rw [List.foldl_cons, ih, List.map_cons, List.sum_cons, add_assoc]

theorem sumScaled_val (vs : List FVal) : (sumScaled vs : ℝ) * 2 ^ sumExp vs = (vs.map fun v => v.val ℝ).sum := by
  rw [sumScaled, foldl_scaled, zero_add]
  have hall : ∀ v ∈ vs, sumExp vs ≤ v.exp := fun v hv => sumExp_le hv
  generalize sumExp vs = e0 at *
  induction vs with
  | nil => simp
  | cons v vs ih =>
    rw [List.map_cons, List.sum_cons, List.map_cons, List.sum_cons, Int.cast_add, add_mul,
      FVal.scaled_val ℝ (hall v List.mem_cons_self), ih fun w hw => hall w (List.mem_cons_of_mem _ hw)]

section
variable {vs : List FVal} (hvs : ∀ v ∈ vs, v.isFin) (zneg : Bool)
include hvs

theorem fsum_eq : fsum vs zneg =
    if sumScaled vs = 0 then .fin zneg 0 0 else .fin (decide (sumScaled vs < 0)) (sumScaled vs).natAbs (sumExp vs) := by
  have hnan : vs.any FVal.isNan = false := by
    rw [List.any_eq_false]
    intro v hv
    obtain ⟨n, m, e, rfl⟩ := FVal.isFin_iff.mp (hvs v hv)
    exact Bool.false_ne_true
  have hinf : vs.filterMap FVal.infSign = [] := by
    rw [List.filterMap_eq_nil_iff]
    intro v hv
    obtain ⟨n, m, e, rfl⟩ := FVal.isFin_iff.mp (hvs v hv)
    rfl
  simp [fsum_def, hnan, hinf]

theorem fsum_isFin : (fsum vs zneg).isFin := by
  rw [fsum_eq hvs]
  split <;> trivial

theorem fsum_val : (fsum vs zneg).val ℝ = (vs.map fun v => v.val ℝ).sum := by
  rw [fsum_eq hvs, ← sumScaled_val]
  split
  case isTrue h => simp [h, FVal.val]
  case isFalse h =>
    have habs : (((sumScaled vs).natAbs : ℕ) : ℝ) = |(sumScaled vs : ℝ)| := by
      rw [← Int.cast_natCast, Int.natCast_natAbs, Int.cast_abs]
    rw [FVal.val_fin, habs]
    by_cases hneg : sumScaled vs < 0
    · simp [hneg, abs_of_neg (Int.cast_lt_zero.mpr hneg)]
    · simp [hneg, abs_of_nonneg (Int.cast_nonneg (not_lt.mp hneg))]

/-- The sign of a sum is that of its value, and the one named where that is zero. -/
theorem fsum_sign : (fsum vs zneg).sign = if (vs.map fun v => v.val ℝ).sum = 0 then zneg else decide ((vs.map fun v => v.val ℝ).sum < 0) := by
  have hpos : (0 : ℝ) < 2 ^ sumExp vs := by positivity
  have hzero : (sumScaled vs : ℝ) * 2 ^ sumExp vs = 0 ↔ sumScaled vs = 0 := by
    rw [mul_eq_zero, or_iff_left hpos.ne', Int.cast_eq_zero]
  have hneg : (sumScaled vs : ℝ) * 2 ^ sumExp vs < 0 ↔ sumScaled vs < 0 := by
    rw [mul_neg_iff, or_iff_right (fun h => hpos.not_gt h.2), and_iff_left hpos, Int.cast_lt_zero]
  simp only [fsum_eq hvs, ← sumScaled_val, hzero, hneg]
  split <;> rfl

end

section
variable {v w : FVal} (rm : Nat) (hv : v.isFin) (hw : w.isFin)
include hv hw

theorem FVal.add_isFin : (v.add rm w).isFin :=
  fsum_isFin (by simp [hv, hw]) _

theorem FVal.add_val : (v.add rm w).val ℝ = v.val ℝ + w.val ℝ := by
  rw [FVal.add, fsum_val (by simp [hv, hw])]
  simp

end

end Sys2Proof.Machine
end

section
/-! PROOFS. Scalings, reciprocals and square roots (06_float.md R124, R125): the clamp of a scale changes no result, and a reciprocal and a
square root are rounded once although they are computed from truncated quotients and roots. -/

namespace Sys2Proof.Machine

theorem Fmt.sig_lt (f : Fmt) (p : Nat) : f.sig p < 2 * 2 ^ f.fbits := by
  have hmod := Nat.mod_lt p (Nat.two_pow_pos f.fbits)
  unfold Fmt.sig
  split <;> omega

theorem Fmt.unitExp_le_expo (f : Fmt) (p : Nat) : f.unitExp ≤ f.expo p := by
  unfold Fmt.expo
  omega

/-- Every finite value of a format is below 2^144. -/
theorem Fmt.Sound.mval_lt {f : Fmt} (hf : f.Sound) {p : Nat} (hp : p ≤ f.maxFin) : f.mval p < 2 ^ (144 : Int) := by
  have hsig : f.sig f.maxFin < 2 ^ 24 :=
    (f.sig_lt _).trans_le (by rw [← Nat.pow_succ']; exact Nat.pow_le_pow_right (by decide) (Nat.succ_le_succ hf.fbits_le))
  calc f.mval p ≤ f.mval f.maxFin := f.mval_le_iff.mpr hp
    _ = f.sig f.maxFin * (2 : ℝ) ^ f.expo f.maxFin := f.mval_eq _
    _ < (2 : ℝ) ^ (24 : Int) * 2 ^ f.expo f.maxFin := mul_lt_mul_of_pos_right (by exact_mod_cast hsig) (by positivity)
    _ = (2 : ℝ) ^ (24 + f.expo f.maxFin) := (zpow_add₀ two_ne_zero _ _).symm
    _ ≤ 2 ^ (144 : Int) := zpow_le_zpow_right₀ one_le_two (by have := hf.expo_maxFin; omega)

/-! Scaling. -/

/-- Positive numbers below half the least positive value round alike. -/
theorem Fmt.Rounds.of_tiny {f : Fmt} {rm : Nat} {neg : Bool} {x y : ℝ} {r : Nat} (h : f.Rounds rm neg x r)
    (hx : 0 < x) (hx1 : 2 * x < f.mval 1) (hy : 0 < y) (hy1 : 2 * y < f.mval 1) : f.Rounds rm neg y r := by
  have hbelow : ∀ z : ℝ, 0 < z → 2 * z < f.mval 1 → f.Below 0 z := fun z hz hz1 => by
    rw [Fmt.Below, f.mval_zero]
    exact ⟨hz.le, show z < f.mval 1 by linarith⟩
  have htakes : f.TakesUpper rm neg 0 x ↔ f.TakesUpper rm neg 0 y := by
    unfold Fmt.TakesUpper
    simp only [f.mval_zero, zero_add, hx1.not_gt, hx1.ne', hy1.not_gt, hy1.ne', hx, hy]
  obtain ⟨p, hp, hup, hdown⟩ := h
  obtain rfl := hp.unique (hbelow x hx hx1)
  exact ⟨0, hbelow y hy hy1, fun ht => hup (htakes.mpr ht), fun ht => hdown (fun ht' => ht (htakes.mp ht'))⟩

section
variable {ct : Nat} (hct : ct ≤ 4) {rm : Nat}
include hct

theorem fdec_bounds {a : Nat} (ha : (fdec ct a).isFin) : ∃ n m e, fdec ct a = .fin n m e ∧ m < 2 * 2 ^ (fmtOf ct).fbits
    ∧ (fmtOf ct).unitExp ≤ e ∧ m * (2 : ℝ) ^ e ≤ (fmtOf ct).mval (fmtOf ct).maxFin := by
  have hfin := (isFin_fdec hct a).mp ha
  refine ⟨_, _, _, fdec_finite hct hfin, Fmt.sig_lt _ _, Fmt.unitExp_le_expo _ _, ?_⟩
  rw [← Fmt.mval_eq]
  exact (fmtOf ct).mval_le_iff.mpr hfin

theorem roundsTo_of_out_of_range {v : ℝ} {r : Nat} (h : (2 : ℝ) ^ (144 : Int) ≤ |v|) : RoundsTo ct rm v r := fun hrange =>
  absurd (hrange.trans_eq (val_maxFin hct)) (not_le.mpr (((fmtOf_sound ct).mval_lt le_rfl).trans_le h))

theorem scale_roundsTo {n : Bool} {m : Nat} {e k : Int} : RoundsTo ct rm ((FVal.fin n m e).val ℝ * 2 ^ k) (fenc ct rm (.fin n m (e + k))) := by
  have h := fenc_roundsTo hct (rm := rm) (v := .fin n m (e + k)) trivial
  rwa [FVal.val_fin, zpow_add₀ two_ne_zero, ← mul_assoc, ← FVal.val_fin] at h

/-- A scale beyond the clamp gives what the clamped one gives (R124). -/
theorem scale_clamped_roundsTo {a : Nat} {n : Bool} {m : Nat} {e : Int} (ha : fdec ct a = .fin n m e) (k : Int) :
    RoundsTo ct rm ((fdec ct a).val ℝ * 2 ^ k) (fenc ct rm (.fin n m (e + max (-4096) (min 4096 k)))) := by
  obtain ⟨n', m', e', hdec, -, hlow, hle⟩ := fdec_bounds hct (a := a) (by rw [ha]; trivial)
  have hhigh := hle.trans_lt ((fmtOf_sound ct).mval_lt le_rfl)
  obtain ⟨rfl, rfl, rfl⟩ := FVal.fin.inj (ha.symm.trans hdec)
  have hunit := (fmtOf_sound ct).unitExp_ge
  rw [ha]
  by_cases hin : -4096 ≤ k ∧ k ≤ 4096
  · rw [min_eq_right hin.2, max_eq_right hin.1]
    exact scale_roundsTo hct
  rcases Nat.eq_zero_or_pos m with rfl | hm
  · have h := fenc_roundsTo hct (rm := rm) (v := .fin n 0 (e + max (-4096) (min 4096 k))) trivial
    simpa [FVal.val_fin] using h
  have hm1 : (1 : ℝ) ≤ m := by exact_mod_cast hm
  have habs : ∀ j : Int, |(FVal.fin n m e).val ℝ * 2 ^ j| = m * 2 ^ (e + j) := fun j => by
    rw [abs_mul, FVal.abs_val_fin, abs_of_pos (by positivity : (0 : ℝ) < 2 ^ j), mul_assoc, ← zpow_add₀ two_ne_zero]
  by_cases hbig : 4096 < k
  · apply roundsTo_of_out_of_range hct
    rw [habs]
    calc (2 : ℝ) ^ (144 : Int) ≤ 2 ^ (e + k) := zpow_le_zpow_right₀ one_le_two (by omega)
      _ ≤ m * 2 ^ (e + k) := le_mul_of_one_le_left (by positivity) hm1
  · have hk : k < -4096 := by omega
    rw [min_eq_right (by omega), max_eq_left hk.le]
    have htiny : ∀ j : Int, j ≤ -4096 → 0 < m * (2 : ℝ) ^ (e + j) ∧ 2 * (m * (2 : ℝ) ^ (e + j)) < (fmtOf ct).mval 1 := fun j hj => by
      refine ⟨by positivity, ?_⟩
      have hone : (fmtOf ct).mval 1 = 2 ^ (fmtOf ct).unitExp := by
        have h := (fmtOf ct).mval_add (n := 1) (j := 0) (by have := Nat.two_pow_pos (fmtOf ct).fbits; omega) (.inl rfl)
        simpa using h
      rw [hone, zpow_add₀ two_ne_zero]
      calc 2 * (m * ((2 : ℝ) ^ e * 2 ^ j)) = m * (2 : ℝ) ^ e * (2 ^ (1 : Int) * 2 ^ j) := by rw [zpow_one]; ring
        _ < 2 ^ (144 : Int) * (2 ^ (1 : Int) * 2 ^ j) := mul_lt_mul_of_pos_right hhigh (by positivity)
        _ = 2 ^ (144 + (1 + j)) := by rw [zpow_add₀ two_ne_zero, zpow_add₀ two_ne_zero]
        _ ≤ 2 ^ (fmtOf ct).unitExp := zpow_le_zpow_right₀ one_le_two (by omega)
    have hr := fenc_rounds hct (rm := rm) (v := .fin n m (e + -4096)) trivial
    rw [FVal.abs_val_fin] at hr
    have h := roundsTo_of_rounds hct (hr.of_tiny (htiny _ le_rfl).1 (htiny _ le_rfl).2 (htiny k hk.le).1 (htiny k hk.le).2) (by positivity)
    rwa [zpow_add₀ two_ne_zero, ← mul_assoc, ← mul_assoc] at h

end

/-! Reciprocals. -/

theorem Fmt.reads_reciprocal {f : Fmt} (hf : f.Sound) {m : Nat} {e : Int} (hm : m ≠ 0) (hlt : m < 2 * 2 ^ f.fbits) :
    f.Reads (2 ^ 80 / m) (-80 - e) (2 ^ 80 % m != 0) (1 / (m * (2 : ℝ) ^ e)) := by
  have hpos : (0 : ℝ) < m := by exact_mod_cast Nat.pos_of_ne_zero hm
  have hx : 1 / (m * (2 : ℝ) ^ e) = (2 : ℝ) ^ 80 / m * 2 ^ (-80 - e) := by
    rw [zpow_sub₀ two_ne_zero, zpow_neg]
    field_simp
  have hw : (0 : ℝ) < 2 ^ (-80 - e) := by positivity
  have hdm : (2 : ℝ) ^ 80 = m * ((2 ^ 80 / m : ℕ) : ℝ) + ((2 ^ 80 % m : ℕ) : ℝ) := by
    exact_mod_cast (Nat.div_add_mod (2 ^ 80) m).symm
  have hmod : ((2 ^ 80 % m : ℕ) : ℝ) < m := by exact_mod_cast Nat.mod_lt _ (Nat.pos_of_ne_zero hm)
  have hquot : (2 : ℝ) ^ 80 / m = ((2 ^ 80 / m : ℕ) : ℝ) + ((2 ^ 80 % m : ℕ) : ℝ) / m := by
    rw [hdm]; field_simp
  rw [hx, hquot]
  refine ⟨mul_le_mul_of_nonneg_right (le_add_of_nonneg_right (by positivity)) hw.le, mul_lt_mul_of_pos_right ?_ hw, ?_, fun _ => ?_⟩
  · exact add_lt_add_right ((div_lt_one hpos).mpr hmod) _
  · rw [bne_iff_ne, ne_eq, ne_eq, mul_left_inj' hw.ne', add_eq_left, div_eq_zero_iff, or_iff_left hpos.ne', Nat.cast_eq_zero]
  · have hwide : 2 ^ (f.fbits + 1) ≤ 2 ^ 24 := Nat.pow_le_pow_right (by decide) (Nat.succ_le_succ hf.fbits_le)
    rw [← Nat.pow_succ'] at hlt
    exact (Nat.le_div_iff_mul_le (Nat.pos_of_ne_zero hm)).mpr
      ((Nat.mul_le_mul hwide (hlt.le.trans hwide)).trans (by decide))

/-! Square roots. -/

/-- `isqrt` finds the integral part of a square root between r and r + 2^(k+1). -/
theorem isqrt_spec (x r k : Nat) (hr : r * r ≤ x) (hlt : x < (r + 2 ^ (k + 1)) * (r + 2 ^ (k + 1))) :
    isqrt x r k * isqrt x r k ≤ x ∧ x < (isqrt x r k + 1) * (isqrt x r k + 1) := by
  induction k generalizing r with
  | zero =>
    rw [isqrt]
    split
    case isTrue h => exact ⟨h, hlt⟩
    case isFalse h => exact ⟨hr, by omega⟩
  | succ j ih =>
    rw [isqrt]
    split
    case isTrue h => exact ih _ h (by rwa [Nat.add_assoc, ← Nat.two_mul, ← Nat.pow_succ'])
    case isFalse h => exact ih _ hr (Nat.not_le.mp h)

theorem Fmt.reads_sqrt {f : Fmt} (hf : f.Sound) {m k r : Nat} {e : Int} (hm : m ≠ 0) (hk : 80 ≤ k) (heven : (e - k) % 2 = 0)
    (hle : r * r ≤ m * 2 ^ k) (hlt : m * 2 ^ k < (r + 1) * (r + 1)) :
    f.Reads r ((e - k) / 2) (r * r != m * 2 ^ k) (Real.sqrt (m * (2 : ℝ) ^ e)) := by
  have hw : (0 : ℝ) < 2 ^ ((e - k) / 2) := by positivity
  have hsplit : (m : ℝ) * 2 ^ e = (m * 2 ^ k) * (2 ^ ((e - k) / 2)) ^ 2 := by
    rw [← zpow_natCast, ← zpow_natCast, ← zpow_mul, mul_assoc, ← zpow_add₀ two_ne_zero]
    congr 2
    push_cast
    omega
  have hx : Real.sqrt (m * (2 : ℝ) ^ e) = Real.sqrt (m * 2 ^ k) * 2 ^ ((e - k) / 2) := by
    rw [hsplit, Real.sqrt_mul (by positivity), Real.sqrt_sq hw.le]
  have hle' : (r : ℝ) ^ 2 ≤ m * 2 ^ k := by rw [sq]; exact_mod_cast hle
  have hlt' : (m : ℝ) * 2 ^ k < ((r : ℝ) + 1) ^ 2 := by rw [sq]; exact_mod_cast hlt
  rw [hx]
  refine ⟨mul_le_mul_of_nonneg_right (Real.le_sqrt_of_sq_le hle') hw.le, mul_lt_mul_of_pos_right ?_ hw, ?_, fun _ => ?_⟩
  · exact (Real.sqrt_lt' (by positivity)).mpr hlt'
  · rw [bne_iff_ne, ne_eq, ne_eq, mul_left_inj' hw.ne', Real.sqrt_eq_iff_mul_self_eq (by positivity) (by positivity)]
    rw [eq_comm]
    exact not_congr (by exact_mod_cast Iff.rfl)
  · have hwide : 2 ^ (f.fbits + 1) ≤ 2 ^ 24 := Nat.pow_le_pow_right (by decide) (Nat.succ_le_succ hf.fbits_le)
    have hbig : 2 ^ 80 ≤ m * 2 ^ k :=
      (Nat.pow_le_pow_right (by decide) hk).trans (Nat.le_mul_of_pos_left _ (Nat.pos_of_ne_zero hm))
    have hr : 2 ^ 40 < r + 1 := by
      by_contra hc
      have := Nat.mul_self_le_mul_self (not_lt.mp hc)
      omega
    omega

end Sys2Proof.Machine
end

section
/-! PROOFS. The results of the float instructions (06_float.md R108, R109): correctly rounded, and canonical where they are NaNs. -/

namespace Sys2Proof.Machine

theorem significand_ne_zero {ct a : Nat} {n : Bool} {m : Nat} {e : Int} (ha : fdec ct a = .fin n m e)
    (h : fval ct a ≠ 0) : m ≠ 0 := by
  rintro rfl
  exact h (by rw [fval, ha]; simp [FVal.val])

/-- `fsqrtFin` rounds the square root once (R125). -/
theorem fsqrtFin_rounds {ct rm m : Nat} {e : Int} (hm : m ≠ 0) (hlt : m < 2 * 2 ^ (fmtOf ct).fbits) :
    (fmtOf ct).Rounds rm false (Real.sqrt (m * (2 : ℝ) ^ e)) (fsqrtFin rm ct m e) := by
  have hf := fmtOf_sound ct
  have hbits : m < 2 ^ 24 :=
    hlt.trans_le (by rw [← Nat.pow_succ']; exact Nat.pow_le_pow_right (by decide) (Nat.succ_le_succ hf.fbits_le))
  have hcases : ∃ k : Nat, 80 ≤ k ∧ k ≤ 81 ∧ (e - k) % 2 = 0 ∧ (if e % 2 == 0 then 80 else 81) = k := by
    by_cases he : e % 2 = 0
    · exact ⟨80, by omega, by omega, by omega, by simp [he]⟩
    · exact ⟨81, by omega, by omega, by omega, by simp [he]⟩
  obtain ⟨k, hk, hk', heven, hkeq⟩ := hcases
  have hsmall : m * 2 ^ k < (0 + 2 ^ (60 + 1)) * (0 + 2 ^ (60 + 1)) :=
    calc m * 2 ^ k ≤ 2 ^ 24 * 2 ^ 81 := Nat.mul_le_mul hbits.le (Nat.pow_le_pow_right (by decide) hk')
      _ < _ := by decide
  obtain ⟨hle, hgt⟩ := isqrt_spec (m * 2 ^ k) 0 60 (Nat.zero_le _) hsmall
  have h := (fmtOf ct).round_rounds hf (rm := rm) (neg := false) (Fmt.reads_sqrt hf hm hk heven hle hgt)
  rwa [← Nat.shiftLeft_eq, ← hkeq] at h

/-! Each operation, correctly rounded. -/

/-- FDOT2 rounds its exact sum once, in FP32 (R118). -/
theorem fdot2_roundsTo {ct rm a b a1 b1 z : Nat} (ha' : a < 2 ^ 16) (hb' : b < 2 ^ 16) (ha : (fdec ct a).isFin) (hb : (fdec ct b).isFin)
    (ha1 : (fdec ct a1).isFin) (hb1 : (fdec ct b1).isFin) (hz : (fdec 0 z).isFin) :
    RoundsTo 0 rm (fval ct a * fval ct b + fval ct a1 * fval ct b1 + fval 0 z) (fdot2 rm ct (a + 2 ^ 16 * a1) (b + 2 ^ 16 * b1) z) := by
  have hlow : ∀ {x y : Nat}, x < 2 ^ 16 → (x + 2 ^ 16 * y) % 65536 = x ∧ (x + 2 ^ 16 * y) / 65536 = y := fun h => by omega
  have hfin : ∀ v ∈ [(fdec ct a).mul (fdec ct b), (fdec ct a1).mul (fdec ct b1), fdec 0 z], v.isFin := by
    simp [FVal.mul_isFin ha hb, FVal.mul_isFin ha1 hb1, hz]
  have hsum := fsum_val hfin (rm == 3 || [(fdec ct a).mul (fdec ct b), (fdec ct a1).mul (fdec ct b1), fdec 0 z].all fun t => t.isZero true)
  have h := fenc_roundsTo (ct := 0) (by decide) (rm := rm) (fsum_isFin hfin
    (rm == 3 || [(fdec ct a).mul (fdec ct b), (fdec ct a1).mul (fdec ct b1), fdec 0 z].all fun t => t.isZero true))
  rw [hsum] at h
  rw [fdot2, (hlow ha').1, (hlow ha').2, (hlow hb').1, (hlow hb').2]
  simpa only [List.map_cons, List.map_nil, List.sum_cons, List.sum_nil, add_zero, ← add_assoc, FVal.mul_val ha hb, FVal.mul_val ha1 hb1, fval]
    using h

section
variable {ct : Nat} (hct : ct ≤ 4) {rm : Nat}
include hct

section
variable {a b c : Nat} (ha : (fdec ct a).isFin)
include ha

theorem fadd_roundsTo (hb : (fdec ct b).isFin) : RoundsTo ct rm (fval ct a + fval ct b) (farith 0 rm ct a b c) := by
  rw [fval, fval, ← FVal.add_val rm ha hb]
  exact fenc_roundsTo hct (FVal.add_isFin rm ha hb)

theorem fsub_roundsTo (hb : (fdec ct b).isFin) : RoundsTo ct rm (fval ct a - fval ct b) (farith 1 rm ct a b c) := by
  rw [fval, fval, sub_eq_add_neg, ← FVal.negate_val, ← FVal.add_val rm ha (FVal.negate_isFin hb)]
  exact fenc_roundsTo hct (FVal.add_isFin rm ha (FVal.negate_isFin hb))

theorem fmul_roundsTo (hb : (fdec ct b).isFin) : RoundsTo ct rm (fval ct a * fval ct b) (farith 2 rm ct a b c) := by
  rw [fval, fval, ← FVal.mul_val ha hb]
  exact fenc_roundsTo hct (FVal.mul_isFin ha hb)

theorem ffma_roundsTo (hb : (fdec ct b).isFin) (hc : (fdec ct c).isFin) :
    RoundsTo ct rm (fval ct a * fval ct b + fval ct c) (farith 3 rm ct a b c) := by
  rw [fval, fval, fval, ← FVal.mul_val ha hb, ← FVal.add_val rm (FVal.mul_isFin ha hb) hc]
  exact fenc_roundsTo hct (FVal.add_isFin rm (FVal.mul_isFin ha hb) hc)

theorem fscl_roundsTo (n : W32) : RoundsTo ct rm (fval ct a * 2 ^ n.toInt) (fscl false rm ct a n) := by
  obtain ⟨s, m, e, h⟩ := FVal.isFin_iff.mp ha
  have hs := scale_clamped_roundsTo hct (rm := rm) h n.toInt
  simpa only [fscl, h, Bool.false_and, Bool.false_eq_true, if_false, fval] using hs

theorem fscl_e8_roundsTo {n : W32} (hn : n.toNat % 256 ≠ 255) :
    RoundsTo ct rm (fval ct a * 2 ^ ((n.toNat % 256 : Int) - 127)) (fscl true rm ct a n) := by
  obtain ⟨s, m, e, h⟩ := FVal.isFin_iff.mp ha
  have hs := scale_roundsTo hct (rm := rm) (n := s) (m := m) (e := e) (k := (n.toNat % 256 : Int) - 127)
  simpa only [fscl, h, Bool.true_and, beq_eq_false_iff_ne.mpr hn, Bool.false_eq_true, if_false, if_true, fval] using hs

theorem frcp_roundsTo (h0 : fval ct a ≠ 0) : RoundsTo ct rm (1 / fval ct a) (frcp rm ct a) := by
  obtain ⟨n, m, e, h, hlt, -, -⟩ := fdec_bounds hct ha
  have hm := significand_ne_zero h h0
  have hr := (fmtOf ct).round_rounds (fmtOf_sound ct) (rm := rm) (neg := n)
    (Fmt.reads_reciprocal (fmtOf_sound ct) (e := e) hm hlt)
  have hval : 1 / fval ct a = (if n then -1 else 1) * (1 / (m * (2 : ℝ) ^ e)) := by
    rw [fval, h, FVal.val_fin, mul_assoc]
    cases n <;> simp
  have hres : frcp rm ct a = frcpFin rm ct n m e := by simp only [frcp, h, beq_iff_eq, hm, if_false]
  rw [hval, hres]
  exact roundsTo_of_rounds hct hr (by positivity)

theorem fsqrt_roundsTo (h0 : 0 < fval ct a) : RoundsTo ct rm (Real.sqrt (fval ct a)) (fsqrt rm ct a) := by
  obtain ⟨n, m, e, h, hlt, -, -⟩ := fdec_bounds hct ha
  have hm := significand_ne_zero h h0.ne'
  have hval : fval ct a = (if n then -1 else 1) * (m * (2 : ℝ) ^ e) := by rw [fval, h, FVal.val_fin, mul_assoc]
  have hpos : (0 : ℝ) ≤ m * (2 : ℝ) ^ e := by positivity
  obtain rfl : n = false := by
    cases n
    · rfl
    · rw [hval, if_pos rfl] at h0
      linarith
  have hres : fsqrt rm ct a = fsqrtFin rm ct m e := by simp only [fsqrt, h, beq_iff_eq, hm, if_false, Bool.false_eq_true]
  have h := roundsTo_of_rounds hct (fsqrtFin_rounds (rm := rm) (e := e) hm hlt) (Real.sqrt_nonneg _)
  simp only [Bool.false_eq_true, if_false, one_mul] at hval h
  rwa [hval, hres]

end

end

/-! Canonical NaNs (R109). -/

/-- What FMIN and FMAX give: a canonical NaN, or an operand that is no NaN. -/
theorem fminmax_cases {ct : Nat} (mx nan : Bool) (a b : Nat) : fminmax mx nan ct a b = (fmtOf ct).nan
    ∨ ∃ x, (fdec ct x).isNan = false ∧ fminmax mx nan ct a b = x % 2 ^ ((fmtOf ct).mag + 1) := by
  cases ha : (fdec ct a).isNan <;> cases hb : (fdec ct b).isNan
  · right
    by_cases h : ((fdec ct a).lt (fdec ct b) || ((fdec ct a).eqv (fdec ct b) && (fdec ct a).sign && !(fdec ct b).sign)) = mx
    · exact ⟨b, hb, by simp [fminmax, ha, hb, h]⟩
    · exact ⟨a, ha, by simp [fminmax, ha, hb, h]⟩
  · cases nan
    · exact .inr ⟨a, ha, by simp [fminmax, ha, hb]⟩
    · exact .inl (by simp [fminmax, ha, hb])
  · cases nan
    · exact .inr ⟨b, hb, by simp [fminmax, ha, hb]⟩
    · exact .inl (by simp [fminmax, ha, hb])
  · exact .inl (by simp [fminmax, ha, hb])

theorem frnd_eq (rm ct a : Nat) : ∃ v, frnd rm ct a = fenc ct rm v := by
  unfold frnd
  cases fdec ct a <;> exact ⟨_, rfl⟩

section
variable {ct : Nat} (hct : ct ≤ 4)
include hct

theorem fdec_mod (x : Nat) : fdec ct (x % 2 ^ ((fmtOf ct).mag + 1)) = fdec ct x := by
  have h5 : ¬ (ct == 5) = true := by rw [beq_iff_eq]; omega
  rw [fdec, fdec, if_neg h5, if_neg h5, Nat.mod_mod]

theorem fminmax_canonical {mx nan : Bool} {a b : Nat} (h : (fdec ct (fminmax mx nan ct a b)).isNan = true) :
    fminmax mx nan ct a b = (fmtOf ct).nan := by
  rcases fminmax_cases mx nan a b with h' | ⟨x, hx, h'⟩
  · exact h'
  · rw [h', fdec_mod hct, hx] at h
    exact Bool.noConfusion h

end

/-- Settles O21: each operation encodes its exact value, and `fenc_roundsTo` rounds it. -/
theorem floatRounding : Obligations.FloatRounding := by
  unfold Obligations.FloatRounding
  refine ⟨fun ct rm x hct _ hx hnan => fenc_fdec hct hx hnan, fun op rm ct a b c hct => ⟨?arith, ?minMax, ?convert, ?round⟩, ?rounding⟩
  case arith => exact fenc_canonical hct
  case minMax => exact fun mx nan => fminmax_canonical hct
  case convert => exact fun st _ => fenc_canonical hct
  case round =>
    obtain ⟨v, hv⟩ := frnd_eq rm ct a
    rw [hv]
    exact fenc_canonical hct
  case rounding =>
    intro val fin rounds ct rm a b c hct hrm ha hb hc
    refine ⟨fadd_roundsTo hct ha hb, fsub_roundsTo hct ha hb, fmul_roundsTo hct ha hb, ffma_roundsTo hct ha hb hc,
      fun st x _ hx => fenc_roundsTo hct hx, fun n => ⟨fscl_roundsTo hct ha n, fscl_e8_roundsTo hct ha⟩, frcp_roundsTo hct ha,
      fsqrt_roundsTo hct ha, ?dot⟩
    intro a1 b1 z _ hct2 hasmall hbsmall _ _ ha1 hb1 hz
    exact fdot2_roundsTo hasmall hbsmall ha hb ha1 hb1 hz

end Sys2Proof.Machine
end

section
/-! PROOFS. Laws of float arithmetic (06_float.md R113, R120, R121): order of operands, products with 1.0, and integers on the way to a
format and back. -/

namespace Sys2Proof.Machine

/-! Order of operands. -/

theorem FVal.mul_comm (v w : FVal) : v.mul w = w.mul v := by
  cases v <;> cases w <;> simp [FVal.mul, Nat.mul_comm, Int.add_comm, bne_comm]

theorem fsum_pair_comm (v w : FVal) (zneg : Bool) : fsum [v, w] zneg = fsum [w, v] zneg := by
  have hexp : sumExp [v, w] = sumExp [w, v] := min_right_comm 0 v.exp w.exp
  have hscaled : sumScaled [v, w] = sumScaled [w, v] := by
    simp only [sumScaled, List.foldl_cons, List.foldl_nil, hexp, Int.zero_add, Int.add_comm]
  rw [fsum_def, fsum_def, hexp, hscaled]
  cases v with
  | nan => cases w <;> rfl
  | fin n m e => cases w <;> rfl
  | inf n => cases w with
    | nan => rfl
    | fin n' m e => rfl
    | inf n' => cases n <;> cases n' <;> rfl

theorem FVal.add_comm (rm : Nat) (v w : FVal) : v.add rm w = w.add rm v := by
  rw [FVal.add, FVal.add, fsum_pair_comm, Bool.and_comm, Bool.and_comm (v.isZero false)]

/-! Products with 1.0. -/

theorem fdec_one : ∀ ct ≤ 4, fdec ct ((fmtOf ct).bias * 2 ^ (fmtOf ct).fbits) = .fin false (2 ^ (fmtOf ct).fbits) (-(fmtOf ct).fbits) := by
  decide

/-- A sum's pattern depends on the value and the zero sign of its terms alone. -/
theorem fenc_add_congr {ct rm : Nat} (hct : ct ≤ 4) {v w : FVal} (hv : v.isFin) (hw : w.isFin) (hval : v.val ℝ = w.val ℝ)
    (hzero : ∀ n, v.isZero n = w.isZero n) (z : FVal) : fenc ct rm (v.add rm z) = fenc ct rm (w.add rm z) := by
  by_cases hz : z.isFin
  · have hsum : ((([v, z]).map fun v => v.val ℝ).sum) = (([w, z]).map fun v => v.val ℝ).sum := by simp [hval]
    refine fenc_congr hct (FVal.add_isFin rm hv hz) (FVal.add_isFin rm hw hz) ?_ ?_
    · rw [FVal.add, FVal.add, fsum_sign (by simp [hv, hz]), fsum_sign (by simp [hw, hz]), hsum, hzero, hzero]
    · rw [FVal.add_val rm hv hz, FVal.add_val rm hw hz, hval]
  · obtain ⟨n, m, e, rfl⟩ := FVal.isFin_iff.mp hv
    obtain ⟨n', m', e', rfl⟩ := FVal.isFin_iff.mp hw
    cases z with
    | nan | inf k => rfl
    | fin k m e => exact absurd trivial hz

/-- A product with 1.0 has the value and the zero sign of its other factor. -/
theorem farith_mul_one_add {ct : Nat} (hct : ct ≤ 4) (rm a c : Nat) :
    farith 3 rm ct a ((fmtOf ct).bias * 2 ^ (fmtOf ct).fbits) c = farith 0 rm ct a c 0 := by
  simp only [farith, fdec_one ct hct]
  cases ha : fdec ct a with
  | nan => rfl
  | inf n => simp [FVal.mul]
  | fin n m e =>
    refine fenc_add_congr hct (v := .fin (n != false) _ _) (w := .fin n m e) trivial trivial ?_ (fun k => ?_) _
    · have hone : (2 : ℝ) ^ (fmtOf ct).fbits * 2 ^ (-((fmtOf ct).fbits : Int)) = 1 := by simp
      rw [FVal.val_fin, FVal.val_fin, zpow_add₀ two_ne_zero, Bool.bne_false, Nat.cast_mul, Nat.cast_pow, Nat.cast_two]
      linear_combination ((if n then -1 else 1) * (m : ℝ) * 2 ^ e) * hone
    · have hzero : (m * 2 ^ (fmtOf ct).fbits == 0) = (m == 0) := by rw [Bool.eq_iff_iff]; simp
      simp only [FVal.isZero, Bool.bne_false, hzero]

/-! Values that a type holds. -/

/-- A number with no more bits than a significand, none below the least positive value, is a pattern's. -/
theorem Fmt.exists_mval_eq {f : Fmt} {m : Nat} {e : Int} (hm : m < 2 * 2 ^ f.fbits) (he : f.unitExp ≤ e) :
    ∃ p, f.mval p = m * (2 : ℝ) ^ e := by
  rcases Nat.eq_zero_or_pos m with rfl | hpos
  · exact ⟨0, by simp⟩
  · have hlog : Nat.log2 m < f.fbits + 1 := (Nat.log2_lt hpos.ne').mpr (by rwa [Nat.pow_succ'])
    have hcut : f.cut m e ≤ e := by
      unfold Fmt.unitExp at he
      unfold Fmt.cut
      omega
    have hrest : f.rest m e = 0 := if_neg (by omega)
    have hdropped : f.dropped m e = 0 := Int.toNat_of_nonpos (by omega)
    obtain ⟨hle, hbin⟩ := f.kept_le e hpos.ne'
    refine ⟨f.kept m e + f.binade m e * 2 ^ f.fbits, ?_⟩
    rw [f.mval_add hle.le hbin, ← f.cut_eq, f.kept_rest m e, hrest, hdropped]
    simp

/-- A value that a type holds is that of its pattern. -/
theorem fdec_fenc_of_holds {ct : Nat} (hct : ct ≤ 4) {rm : Nat} {v : FVal} (hv : v.isFin) {m : Nat} {e : Int}
    (hm : m < 2 * 2 ^ (fmtOf ct).fbits) (he : (fmtOf ct).unitExp ≤ e) (hval : |v.val ℝ| = m * (2 : ℝ) ^ e)
    (hmax : |v.val ℝ| ≤ (fmtOf ct).mval (fmtOf ct).maxFin) :
    ∃ m' e', fdec ct (fenc ct rm v) = .fin v.sign m' e' ∧ m' * (2 : ℝ) ^ e' = |v.val ℝ| := by
  obtain ⟨p, hp⟩ := Fmt.exists_mval_eq hm he
  rw [← hval] at hp
  have hle : p ≤ (fmtOf ct).maxFin := (fmtOf ct).mval_le_iff.mp (hp ▸ hmax)
  rw [fenc_of_mval hct hv hle hp.symm, fdec_add_sign hct hle]
  exact ⟨_, _, rfl, by rw [← Fmt.mval_eq, hp]⟩

/-! Integers (R120, R121). -/

/-- What an integer is before it is rounded. -/
def intVal (i : Int) : FVal := .fin (decide (i < 0)) i.natAbs 0

theorem i2f_eq (rm ct : Nat) (i : Int) : i2f rm ct i = fenc ct rm (intVal i) := by
  rw [i2f]
  split
  case isTrue h => rw [beq_iff_eq.mp h]; rfl
  case isFalse => rfl

theorem abs_val_intVal (i : Int) : |(intVal i).val ℝ| = i.natAbs := by
  rw [intVal, FVal.abs_val_fin]
  simp

theorem two_pow_24_le_maxFin : (2 : ℝ) ^ 24 ≤ (fmtOf 0).mval (fmtOf 0).maxFin := by
  rw [Fmt.mval_eq, show (fmtOf 0).sig (fmtOf 0).maxFin = 2 ^ 24 - 1 by decide, show (fmtOf 0).expo (fmtOf 0).maxFin = 104 by decide]
  norm_num

/-- An integer of at most 24 bits is a value of FP32. -/
theorem fdec_i2f (rm : Nat) {i : Int} (hi : |i| ≤ 2 ^ 24) : ∃ m e, fdec 0 (i2f rm 0 i) = .fin (decide (i < 0)) m e
    ∧ m * (2 : ℝ) ^ e = i.natAbs := by
  have hn : i.natAbs ≤ 2 ^ 24 := by rw [abs_le] at hi; omega
  have hle : |(intVal i).val ℝ| ≤ (fmtOf 0).mval (fmtOf 0).maxFin := by
    rw [abs_val_intVal]
    exact le_trans (by exact_mod_cast hn) two_pow_24_le_maxFin
  have hholds : ∃ m : Nat, ∃ e : Int, m < 2 * 2 ^ (fmtOf 0).fbits ∧ (fmtOf 0).unitExp ≤ e ∧ |(intVal i).val ℝ| = m * (2 : ℝ) ^ e := by
    rcases Nat.lt_or_eq_of_le hn with hlt | heq
    · exact ⟨i.natAbs, 0, hlt, by decide, by rw [abs_val_intVal]; simp⟩
    · exact ⟨1, 24, by decide, by decide, by rw [abs_val_intVal, heq]; norm_num⟩
  obtain ⟨m, e, hm, he, hval⟩ := hholds
  have h := fdec_fenc_of_holds (ct := 0) (by decide) (rm := rm) (v := intVal i) trivial hm he hval hle
  rwa [← i2f_eq, abs_val_intVal] at h

/-- Whether a magnitude x with the integral part k rounds to k + 1 (R108). -/
def TakesNext {K : Type} [Field K] [LinearOrder K] (rm : Nat) (neg : Bool) (k : Nat) (x : K) : Prop :=
  UpperTaken rm neg (2 * (k : K) + 1 < 2 * x) (2 * (k : K) + 1 = 2 * x ∧ k % 2 = 1) ((k : K) < x)

section
variable {K : Type} [Field K] [LinearOrder K] [IsStrictOrderedRing K] (rm : Nat) (neg : Bool)

theorem not_takesNext_self (k : Nat) : ¬ TakesNext rm neg k (k : K) :=
  not_upperTaken (by linarith) (fun h => by linarith [h.1]) (lt_irrefl _)

/-- Dropping s bits of m rounds m / 2^s. -/
theorem roundsUp_iff_takesNext (m s : Nat) : roundsUp rm neg (m / 2 ^ s % 2 == 1) (m % 2 ^ s) s false = true
    ↔ TakesNext rm neg (m / 2 ^ s) (m * (2 : K) ^ (-(s : Int))) := by
  have hw : (0 : K) < 2 ^ s := by positivity
  have hdm : (m : K) = (m / 2 ^ s : Nat) * 2 ^ s + (m % 2 ^ s : Nat) := by exact_mod_cast (Nat.div_add_mod' m (2 ^ s)).symm
  have hx : (m : K) * 2 ^ (-(s : Int)) * 2 ^ s = (m / 2 ^ s : Nat) * 2 ^ s + (m % 2 ^ s : Nat) := by
    rw [zpow_neg, zpow_natCast, inv_mul_cancel_right₀ hw.ne', ← hdm]
  rw [roundsUp_iff (K := K) rm neg _ le_rfl (lt_add_one _) (by simp) fun h => by subst h; exact ⟨Nat.mod_one m, rfl⟩]
  unfold TakesNext
  generalize (m : K) * 2 ^ (-(s : Int)) = x at *
  generalize m / 2 ^ s = k at *
  generalize m % 2 ^ s = r at *
  have hrest : (x - k) * 2 ^ s = r := by linarith
  have htwice : (2 * x - (2 * k + 1)) * 2 ^ s = 2 * r - 2 ^ s := by linarith
  have hpos : (0 : K) < r ↔ (k : K) < x := by rw [← hrest, mul_pos_iff_of_pos_right hw, sub_pos]
  have hmid : (2 : K) ^ s < 2 * r ↔ 2 * (k : K) + 1 < 2 * x := by
    rw [← sub_pos, ← htwice, mul_pos_iff_of_pos_right hw, sub_pos]
  have htie : (2 : K) ^ s = 2 * r ↔ 2 * (k : K) + 1 = 2 * x := by
    rw [eq_comm, ← sub_eq_zero, ← htwice, mul_eq_zero, or_iff_left hw.ne', sub_eq_zero, eq_comm]
  rw [hpos, hmid, htie, beq_iff_eq]

/-- A magnitude rounded to an integer is its integral part or the next integer, as R108 says. -/
theorem roundInt_spec (m : Nat) (e : Int) : ∃ k : Nat, (k : K) ≤ m * 2 ^ e ∧ m * (2 : K) ^ e < k + 1
    ∧ (TakesNext rm neg k (m * (2 : K) ^ e) → roundInt rm neg m e = k + 1)
    ∧ (¬ TakesNext rm neg k (m * (2 : K) ^ e) → roundInt rm neg m e = k) := by
  by_cases he : 0 ≤ e
  · obtain ⟨d, rfl⟩ := Int.eq_ofNat_of_zero_le he
    have hround : roundInt rm neg m d = m * 2 ^ d := by rw [roundInt, if_pos he, Nat.shiftLeft_eq, Int.toNat_natCast]
    have hval : (m : K) * 2 ^ (d : Int) = (m * 2 ^ d : Nat) := by push_cast; rw [zpow_natCast]
    rw [hround, hval]
    exact ⟨m * 2 ^ d, le_rfl, lt_add_one _, fun h => absurd h (not_takesNext_self rm neg _), fun _ => rfl⟩
  · obtain ⟨s, hs⟩ := Int.eq_ofNat_of_zero_le (show 0 ≤ -e by omega)
    obtain rfl : e = -(s : Int) := by omega
    have hround : roundInt rm neg m (-(s : Int)) =
        if roundsUp rm neg (m / 2 ^ s % 2 == 1) (m % 2 ^ s) s false then m / 2 ^ s + 1 else m / 2 ^ s := by
      simp only [roundInt, if_neg he, hs, Int.toNat_natCast, Nat.shiftRight_eq_div_pow]
    have hw : (0 : K) < 2 ^ s := by positivity
    have hlow : ((m / 2 ^ s : Nat) : K) ≤ m * 2 ^ (-(s : Int)) := by
      rw [zpow_neg, zpow_natCast, ← div_eq_mul_inv, le_div_iff₀ hw]
      exact_mod_cast Nat.div_mul_le_self m (2 ^ s)
    have hhigh : (m : K) * 2 ^ (-(s : Int)) < (m / 2 ^ s : Nat) + 1 := by
      rw [zpow_neg, zpow_natCast, ← div_eq_mul_inv, div_lt_iff₀ hw]
      exact_mod_cast Nat.lt_mul_of_div_lt (Nat.lt_succ_self (m / 2 ^ s)) (Nat.two_pow_pos s)
    rw [hround]
    exact ⟨m / 2 ^ s, hlow, hhigh, fun h => if_pos ((roundsUp_iff_takesNext rm neg m s).mpr h),
      fun h => if_neg fun h' => h ((roundsUp_iff_takesNext rm neg m s).mp h')⟩

/-- An integral magnitude stays. -/
theorem roundInt_of_eq {m k : Nat} {e : Int} (h : m * (2 : K) ^ e = k) : roundInt rm neg m e = k := by
  obtain ⟨j, hle, hlt, -, hdown⟩ := roundInt_spec (K := K) rm neg m e
  rw [h] at hle hlt hdown
  obtain rfl : j = k := by
    have h1 : j ≤ k := by exact_mod_cast hle
    have h2 : k < j + 1 := by exact_mod_cast hlt
    omega
  exact hdown (not_takesNext_self rm neg j)

end

/-- An integer of at most 24 bits survives the way to FP32 and back. -/
theorem f2i_i2f (rm : Nat) {i : Int} (hi : |i| ≤ 2 ^ 24) : f2i rm 3 0 (i2f rm 0 i) = BitVec.ofInt 64 i := by
  obtain ⟨m, e, hdec, hval⟩ := fdec_i2f rm hi
  have hround := roundInt_of_eq rm (decide (i < 0)) hval
  have hsigned : (if decide (i < 0) = true then -(i.natAbs : Int) else i.natAbs) = i := by
    by_cases h : i < 0
    · simp [h, abs_of_neg h]
    · simp [h, abs_of_nonneg (not_lt.mp h)]
  have hclamp : max (-2 ^ (64 - 1)) (min (2 ^ (64 - 1) - 1) i) = i := by
    rw [abs_le] at hi
    omega
  have hf2i : f2i rm 3 0 (i2f rm 0 i) = BitVec.ofNat 64 (max (-2 ^ (64 - 1)) (min (2 ^ (64 - 1) - 1) i) % 2 ^ 64).toNat := by
    simp only [f2i, hdec, hround, hsigned]
    rfl
  rw [hf2i, hclamp]
  exact (wrapN_eq_ofInt 64 i).trans (BitVec.setWidth_eq _)

end Sys2Proof.Machine
end

section
/-! PROOFS. Comparison and classes (06_float.md R115, R116): FCMP orders by value, and the class of a pattern is told from its fields. -/

namespace Sys2Proof.Machine

/-! Order by value. -/

/-- -1, 1 or 0 for the infinities and for a number. -/
def FVal.side (v : FVal) : Int := match v with | .inf n => if n then -1 else 1 | _ => 0

/-- The order of R115 on values that are no NaNs. -/
def FVal.Less (v w : FVal) : Prop := v.side < w.side ∨ v.side = w.side ∧ v.val ℚ < w.val ℚ

theorem FVal.Less.asymm {v w : FVal} (h : v.Less w) : ¬ w.Less v := by
  rcases h with h | ⟨h, hval⟩
  · rintro (h' | ⟨h', -⟩) <;> omega
  · rintro (h' | ⟨-, hval'⟩)
    · omega
    · exact hval.asymm hval'

theorem FVal.lt_fin_iff (n n' : Bool) (m m' : Nat) (e e' : Int) :
    (FVal.fin n m e).lt (.fin n' m' e') = true ↔ (FVal.fin n m e).val ℚ < (FVal.fin n' m' e').val ℚ := by
  have hpos : (0 : ℚ) < 2 ^ min e e' := by positivity
  rw [← FVal.scaled_val ℚ (show min e e' ≤ (FVal.fin n m e).exp from min_le_left e e'),
    ← FVal.scaled_val ℚ (show min e e' ≤ (FVal.fin n' m' e').exp from min_le_right e e'), mul_lt_mul_iff_left₀ hpos, Int.cast_lt]
  exact decide_eq_true_iff

theorem FVal.lt_iff {v w : FVal} (hv : v.isNan = false) (hw : w.isNan = false) : v.lt w = true ↔ v.Less w := by
  cases v with
  | nan => exact Bool.noConfusion hv
  | inf n => cases w with
    | nan => exact Bool.noConfusion hw
    | inf k => cases n <;> cases k <;> simp [lt, Less, side, val]
    | fin k m e => cases n <;> simp [lt, Less, side]
  | fin n m e => cases w with
    | nan => exact Bool.noConfusion hw
    | inf k => cases k <;> simp [lt, Less, side]
    | fin k m' e' => rw [lt_fin_iff]; simp [Less, side]

theorem FVal.lt_of_isNan {v w : FVal} (h : v.isNan = true ∨ w.isNan = true) : v.lt w = false := by
  cases v with
  | nan => rfl
  | inf n | fin n m e => cases w with
    | nan => rfl
    | inf | fin => simp [isNan] at h

theorem FVal.eqv_iff {v w : FVal} (hv : v.isNan = false) (hw : w.isNan = false) : v.eqv w = true ↔ ¬ v.Less w ∧ ¬ w.Less v := by
  rw [eqv, hv, hw, ← lt_iff hv hw, ← lt_iff hw hv]
  simp

theorem FVal.eqv_of_isNan {v w : FVal} (h : v.isNan = true ∨ w.isNan = true) : v.eqv w = false := by
  rcases h with h | h <;> simp [eqv, h]

section
variable {ct a b : Nat}

theorem fcmp_of_isNan (h : (fdec ct a).isNan = true ∨ (fdec ct b).isNan = true) {cc : Nat} (hcc : cc ≤ 7) :
    fcmp cc ct a b = decide (cc = 1 ∨ cc = 6) := by
  have hlt := FVal.lt_of_isNan h
  have hgt := FVal.lt_of_isNan h.symm
  have heq := FVal.eqv_of_isNan h
  have hun : ((fdec ct a).isNan || (fdec ct b).isNan) = true := Bool.or_eq_true_iff.mpr h
  unfold fcmp
  interval_cases cc <;> simp only [hlt, hgt, heq, hun] <;> rfl

/-- FCMP on operands that are no NaNs. -/
theorem fcmp_iff (ha : (fdec ct a).isNan = false) (hb : (fdec ct b).isNan = false) :
    (fcmp 0 ct a b = true ↔ ¬ (fdec ct a).Less (fdec ct b) ∧ ¬ (fdec ct b).Less (fdec ct a))
    ∧ (fcmp 1 ct a b = true ↔ (fdec ct a).Less (fdec ct b) ∨ (fdec ct b).Less (fdec ct a))
    ∧ (fcmp 2 ct a b = true ↔ (fdec ct a).Less (fdec ct b)) ∧ (fcmp 3 ct a b = true ↔ ¬ (fdec ct b).Less (fdec ct a))
    ∧ (fcmp 4 ct a b = true ↔ (fdec ct b).Less (fdec ct a)) ∧ (fcmp 5 ct a b = true ↔ ¬ (fdec ct a).Less (fdec ct b))
    ∧ fcmp 6 ct a b = false ∧ fcmp 7 ct a b = true := by
  have hlt := FVal.lt_iff ha hb
  have hgt := FVal.lt_iff hb ha
  have heq := FVal.eqv_iff ha hb
  have hasymm := FVal.Less.asymm (v := fdec ct a) (w := fdec ct b)
  refine ⟨heq, ?ne, hlt, ?le, hgt, ?ge, by simp [fcmp, ha, hb], by simp [fcmp, ha, hb]⟩
  case ne =>
    rw [show fcmp 1 ct a b = !(fdec ct a).eqv (fdec ct b) from rfl, Bool.not_eq_true', ← Bool.not_eq_true, heq]
    tauto
  case le =>
    rw [show fcmp 3 ct a b = ((fdec ct a).lt (fdec ct b) || (fdec ct a).eqv (fdec ct b)) from rfl, Bool.or_eq_true, hlt, heq]
    tauto
  case ge =>
    rw [show fcmp 5 ct a b = ((fdec ct b).lt (fdec ct a) || (fdec ct a).eqv (fdec ct b)) from rfl, Bool.or_eq_true, hgt, heq]
    tauto

end

/-! Classes. -/

theorem Fmt.sig_eq_zero_iff (f : Fmt) (p : Nat) : f.sig p = 0 ↔ p / 2 ^ f.fbits = 0 ∧ p % 2 ^ f.fbits = 0 := by
  have hpos : 0 < 2 ^ f.fbits := Nat.two_pow_pos _
  rw [Nat.div_eq_zero_iff_lt hpos]
  unfold Fmt.sig
  split
  case isTrue h => simp [h, Nat.mod_eq_of_lt h]
  case isFalse h => simp [h]

/-- In a format with infinities the finite patterns are those whose exponent is not all ones. -/
theorem Fmt.Sound.le_maxFin_iff {f : Fmt} (hf : f.Sound) (hinf : f.hasInf = true) {p : Nat} (hp : p < 2 ^ f.mag) :
    p ≤ f.maxFin ↔ p / 2 ^ f.fbits ≠ 2 ^ f.ebits - 1 := by
  have hpos : 0 < 2 ^ f.fbits := Nat.two_pow_pos _
  have hlt : p / 2 ^ f.fbits < 2 ^ f.ebits := Nat.div_lt_of_lt_mul (by rwa [← Nat.pow_add, Nat.add_comm])
  rw [← Nat.lt_succ_iff, Nat.succ_eq_add_one, hf.inf_eq hinf, ← Nat.div_lt_iff_lt_mul hpos]
  omega

theorem hasInf_of_le {ct : Nat} (hct : ct ≤ 2) : (fmtOf ct).hasInf = true := by
  revert ct; decide

/-- FCLASS from the fields of the pattern (R116). -/
theorem fclass_eq {ct a : Nat} (hct : ct ≤ 2) :
    let t := fmtOf ct
    let neg := a.testBit t.mag
    let expo := a % 2 ^ t.mag / 2 ^ t.fbits
    let frac := a % 2 ^ t.fbits
    fclass ct a = 2 ^ (if expo = 2 ^ t.ebits - 1 then (if frac = 0 then (if neg then 0 else 7) else if frac.testBit (t.fbits - 1) then 9 else 8)
      else if expo = 0 then (if frac = 0 then (if neg then 3 else 4) else if neg then 2 else 5)
      else if neg then 1 else 6) := by
  intro t neg expo frac
  have hs : t.Sound := fmtOf_sound ct
  have hinf : t.hasInf = true := hasInf_of_le hct
  have hp : a % 2 ^ t.mag < 2 ^ t.mag := Nat.mod_lt _ (Nat.two_pow_pos _)
  have hfrac : a % 2 ^ t.mag % 2 ^ t.fbits = frac := Nat.mod_mod_of_dvd a (pow_dvd_pow 2 (Nat.le_add_left ..))
  have htop : a.testBit (t.fbits - 1) = frac.testBit (t.fbits - 1) := by
    rw [Nat.testBit_mod_two_pow, decide_eq_true (Nat.sub_lt hs.fbits_pos Nat.one_pos), Bool.true_and]
  have hsub : a % 2 ^ t.mag < 2 ^ t.fbits ↔ expo = 0 := (Nat.div_eq_zero_iff_lt (Nat.two_pow_pos _)).symm
  have hzero : t.sig (a % 2 ^ t.mag) = 0 ↔ expo = 0 ∧ frac = 0 := by rw [t.sig_eq_zero_iff, hfrac]
  have hdec := fdec_eq (show ct ≤ 4 by omega) a
  rw [if_congr (hs.le_maxFin_iff hinf hp) rfl rfl, hfrac] at hdec
  by_cases hones : expo = 2 ^ t.ebits - 1
  · rw [if_neg (not_not_intro hones)] at hdec
    by_cases hf0 : frac = 0
    · rw [if_pos ⟨hinf, hf0⟩] at hdec
      rw [if_pos hones, if_pos hf0, fclass, hdec]
      cases hn : neg <;> simp [show a.testBit (fmtOf ct).mag = neg from rfl, hn]
    · rw [if_neg fun h => hf0 h.2] at hdec
      rw [if_pos hones, if_neg hf0, fclass, hdec]
      simp only [htop, show (fmtOf ct) = t from rfl]
      split <;> rfl
  · rw [if_pos hones] at hdec
    rw [if_neg hones, fclass, hdec]
    simp only [show (fmtOf ct) = t from rfl, beq_iff_eq, hzero, hsub, show a.testBit t.mag = neg from rfl]
    by_cases he0 : expo = 0 <;> by_cases hf0 : frac = 0 <;> cases neg <;> simp [he0, hf0]

end Sys2Proof.Machine
end

section
/-! PROOFS. Rounding to an integral value (06_float.md R117). -/

namespace Sys2Proof.Machine

section
variable {rm : Nat} {neg : Bool} {m : Nat} {e : Int}

theorem roundInt_nearest : |(m : ℚ) * 2 ^ e - roundInt 0 neg m e| ≤ 1 / 2
    ∧ (|(m : ℚ) * 2 ^ e - roundInt 0 neg m e| = 1 / 2 → roundInt 0 neg m e % 2 = 0) := by
  obtain ⟨k, hle, hlt, hup, hdown⟩ := roundInt_spec (K := ℚ) 0 neg m e
  by_cases ht : TakesNext 0 neg k ((m : ℚ) * 2 ^ e)
  · rw [hup ht]
    push_cast
    rw [abs_of_neg (by linarith)]
    rcases ht with h | ⟨h, hodd⟩
    · exact ⟨by linarith, fun heq => by linarith⟩
    · exact ⟨by linarith, fun _ => by omega⟩
  · have hmid : 2 * ((m : ℚ) * 2 ^ e) ≤ 2 * k + 1 := le_of_not_gt fun h => ht (.inl h)
    rw [hdown ht, abs_of_nonneg (by linarith)]
    refine ⟨by linarith, fun heq => ?_⟩
    by_contra hodd
    exact ht (.inr ⟨by linarith, by omega⟩)

theorem roundInt_floor (h : rm = 1 ∨ rm = 2 ∧ neg = true ∨ rm = 3 ∧ neg = false) : (roundInt rm neg m e : ℤ) = ⌊(m : ℚ) * 2 ^ e⌋ := by
  obtain ⟨k, hle, hlt, -, hdown⟩ := roundInt_spec (K := ℚ) rm neg m e
  have ht : ¬ TakesNext rm neg k ((m : ℚ) * 2 ^ e) := not_upperTaken_toward h
  rw [hdown ht, eq_comm, Int.floor_eq_iff]
  exact ⟨by exact_mod_cast hle, by exact_mod_cast hlt⟩

theorem roundInt_ceil (h : rm = 2 ∧ neg = false ∨ rm = 3 ∧ neg = true) : (roundInt rm neg m e : ℤ) = ⌈(m : ℚ) * 2 ^ e⌉ := by
  obtain ⟨k, hle, hlt, hup, hdown⟩ := roundInt_spec (K := ℚ) rm neg m e
  have ht : TakesNext rm neg k ((m : ℚ) * 2 ^ e) ↔ (k : ℚ) < m * 2 ^ e := upperTaken_away_iff h
  rw [eq_comm, Int.ceil_eq_iff]
  rcases hle.lt_or_eq with hl | heq
  · rw [hup (ht.mpr hl)]
    push_cast
    exact ⟨by linarith, hlt.le⟩
  · rw [hdown fun h => (ht.mp h).ne heq, ← heq]
    push_cast
    exact ⟨by linarith, le_rfl⟩

/-- A significand with bits after the point rounds to no more than the hidden bit. -/
theorem roundInt_le {k : Nat} (hm : m < 2 * 2 ^ k) (he : e < 0) : roundInt rm neg m e ≤ 2 ^ k := by
  obtain ⟨j, hle, -, hup, hdown⟩ := roundInt_spec (K := ℝ) rm neg m e
  have hj : (j : ℝ) < 2 ^ k := by
    calc (j : ℝ) ≤ m * 2 ^ e := hle
      _ ≤ m * 2 ^ (-1 : Int) := mul_le_mul_of_nonneg_left (zpow_le_zpow_right₀ one_le_two (by omega)) (Nat.cast_nonneg m)
      _ < 2 * 2 ^ k * 2 ^ (-1 : Int) := mul_lt_mul_of_pos_right (by exact_mod_cast hm) (by positivity)
      _ = 2 ^ k := by rw [zpow_neg_one]; ring
  have hj' : j < 2 ^ k := by exact_mod_cast hj
  by_cases ht : TakesNext rm neg j ((m : ℝ) * 2 ^ e)
  · rw [hup ht]; omega
  · rw [hdown ht]; omega

/-- The result of rounding has no more bits than a significand or is the number itself, and so is a value of its type. -/
theorem fdec_frnd {ct a : Nat} (hct : ct ≤ 4) {n : Bool} (ha : fdec ct a = .fin n m e) :
    ∃ m' e', fdec ct (frnd rm ct a) = .fin n m' e' ∧ m' * (2 : ℝ) ^ e' = roundInt rm n m e := by
  obtain ⟨_, _, _, hdec, hlt, hunit, hmax⟩ := fdec_bounds hct (a := a) (by rw [ha]; trivial)
  obtain ⟨rfl, rfl, rfl⟩ := FVal.fin.inj (ha.symm.trans hdec)
  have hs := fmtOf_sound ct
  have hval : |(FVal.fin n (roundInt rm n m e) 0).val ℝ| = roundInt rm n m e := by rw [FVal.abs_val_fin]; simp
  have hfrnd : frnd rm ct a = fenc ct rm (.fin n (roundInt rm n m e) 0) := by simp only [frnd, ha]
  have hholds : ∃ m' : Nat, ∃ e' : Int, m' < 2 * 2 ^ (fmtOf ct).fbits ∧ (fmtOf ct).unitExp ≤ e'
      ∧ (roundInt rm n m e : ℝ) = m' * (2 : ℝ) ^ e' ∧ (roundInt rm n m e : ℝ) ≤ (fmtOf ct).mval (fmtOf ct).maxFin := by
    by_cases he : 0 ≤ e
    · obtain ⟨d, rfl⟩ := Int.eq_ofNat_of_zero_le he
      have hexact : (m : ℝ) * 2 ^ (d : Int) = (m * 2 ^ d : Nat) := by push_cast; rw [zpow_natCast]
      rw [roundInt_of_eq rm n hexact, ← hexact]
      exact ⟨m, d, hlt, hunit, rfl, hmax⟩
    · have hround := roundInt_le (rm := rm) (neg := n) hlt (not_le.mp he)
      refine ⟨roundInt rm n m e, 0, by omega, hs.unitExp_nonpos, by simp, ?_⟩
      calc (roundInt rm n m e : ℝ) ≤ (fmtOf ct).sig (fmtOf ct).maxFin := by exact_mod_cast hround.trans hs.sig_maxFin
        _ ≤ (fmtOf ct).sig (fmtOf ct).maxFin * 2 ^ (fmtOf ct).expo (fmtOf ct).maxFin :=
          le_mul_of_one_le_right (Nat.cast_nonneg _) (one_le_zpow₀ one_le_two hs.expo_maxFin_nonneg)
        _ = (fmtOf ct).mval (fmtOf ct).maxFin := ((fmtOf ct).mval_eq _).symm
  obtain ⟨m', e', hm', he', heq, hle'⟩ := hholds
  have h := fdec_fenc_of_holds hct (rm := rm) (v := .fin n (roundInt rm n m e) 0) trivial hm' he' (hval.trans heq) (hval.trans_le hle')
  rwa [hval, ← hfrnd] at h

end

/-- Values agree as rational numbers when they agree as real ones. -/
theorem FVal.val_cast (v : FVal) : ((v.val ℚ : ℚ) : ℝ) = v.val ℝ := by
  cases v with
  | nan | inf n => simp [val]
  | fin n m e => cases n <;> simp [val]

/-- FRND of a number (R117). -/
theorem frnd_spec {ct rm a : Nat} (hct : ct ≤ 4) (ha : a < 2 ^ ((fmtOf ct).mag + 1)) (hfin : (fdec ct a).isFin) :
    let r := frnd rm ct a
    let x := (fdec ct a).val ℚ
    (fdec ct r).isFin ∧ (fdec ct r).sign = (fdec ct a).sign ∧ ∃ z : Int, (fdec ct r).val ℚ = z
      ∧ (rm = 0 → |x - z| ≤ 1 / 2 ∧ (|x - z| = 1 / 2 → z % 2 = 0))
      ∧ (rm = 1 → z = if x < 0 then ⌈x⌉ else ⌊x⌋) ∧ (rm = 2 → z = ⌈x⌉) ∧ (rm = 3 → z = ⌊x⌋) ∧ (x = z → r = a) := by
  intro r x
  obtain ⟨n, m, e, hdec⟩ := FVal.isFin_iff.mp hfin
  obtain ⟨m', e', hres, hval⟩ := fdec_frnd (rm := rm) hct hdec
  have hnonneg : (0 : ℚ) ≤ m * 2 ^ e := by positivity
  have hx : x = (if n then -1 else 1) * (m * 2 ^ e) := by rw [← mul_assoc, ← FVal.val_fin, ← hdec]
  have hz : (fdec ct r).val ℚ = (if n then -1 else 1) * (roundInt rm n m e : ℚ) := by
    have hval' : (m' : ℚ) * 2 ^ e' = roundInt rm n m e := Rat.cast_injective (α := ℝ) (by push_cast; exact hval)
    rw [hres, FVal.val_fin, mul_assoc, hval']
  have hkeep : m * (2 : ℚ) ^ e = roundInt rm n m e → r = a := fun h => by
    have h' : m * (2 : ℝ) ^ e = roundInt rm n m e := by simpa using congrArg (Rat.cast : ℚ → ℝ) h
    have hsame : |(FVal.fin n (roundInt rm n m e) 0).val ℝ| = |(FVal.fin n m e).val ℝ| := by
      rw [FVal.abs_val_fin, FVal.abs_val_fin, h']; simp
    have henc : r = fenc ct rm (.fin n (roundInt rm n m e) 0) := by simp only [r, frnd, hdec]
    rw [henc, fenc_congr hct (v := .fin n (roundInt rm n m e) 0) (w := .fin n m e) trivial trivial rfl hsame, ← hdec]
    exact fenc_fdec hct ha (by rw [hdec]; rfl)
  refine ⟨by rw [hres]; trivial, by rw [hres, hdec]; rfl, ?_⟩
  cases n with
  | false =>
    simp only [Bool.false_eq_true, if_false, one_mul] at hx hz
    refine ⟨roundInt rm false m e, by rw [hz]; norm_cast, ?_, ?_, ?_, ?_, ?_⟩
    · rintro rfl
      rw [hx, Int.cast_natCast]
      exact ⟨roundInt_nearest.1, fun h => by exact_mod_cast roundInt_nearest.2 h⟩
    · intro h
      rw [hx, if_neg (not_lt.mpr hnonneg)]
      exact roundInt_floor (.inl h)
    · intro h
      rw [hx]
      exact roundInt_ceil (.inl ⟨h, rfl⟩)
    · intro h
      rw [hx]
      exact roundInt_floor (.inr (.inr ⟨h, rfl⟩))
    · intro h
      exact hkeep (hx ▸ h.trans (Int.cast_natCast _))
  | true =>
    simp only [if_true, neg_one_mul] at hx hz
    refine ⟨-(roundInt rm true m e : ℤ), by rw [hz]; norm_cast, ?_, ?_, ?_, ?_, ?_⟩
    · rintro rfl
      have habs : |x - ((-(roundInt 0 true m e : ℤ) : ℤ) : ℚ)| = |(m : ℚ) * 2 ^ e - roundInt 0 true m e| := by
        rw [hx, ← abs_neg]
        push_cast
        ring_nf
      rw [habs]
      obtain ⟨hle, htie⟩ := roundInt_nearest (neg := true) (m := m) (e := e)
      exact ⟨hle, fun h => by have := htie h; omega⟩
    · intro h
      rw [hx, Int.ceil_neg, roundInt_floor (.inl h)]
      split
      case isTrue => rfl
      case isFalse hneg =>
        have hzero : (m : ℚ) * 2 ^ e = 0 := by linarith
        rw [hzero]
        simp
    · intro h
      rw [hx, Int.ceil_neg, roundInt_floor (.inr (.inl ⟨h, rfl⟩))]
    · intro h
      rw [hx, Int.floor_neg, roundInt_ceil (.inr ⟨h, rfl⟩)]
    · intro h
      rw [hx] at h
      push_cast at h
      exact hkeep (by linarith)

end Sys2Proof.Machine
end

section
/-! PROOFS. Packing and unpacking (06_float.md R122, R123), special operands (R118, R124, R126), and the laws of float arithmetic put
together. -/

namespace Sys2Proof.Machine

/-! Widths of results. -/

theorem Fmt.deliver_lt {f : Fmt} (hf : f.Sound) (rm : Nat) (neg : Bool) (pat : Nat) : f.deliver rm neg pat < 2 ^ (f.mag + 1) := by
  have hsign : ∀ q < 2 ^ f.mag, (if neg then 2 ^ f.mag else 0) + q < 2 ^ (f.mag + 1) := fun q hq => by
    rw [Nat.pow_succ]
    split <;> omega
  rcases f.deliver_cases rm neg pat with ⟨q, hq, h⟩ | ⟨-, h⟩
  · rw [h]; exact hsign q (hq.trans_lt hf.maxFin_lt)
  · rw [h]; exact hsign _ f.infMag_lt

theorem fenc_lt {ct : Nat} (hct : ct ≤ 4) (rm : Nat) (v : FVal) : fenc ct rm v < 2 ^ ((fmtOf ct).mag + 1) := by
  have hs := fmtOf_sound ct
  have hnan : (fmtOf ct).nan < 2 ^ ((fmtOf ct).mag + 1) := hs.nan_lt.trans (Nat.pow_lt_pow_right (by decide) (Nat.lt_succ_self _))
  cases v with
  | nan => rwa [fenc_nan hct]
  | inf n =>
    cases hinf : (fmtOf ct).hasInf
    · rwa [fenc_inf_none hct n hinf]
    · rw [fenc_inf hct n hinf, Nat.pow_succ]
      have := (fmtOf ct).infMag_lt
      split <;> omega
  | fin n m e =>
    obtain ⟨p, -, hup, hdown⟩ := fenc_rounds hct (rm := rm) (v := .fin n m e) trivial
    by_cases ht : (fmtOf ct).TakesUpper rm n p |(FVal.fin n m e).val ℝ|
    · rw [hup ht]; exact Fmt.deliver_lt hs ..
    · rw [hdown ht]; exact Fmt.deliver_lt hs ..

theorem lgRound_lt (rm : Nat) (neg : Bool) (m : Nat) (e : Int) : lgRound rm neg m e < 64 := by
  have hcode : ∀ j : Nat, (if j == 0 then 0x10 else (if neg then 32 else 0) + (j + 16) % 32) < 64 := fun j => by
    split
    · decide
    · split <;> omega
  exact hcode _

theorem fenc_lg_lt (rm : Nat) (v : FVal) : fenc 5 rm v < 64 := by
  cases v with
  | nan | inf n => exact (by decide : 0x30 < 64)
  | fin n m e => exact lgRound_lt rm n m e

theorem fcvt_half_lt {ct : Nat} (h1 : 1 ≤ ct) (h2 : ct ≤ 2) (rm st a : Nat) : fcvt rm ct st a < 2 ^ 16 := by
  have hw : (fmtOf ct).mag + 1 = 16 := by interval_cases ct <;> rfl
  exact (fenc_lt (by omega) rm _).trans_eq (by rw [hw])

theorem fcvt_byte_lt {ct : Nat} (h3 : 3 ≤ ct) (h5 : ct ≤ 5) (rm st a : Nat) : fcvt rm ct st a < 2 ^ 8 := by
  rcases Nat.lt_or_eq_of_le h5 with hlt | rfl
  · have hw : (fmtOf ct).mag + 1 = 8 := by interval_cases ct <;> rfl
    exact (fenc_lt (by omega) rm _).trans_eq (by rw [hw])
  · exact (fenc_lg_lt rm _).trans (by decide)

/-! Packing. -/

section
variable {ct rm a b c : Nat}

theorem fpack_half (h1 : 1 ≤ ct) (h2 : ct ≤ 2) : fpack rm ct false a b c % 2 ^ 16 = fcvt rm ct 0 a
    ∧ fpack rm ct false a b c / 2 ^ 16 = fcvt rm ct 0 b := by
  have hx := fcvt_half_lt h1 h2 rm 0 a
  rw [fpack, if_pos h2]
  omega

theorem fpack_low (h3 : 3 ≤ ct) (h5 : ct ≤ 5) : fpack rm ct false a b c % 2 ^ 8 = fcvt rm ct 0 a
    ∧ fpack rm ct false a b c / 2 ^ 8 % 2 ^ 8 = fcvt rm ct 0 b ∧ fpack rm ct false a b c / 2 ^ 16 = c / 2 ^ 16 := by
  have hx := fcvt_byte_lt h3 h5 rm 0 a
  have hy := fcvt_byte_lt h3 h5 rm 0 b
  rw [fpack, if_neg (by omega), if_neg Bool.false_ne_true]
  omega

theorem fpack_high (h3 : 3 ≤ ct) (h5 : ct ≤ 5) : fpack rm ct true a b c % 2 ^ 16 = c % 2 ^ 16
    ∧ fpack rm ct true a b c / 2 ^ 16 % 2 ^ 8 = fcvt rm ct 0 a ∧ fpack rm ct true a b c / 2 ^ 24 = fcvt rm ct 0 b := by
  have hx := fcvt_byte_lt h3 h5 rm 0 a
  rw [fpack, if_neg (by omega), if_pos rfl]
  omega

end

/-! Unpacking. -/

/-- The largest finite value of a format is an integer. -/
theorem Fmt.Sound.mval_maxFin {f : Fmt} (hf : f.Sound) : f.mval f.maxFin = (f.sig f.maxFin * 2 ^ (f.expo f.maxFin).toNat : Nat) := by
  rw [Fmt.mval_eq, Nat.cast_mul, Nat.cast_pow, Nat.cast_two, ← zpow_natCast, Int.toNat_of_nonneg hf.expo_maxFin_nonneg]

theorem maxFin_le_fp32 {ct : Nat} (hct : ct ≤ 4) : (fmtOf ct).mval (fmtOf ct).maxFin ≤ (fmtOf 0).mval (fmtOf 0).maxFin := by
  have h : ∀ ct ≤ 4, (fmtOf ct).sig (fmtOf ct).maxFin * 2 ^ ((fmtOf ct).expo (fmtOf ct).maxFin).toNat
      ≤ (fmtOf 0).sig (fmtOf 0).maxFin * 2 ^ ((fmtOf 0).expo (fmtOf 0).maxFin).toNat := by decide
  rw [(fmtOf_sound ct).mval_maxFin, (fmtOf_sound 0).mval_maxFin]
  exact_mod_cast h ct hct

theorem lgT_lt (i : Nat) : lgT i < 2 ^ 16 := by
  unfold lgT
  split <;> decide

/-- An LG6 code is a NaN, or a number of at most 16 bits. -/
theorem lgDecode_cases (x : Nat) : lgDecode x = .nan ∨ ∃ n m e, lgDecode x = .fin n m e ∧ m < 2 ^ 16 ∧ -19 ≤ e ∧ e ≤ 0 := by
  have hl : -16 ≤ lgL x ∧ lgL x ≤ 15 := by
    unfold lgL
    dsimp only
    split <;> omega
  unfold lgDecode
  dsimp only
  split
  · split
    · exact .inl rfl
    · exact .inr ⟨_, _, _, rfl, by decide, by decide, by decide⟩
  · exact .inr ⟨_, _, _, rfl, lgT_lt _, by omega, by omega⟩

/-- Every number of a conversion type is a value of FP32. -/
theorem fdec_fits_fp32 {ct x : Nat} (hct : ct ≤ 5) (hx : (fdec ct x).isFin) : ∃ n m e, fdec ct x = .fin n m e ∧ m < 2 ^ 24 ∧ -149 ≤ e
    ∧ m * (2 : ℝ) ^ e ≤ (fmtOf 0).mval (fmtOf 0).maxFin := by
  rcases Nat.lt_or_eq_of_le hct with hlt | rfl
  · obtain ⟨n, m, e, hdec, hm, he, hle⟩ := fdec_bounds (show ct ≤ 4 by omega) hx
    have hs := fmtOf_sound ct
    have hwide : 2 ^ ((fmtOf ct).fbits + 1) ≤ 2 ^ 24 := Nat.pow_le_pow_right (by decide) (Nat.succ_le_succ hs.fbits_le)
    rw [Nat.pow_succ'] at hwide
    exact ⟨n, m, e, hdec, hm.trans_le hwide, hs.unitExp_ge.trans he, hle.trans (maxFin_le_fp32 (by omega))⟩
  · have hlg : fdec 5 x = lgDecode x := rfl
    rcases lgDecode_cases x with h | ⟨n, m, e, h, hm, hlow, hhigh⟩
    · rw [hlg, h] at hx
      exact hx.elim
    · refine ⟨n, m, e, hlg.trans h, hm.trans (by decide), by omega, le_trans ?_ two_pow_24_le_maxFin⟩
      calc (m : ℝ) * 2 ^ e ≤ 2 ^ 24 * 1 := mul_le_mul (by exact_mod_cast hm.le.trans (by decide)) (zpow_le_one_of_nonpos₀ one_le_two hhigh)
            (by positivity) (by positivity)
        _ = 2 ^ 24 := mul_one _

/-- A conversion to FP32 is exact (R119, R123). -/
theorem fcvt_fp32 {ct x : Nat} (rm : Nat) (hct : ct ≤ 5) (hx : (fdec ct x).isNan = false) : (fdec 0 (fcvt rm 0 ct x)).isNan = false
    ∧ (fdec 0 (fcvt rm 0 ct x)).side = (fdec ct x).side ∧ (fdec 0 (fcvt rm 0 ct x)).val ℚ = (fdec ct x).val ℚ
    ∧ (fdec 0 (fcvt rm 0 ct x)).sign = (fdec ct x).sign := by
  unfold fcvt
  cases hdec : fdec ct x with
  | nan => rw [hdec] at hx; exact Bool.noConfusion hx
  | inf n =>
    rw [fenc_inf (ct := 0) (by decide) n rfl, fdec_infMag (ct := 0) (by decide) n rfl]
    exact ⟨rfl, rfl, rfl, rfl⟩
  | fin n m e =>
    obtain ⟨_, _, _, hdec', hm, he, hle⟩ := fdec_fits_fp32 hct (x := x) (by rw [hdec]; trivial)
    obtain ⟨rfl, rfl, rfl⟩ := FVal.fin.inj (hdec.symm.trans hdec')
    have hval := FVal.abs_val_fin n m e
    obtain ⟨m', e', hres, heq⟩ := fdec_fenc_of_holds (ct := 0) (by decide) (rm := rm) (v := .fin n m e) trivial hm he hval (hval.trans_le hle)
    rw [hval] at heq
    have heq' : (m' : ℚ) * 2 ^ e' = m * 2 ^ e := Rat.cast_injective (α := ℝ) (by push_cast; exact heq)
    rw [hres]
    exact ⟨rfl, rfl, by rw [FVal.val_fin, FVal.val_fin, mul_assoc, mul_assoc, heq']; rfl, rfl⟩

/-! NaN operands of FDOT2 and FSCL, and special operands of FRCP and FSQRT. -/

theorem FVal.mul_of_isNan {v w : FVal} (h : v.isNan = true ∨ w.isNan = true) : (v.mul w).isNan = true := by
  cases v with
  | nan => rfl
  | inf n | fin n m e => cases w with
    | nan => rfl
    | inf | fin => simp [isNan] at h

theorem fsum_of_isNan {vs : List FVal} (h : ∃ v ∈ vs, v.isNan = true) (zneg : Bool) : fsum vs zneg = .nan := by
  rw [fsum_def, List.any_eq_true.mpr h]
  rfl

theorem fdot2_of_isNan {rm ct a b c : Nat}
    (h : (fdec ct (a % 2 ^ 16)).isNan = true ∨ (fdec ct (a / 2 ^ 16)).isNan = true ∨ (fdec ct (b % 2 ^ 16)).isNan = true
      ∨ (fdec ct (b / 2 ^ 16)).isNan = true ∨ (fdec 0 c).isNan = true) : fdot2 rm ct a b c = 0x7FC00000 := by
  have hterm : ∃ v ∈ [(fdec ct (a % 65536)).mul (fdec ct (b % 65536)), (fdec ct (a / 65536)).mul (fdec ct (b / 65536)), fdec 0 c],
      v.isNan = true := by
    simp only [List.exists_mem_cons_iff, List.not_mem_nil, false_and, exists_false, or_false]
    rcases h with h | h | h | h | h
    · exact .inl (FVal.mul_of_isNan (.inl h))
    · exact .inr (.inl (FVal.mul_of_isNan (.inl h)))
    · exact .inl (FVal.mul_of_isNan (.inr h))
    · exact .inr (.inl (FVal.mul_of_isNan (.inr h)))
    · exact .inr (.inr h)
  simp only [fdot2, fsum_of_isNan hterm]
  rfl

theorem FVal.eq_nan {v : FVal} (h : v.isNan = true) : v = .nan := by
  cases v with
  | nan => rfl
  | inf | fin => exact Bool.noConfusion h

theorem FVal.eq_inf {v : FVal} (h : v.side ≠ 0) : ∃ n, v = .inf n := by
  cases v with
  | inf n => exact ⟨n, rfl⟩
  | nan | fin => exact absurd rfl h

theorem FVal.isFin_of {v : FVal} (hnan : ¬ v.isNan = true) (hside : v.side = 0) : v.isFin := by
  cases v with
  | nan => exact absurd rfl hnan
  | inf n => cases n <;> exact absurd hside (by decide)
  | fin n m e => trivial

theorem FVal.side_of_isFin {v : FVal} (h : v.isFin) : v.side = 0 := by
  obtain ⟨n, m, e, rfl⟩ := FVal.isFin_iff.mp h
  rfl

theorem FVal.not_isNan_of_isFin {v : FVal} (h : v.isFin) : ¬ v.isNan = true := by
  obtain ⟨n, m, e, rfl⟩ := FVal.isFin_iff.mp h
  exact Bool.false_ne_true

section
variable {ct : Nat} (hct : ct ≤ 4) {rm a : Nat}
include hct

theorem frnd_nan (h : (fdec ct a).isNan = true) : frnd rm ct a = (fmtOf ct).nan := by
  rw [frnd, FVal.eq_nan h]
  exact fenc_nan hct

theorem frnd_inf (ha : a < 2 ^ ((fmtOf ct).mag + 1)) (h : (fdec ct a).side ≠ 0) : frnd rm ct a = a := by
  obtain ⟨k, hk⟩ := FVal.eq_inf h
  rw [frnd, hk]
  exact (congrArg (fenc ct rm) hk.symm).trans (fenc_fdec hct ha (by rw [hk]; rfl))

theorem fscl_nan {e8 : Bool} {n : W32} (h : (fdec ct a).isNan = true ∨ e8 = true ∧ n.toNat % 256 = 255) :
    fscl e8 rm ct a n = (fmtOf ct).nan := by
  rw [fscl]
  split
  case isTrue => exact fenc_nan hct
  case isFalse hn =>
    rcases h with h | ⟨rfl, h⟩
    · rw [FVal.eq_nan h]
      exact fenc_nan hct
    · exact absurd (by simp [h]) hn

theorem fscl_inf {e8 : Bool} {n : W32} (ha : a < 2 ^ ((fmtOf ct).mag + 1)) (h : (fdec ct a).side ≠ 0)
    (he : e8 = false ∨ n.toNat % 256 ≠ 255) : fscl e8 rm ct a n = a := by
  obtain ⟨k, hk⟩ := FVal.eq_inf h
  have hn : ¬ (e8 && n.toNat % 256 == 255) = true := by
    rw [Bool.and_eq_true, beq_iff_eq]
    rintro ⟨rfl, h⟩
    rcases he with he | he
    · exact Bool.noConfusion he
    · exact he h
  rw [fscl, if_neg hn, hk]
  exact (congrArg (fenc ct rm) hk.symm).trans (fenc_fdec hct ha (by rw [hk]; rfl))

theorem frcp_nan (h : (fdec ct a).isNan = true) : frcp rm ct a = (fmtOf ct).nan := by
  rw [frcp, FVal.eq_nan h]
  exact fenc_nan hct

theorem fsqrt_nan (h : (fdec ct a).isNan = true) : fsqrt rm ct a = (fmtOf ct).nan := by
  rw [fsqrt, FVal.eq_nan h]
  exact fenc_nan hct

theorem fsqrt_negative (h : (fdec ct a).val ℚ < 0) : fsqrt rm ct a = (fmtOf ct).nan := by
  cases hdec : fdec ct a with
  | nan | inf n => rw [hdec] at h; exact absurd h (lt_irrefl 0)
  | fin n m e =>
    rw [hdec, FVal.val_fin] at h
    have hm : m ≠ 0 := by
      rintro rfl
      simp at h
    have hn : n = true := by
      by_contra hn
      rw [if_neg hn, one_mul] at h
      exact absurd h (not_lt.mpr (by positivity))
    simp only [fsqrt, hdec, beq_iff_eq, hm, hn, if_false, if_true]
    exact fenc_nan hct

theorem fdec_zero (neg : Bool) : fdec ct (if neg then 2 ^ (fmtOf ct).mag else 0) = .fin neg 0 (fmtOf ct).unitExp := by
  have h := fdec_add_sign hct (Nat.zero_le (fmtOf ct).maxFin) neg
  simpa [Fmt.sig, Fmt.expo] using h

theorem fenc_zero (neg : Bool) (e : Int) : fenc ct rm (.fin neg 0 e) = if neg then 2 ^ (fmtOf ct).mag else 0 := by
  exact fenc_of_mval hct (rm := rm) (v := .fin neg 0 e) trivial (Nat.zero_le (fmtOf ct).maxFin) (by simp [FVal.abs_val_fin])

theorem fsqrt_zero (neg : Bool) : fsqrt rm ct (if neg then 2 ^ (fmtOf ct).mag else 0) = if neg then 2 ^ (fmtOf ct).mag else 0 := by
  rw [fsqrt, fdec_zero hct neg]
  exact fenc_zero hct neg 0

end

section
variable {ct : Nat} (hct : ct ≤ 4) (hinf : (fmtOf ct).hasInf = true) {rm : Nat} (neg : Bool)
include hct hinf

theorem frcp_zero : frcp rm ct (if neg then 2 ^ (fmtOf ct).mag else 0) = (if neg then 2 ^ (fmtOf ct).mag else 0) + (fmtOf ct).infMag := by
  rw [frcp, fdec_zero hct neg]
  exact fenc_inf hct neg hinf

theorem frcp_inf : frcp rm ct ((if neg then 2 ^ (fmtOf ct).mag else 0) + (fmtOf ct).infMag) = if neg then 2 ^ (fmtOf ct).mag else 0 := by
  rw [frcp, fdec_infMag hct neg hinf]
  exact fenc_zero hct neg 0

theorem fsqrt_inf : fsqrt rm ct ((if neg then 2 ^ (fmtOf ct).mag else 0) + (fmtOf ct).infMag) =
    if neg then (fmtOf ct).nan else (fmtOf ct).infMag := by
  rw [fsqrt, fdec_infMag hct neg hinf]
  cases neg
  · exact (fenc_inf hct false hinf).trans (Nat.zero_add _)
  · exact fenc_nan hct

end

/-- Settles O22: the laws above. -/
theorem floatLaws : Obligations.FloatLaws := by
  unfold Obligations.FloatLaws
  refine ⟨fun rm ct a b c hct _ => ⟨?addComm, ?mulComm, farith_mul_one_add hct rm a c, fun i => f2i_i2f rm⟩, ?_⟩
  case addComm => exact congrArg (fenc ct rm) (FVal.add_comm rm _ _)
  case mulComm => exact congrArg (fenc ct rm) (FVal.mul_comm _ _)
  intro val side nan less
  refine ⟨fun ct a b hct => ⟨?cmp, ?cmpNan⟩, fun ct a hct _ => fclass_eq hct, ?frnd, ?fpack, ?funpk, ?fdot2, ?special⟩
  case cmp =>
    intro ha hb
    exact fcmp_iff (Bool.not_eq_true _ ▸ ha) (Bool.not_eq_true _ ▸ hb)
  case cmpNan => exact fun h cc hcc => fcmp_of_isNan h hcc
  case frnd =>
    intro ct rm a hct _ ha r
    have hct4 : ct ≤ 4 := by omega
    refine ⟨?nan, ?inf, ?number⟩
    case nan => exact frnd_nan hct4
    case inf => exact frnd_inf hct4 ha
    case number =>
      intro hnan hside
      obtain ⟨hfin, hsign, z, hz, hspec⟩ := frnd_spec (rm := rm) hct4 ha (FVal.isFin_of hnan hside)
      exact ⟨hsign, z, hz, FVal.side_of_isFin hfin, FVal.not_isNan_of_isFin hfin, hspec⟩
  case fpack =>
    intro ct rm a b c _ _ x y
    exact ⟨fpack_half, fun h3 h5 => ⟨fpack_low h3 h5, fpack_high h3 h5⟩⟩
  case funpk =>
    intro ct i a _ hct w x
    refine ⟨fun h => ?_, fun h => ?_⟩
    · exact (congrArg (fenc 0 0) (FVal.eq_nan h)).trans rfl
    · obtain ⟨hnan, hrest⟩ := fcvt_fp32 0 hct (x := x) (Bool.not_eq_true _ ▸ h)
      exact ⟨Bool.not_eq_true _ ▸ hnan, hrest⟩
  case fdot2 => exact fun ct rm a b c _ _ _ _ h => fdot2_of_isNan h
  case special =>
    intro ct rm a hct _ ha t inf neg
    have hct4 : ct ≤ 4 := by omega
    have hinf := hasInf_of_le hct
    have hmag : inf = t.infMag := t.infMag_eq.symm
    rw [hmag]
    have hrcp := frcp_zero hct4 hinf (rm := rm)
    have hrcpInf := frcp_inf hct4 hinf (rm := rm)
    have hsqrtInf := fsqrt_inf hct4 hinf (rm := rm)
    exact ⟨fun e8 n => ⟨fscl_nan hct4, fscl_inf hct4 ha⟩, fun h => ⟨frcp_nan hct4 h, fsqrt_nan hct4 h⟩,
      (hrcp false).trans (Nat.zero_add _), hrcp true, (congrArg (frcp rm ct) (Nat.zero_add _)).symm.trans (hrcpInf false), hrcpInf true,
      fsqrt_zero hct4 false, fsqrt_zero hct4 true, (congrArg (fsqrt rm ct) (Nat.zero_add _)).symm.trans (hsqrtInf false), hsqrtInf true,
      fsqrt_negative hct4⟩

end Sys2Proof.Machine
end

section
/-! PROOFS. The special functions (06_float.md R125, R126): the table of special operands, and the exact cases of FEX2 and FLG2. -/

namespace Sys2Proof.Machine

/-! What `special` does by the kind of its operand. -/

/-- The value on an infinity (Table 6.9). -/
def specialInf (fn : Nat) (neg : Bool) : FVal :=
  match fn with
  | 0 => if neg then .nan else .fin false 0 0
  | 1 => if neg then .fin false 0 0 else .inf false
  | 2 => if neg then .nan else .inf false
  | 5 => if neg then .fin true 1 0 else .fin false 1 0
  | _ => .nan

/-- The value on a zero (Table 6.9). -/
def specialZero (fn : Nat) (neg : Bool) : FVal :=
  match fn with
  | 0 => .inf neg
  | 1 | 4 => .fin false 1 0
  | 2 => .inf true
  | _ => .fin neg 0 0

section
variable {ct : Nat} (hct : ct ≤ 4) (fn op : Nat) {a : Nat}
include hct

theorem special_nan (h : fdec ct a = .nan) : special fn op ct a = (fmtOf ct).nan := by
  rw [special, fdec_mod hct, h]
  exact fenc_nan hct

theorem special_inf {neg : Bool} (h : fdec ct a = .inf neg) : special fn op ct a = fenc ct 0 (specialInf fn neg) := by
  rw [special, fdec_mod hct, h]
  rfl

theorem special_zero {neg : Bool} {e : Int} (h : fdec ct a = .fin neg 0 e) : special fn op ct a = fenc ct 0 (specialZero fn neg) := by
  rw [special, fdec_mod hct, h]
  rfl

theorem special_fin {neg : Bool} {m : Nat} {e : Int} (h : fdec ct a = .fin neg m e) (hm : m ≠ 0)
    (hneg : ((fn == 0 || fn == 2) && neg) = false) :
    special fn op ct a = specialFin fn op ct (a % 2 ^ ((fmtOf ct).mag + 1)) neg m e := by
  simp only [special, fdec_mod hct, h, beq_iff_eq, hm, hneg, if_false, Bool.false_eq_true]

end

/-! Exact results. -/

/-- A true value as a decoded one; opaque to the elaborator, which would compute with 2^400. -/
@[irreducible] def trueVal (t et : Int) : FVal := if t == 0 then .fin false 0 0 else .fin (decide (t < 0)) t.natAbs et

theorem trueVal_isFin (t et : Int) : (trueVal t et).isFin := by
  unfold trueVal
  split <;> trivial

theorem trueVal_sign (t et : Int) : (trueVal t et).sign = decide (t < 0) := by
  unfold trueVal
  split
  case isTrue h => rw [beq_iff_eq.mp h]; rfl
  case isFalse => rfl

theorem abs_val_trueVal (t et : Int) : |(trueVal t et).val ℝ| = (t.natAbs : ℝ) * 2 ^ et := by
  unfold trueVal
  split
  case isTrue h => rw [beq_iff_eq.mp h]; simp [FVal.abs_val_fin]
  case isFalse => rw [FVal.abs_val_fin]

/-- Where R125 wants the exact result, that result is given. -/
theorem specialFin_of_exact {fn op ct arg : Nat} {neg : Bool} {m : Nat} {e : Int} (hsmall : fn = 1 → shiftBy m e < 4096) {t et : Int}
    (htrue : specialTrue fn neg m e = (t, et)) (hexact : specialExact fn ct neg m e (trueVal t et) = true) :
    specialFin fn op ct arg neg m e = fenc ct 0 (trueVal t et) := by
  have hsat : ∀ b : Bool, ¬ (fn == 1 && b && decide (4096 ≤ shiftBy m e)) = true := fun b h => by
    simp only [Bool.and_eq_true, beq_iff_eq, decide_eq_true_eq] at h
    exact absurd (hsmall h.1.1) (not_lt.mpr h.2)
  unfold trueVal at hexact ⊢
  rw [specialFin, if_neg (hsat _), if_neg (hsat _), htrue]
  exact if_pos (by rw [hexact, Bool.or_true])

theorem fxOne_pos : 0 < fxOne := Int.pow_pos (by decide)

theorem fxSeries_zero (x : Int) (k dk : Nat) (d : Nat → Int) (fuel : Nat) : fxSeries x 0 k dk d fuel = 0 := by
  induction fuel generalizing k with
  | zero => rfl
  | succ n ih => simp [fxSeries, ih]

theorem fxExp_zero : fxExp 0 = fxOne := by
  rw [fxExp, fxSeries, Int.mul_zero, Int.zero_ediv, Int.zero_ediv, fxSeries_zero, Int.add_zero]

/-- 2 to an integral power. -/
theorem fxExp2_integral (n : Int) : fxExp2 (n * fxOne) = (fxOne, n) := by
  rw [fxExp2, Int.mul_emod_left, Int.zero_mul, Int.zero_ediv, fxExp_zero, Int.mul_ediv_cancel _ fxOne_pos.ne']

theorem fxAtanh_zero (z2 : Int) (k fuel : Nat) : fxAtanh 0 z2 k fuel = 0 := by
  induction fuel generalizing k with
  | zero => rfl
  | succ n ih => simp [fxAtanh, ih]

theorem fxLog2_one : fxLog2 fxOne = 0 := by
  simp [fxLog2, fxAtanh_zero]

theorem natAbs_two_pow_cast (k : Nat) : (((2 : Int) ^ k).natAbs : ℝ) = 2 ^ (k : Int) := by
  rw [Int.natAbs_pow, Nat.cast_pow, zpow_natCast]
  rfl

theorem fxOne_cast : (fxOne.natAbs : ℝ) = 2 ^ (400 : Int) := natAbs_two_pow_cast 400

theorem mul_fxOne_neg {k : Int} : k * fxOne < 0 ↔ k < 0 := by
  rw [← mul_lt_mul_iff_left₀ (b := k) fxOne_pos, zero_mul]

theorem eq_mul_of_zpow_neg {m n d : Nat} (h : m * (2 : ℝ) ^ (-(d : Int)) = n) : m = n * 2 ^ d := by
  rw [zpow_neg, zpow_natCast, ← div_eq_mul_inv, div_eq_iff (by positivity)] at h
  exact_mod_cast h

/-- An integral value is not changed by shifting it out. -/
theorem shiftBy_of_eq {m n : Nat} {k : Int} (h : m * (2 : ℝ) ^ k = n) : shiftBy m k = n := by
  by_cases hk : 0 ≤ k
  · obtain ⟨d, rfl⟩ := Int.eq_ofNat_of_zero_le hk
    rw [shiftBy_of_nonneg hk, Int.toNat_natCast]
    exact_mod_cast h
  · obtain ⟨d, hd⟩ := Int.eq_ofNat_of_zero_le (show 0 ≤ -k by omega)
    obtain rfl : k = -(d : Int) := by omega
    rw [shiftBy_of_neg (by omega), hd, Int.toNat_natCast, eq_mul_of_zpow_neg h, Nat.mul_div_cancel _ (Nat.two_pow_pos d)]

/-! FLG2 of a power of two. -/

/-- FLG2 of 2^k gives k, in FP32 and for k = 0 in every type. -/
theorem special_flg2 {ct op a t : Nat} {k : Int} (hct : ct ≤ 4) (hdec : fdec ct a = .fin false (2 ^ t) (k - t)) (hk : ct = 0 ∨ k = 0) :
    special 2 op ct a = fenc ct 0 (intVal k) := by
  have hlog : Nat.log2 (2 ^ t) = t := Nat.log2_two_pow
  have hshift : (shiftBy (2 ^ t) (400 - (t : Int)) : Int) = fxOne := by
    have h : ((2 ^ t : Nat) : ℝ) * 2 ^ (400 - (t : Int)) = fxOne.natAbs := by
      rw [fxOne_cast, Nat.cast_pow, Nat.cast_two, ← zpow_natCast, ← zpow_add₀ two_ne_zero, add_sub_cancel]
    rw [shiftBy_of_eq h]
    exact Int.natAbs_of_nonneg fxOne_pos.le
  have htrue : specialTrue 2 false (2 ^ t) (k - t) = (k * fxOne, -400) := by
    simp only [specialTrue, hlog, hshift, fxLog2_one, Int.add_zero, add_sub_cancel]
  have hexact : specialExact 2 ct false (2 ^ t) (k - t) (trueVal (k * fxOne) (-400)) = true := by
    simp [specialExact, hlog, hk]
  rw [special_fin hct 2 op hdec (Nat.two_pow_pos t).ne' rfl,
    specialFin_of_exact (fun h => absurd h (by decide)) htrue hexact]
  refine fenc_congr hct (trueVal_isFin ..) trivial ?_ ?_
  · rw [trueVal_sign]
    exact decide_eq_decide.mpr mul_fxOne_neg
  · rw [abs_val_trueVal, abs_val_intVal, Int.natAbs_mul, Nat.cast_mul, fxOne_cast, mul_assoc, ← zpow_add₀ two_ne_zero]
    simp

/-! FEX2 of an integer. -/

theorem FVal.eqv_of_val {v w : FVal} (hv : v.isFin) (hw : w.isFin) (h : v.val ℝ = w.val ℝ) : v.eqv w = true := by
  have hq : v.val ℚ = w.val ℚ := Rat.cast_injective (α := ℝ) (by rw [val_cast, val_cast, h])
  rw [FVal.eqv_iff (Bool.eq_false_iff.mpr (not_isNan_of_isFin hv)) (Bool.eq_false_iff.mpr (not_isNan_of_isFin hw)), Less, Less, hq,
    side_of_isFin hv, side_of_isFin hw]
  simp

/-- The pattern of 2^n in FP32. -/
def pow2Mag (n : Int) : Nat := (n + 127).toNat * 2 ^ 23

section
variable {n : Int} (hlow : -126 ≤ n) (hhigh : n ≤ 127)
include hlow hhigh

theorem fdec_pow2Mag : fdec 0 (pow2Mag n) = .fin false (2 ^ 23) (n - (23 : Nat)) := by
  obtain ⟨k, hk⟩ := Int.eq_ofNat_of_zero_le (show 0 ≤ n + 126 by omega)
  have hp : pow2Mag n = (k + 1) * 2 ^ 23 := by
    rw [pow2Mag, show (n + 127).toNat = k + 1 by omega]
  have hle : pow2Mag n ≤ (fmtOf 0).maxFin := by
    rw [hp, show (fmtOf 0).maxFin = 0x7F7FFFFF from rfl]
    omega
  have h := fdec_add_sign (ct := 0) (by decide) hle false
  have hsig : (fmtOf 0).sig (pow2Mag n) = 2 ^ 23 := by
    rw [hp, Fmt.sig, show (fmtOf 0).fbits = 23 from rfl, if_neg (by omega), Nat.mul_mod_left, Nat.zero_add]
  have hexpo : (fmtOf 0).expo (pow2Mag n) = n - (23 : Nat) := by
    rw [hp, Fmt.expo, show (fmtOf 0).unitExp = -149 by decide, show (fmtOf 0).fbits = 23 from rfl, Nat.mul_div_cancel _ (by decide)]
    omega
  rw [hsig, hexpo, if_neg Bool.false_ne_true] at h
  exact (congrArg (fdec 0) (Nat.zero_add _)).symm.trans h

theorem abs_val_pow2Mag : |(fdec 0 (pow2Mag n)).val ℝ| = 2 ^ n := by
  rw [fdec_pow2Mag hlow hhigh, FVal.abs_val_fin, Nat.cast_pow, Nat.cast_two, ← zpow_natCast, ← zpow_add₀ two_ne_zero, add_sub_cancel]

theorem fenc_pow2 {v : FVal} (hv : v.isFin) (hsign : v.sign = false) (hval : |v.val ℝ| = 2 ^ n) : fenc 0 0 v = pow2Mag n := by
  have hdec := fdec_pow2Mag hlow hhigh
  have hlt : pow2Mag n < 2 ^ 32 := by
    rw [pow2Mag]
    omega
  rw [fenc_congr (w := fdec 0 (pow2Mag n)) (by decide) hv (by rw [hdec]; trivial) (by rw [hsign, hdec]; rfl)
    (hval.trans (abs_val_pow2Mag hlow hhigh).symm)]
  exact fenc_fdec (by decide) hlt (by rw [hdec]; rfl)

/-- FEX2 of an integer in the range of FP32's exponents is exact. -/
theorem special_fex2 (op : Nat) : special 1 op 0 (i2f 0 0 n) = pow2Mag n := by
  obtain ⟨m, e, hdec, hval⟩ := fdec_i2f 0 (i := n) (by rw [abs_le]; omega)
  have hone : fenc 0 0 (.fin false 1 0) = pow2Mag 0 := by decide
  by_cases hm : m = 0
  · subst hm
    have hn : n = 0 := by simpa [eq_comm] using hval
    rw [special_zero (by decide) 1 op hdec, hn]
    exact hone
  have hsmall : shiftBy m e < 4096 := by
    rw [shiftBy_of_eq hval]
    omega
  have hfix : fxOf (decide (n < 0)) m e = n * fxOne := by
    have h : (m : ℝ) * 2 ^ (e + 400) = (n.natAbs * fxOne.natAbs : Nat) := by
      rw [zpow_add₀ two_ne_zero, ← mul_assoc, hval, Nat.cast_mul, fxOne_cast]
    have hone : (fxOne.natAbs : Int) = fxOne := Int.natAbs_of_nonneg fxOne_pos.le
    rw [fxOf, shiftBy_of_eq h, Nat.cast_mul, hone]
    by_cases hn : n < 0
    · simp [hn, abs_of_neg hn]
    · simp [hn, abs_of_nonneg (not_lt.mp hn)]
  have htrue : specialTrue 1 (decide (n < 0)) m e = (fxOne, n - 400) := by
    simp only [specialTrue, hfix, fxExp2_integral]
  have hsign : (trueVal fxOne (n - 400)).sign = false := (trueVal_sign ..).trans (decide_eq_false fxOne_pos.not_gt)
  have habs : |(trueVal fxOne (n - 400)).val ℝ| = 2 ^ n := by
    rw [abs_val_trueVal, fxOne_cast, ← zpow_add₀ two_ne_zero, add_sub_cancel]
  have hfin := trueVal_isFin fxOne (n - 400)
  have henc := fenc_pow2 hlow hhigh hfin hsign habs
  have heqv : (fdec 0 (pow2Mag n)).eqv (trueVal fxOne (n - 400)) = true := by
    have hpow : (fdec 0 (pow2Mag n)).isFin := by rw [fdec_pow2Mag hlow hhigh]; trivial
    refine FVal.eqv_of_val hpow hfin ?_
    rw [FVal.val_eq_sign, FVal.val_eq_sign (trueVal ..), hsign, habs, abs_val_pow2Mag hlow hhigh, fdec_pow2Mag hlow hhigh]
    rfl
  have hint : 0 ≤ e ∨ m % 2 ^ (-e).toNat = 0 := by
    refine or_iff_not_imp_left.mpr fun he => ?_
    obtain ⟨d, hd⟩ := Int.eq_ofNat_of_zero_le (show 0 ≤ -e by omega)
    obtain rfl : e = -(d : Int) := by omega
    rw [hd, Int.toNat_natCast, eq_mul_of_zpow_neg hval, Nat.mul_mod_left]
  have hexact : specialExact 1 0 (decide (n < 0)) m e (trueVal fxOne (n - 400)) = true := by
    simpa [specialExact, henc, heqv] using hint
  rw [special_fin (by decide) 1 op hdec hm rfl, specialFin_of_exact (fun _ => hsmall) htrue hexact, henc]

end

/-! The table of special operands. -/

theorem fenc_one {ct : Nat} (hct : ct ≤ 4) (rm : Nat) (neg : Bool) :
    fenc ct rm (.fin neg 1 0) = (if neg then 2 ^ (fmtOf ct).mag else 0) + (fmtOf ct).bias * 2 ^ (fmtOf ct).fbits := by
  have hmax : ∀ ct ≤ 4, (fmtOf ct).bias * 2 ^ (fmtOf ct).fbits ≤ (fmtOf ct).maxFin := by decide
  have hval : (fmtOf ct).mval ((fmtOf ct).bias * 2 ^ (fmtOf ct).fbits) = 1 := by
    have h := fdec_add_sign hct (hmax ct hct) false
    rw [if_neg Bool.false_ne_true, Nat.zero_add, fdec_one ct hct] at h
    obtain ⟨-, hsig, hexpo⟩ := FVal.fin.inj h
    rw [Fmt.mval_eq, ← hsig, ← hexpo]
    simp
  exact fenc_of_mval hct (v := .fin neg 1 0) trivial (hmax ct hct) (by rw [FVal.abs_val_fin, hval]; simp)

section
variable {ct : Nat} (hct : ct ≤ 4) (fn op : Nat)
include hct

theorem special_posZero : special fn op ct 0 = fenc ct 0 (specialZero fn false) :=
  special_zero hct fn op (fdec_zero hct false)

theorem special_negZero : special fn op ct (2 ^ (fmtOf ct).mag) = fenc ct 0 (specialZero fn true) :=
  special_zero hct fn op (fdec_zero hct true)

variable (hinf : (fmtOf ct).hasInf = true)
include hinf

theorem special_posInf : special fn op ct (fmtOf ct).infMag = fenc ct 0 (specialInf fn false) := by
  have h := fdec_infMag hct false hinf
  rw [if_neg Bool.false_ne_true, Nat.zero_add] at h
  exact special_inf hct fn op h

theorem special_negInf : special fn op ct (2 ^ (fmtOf ct).mag + (fmtOf ct).infMag) = fenc ct 0 (specialInf fn true) :=
  special_inf hct fn op (fdec_infMag hct true hinf)

end

/-- Settles O20: the computations by definition, the table from what `special` does with infinities and zeros, the exact cases by `special_fex2` and
`special_flg2`. -/
theorem specialFunctions : Obligations.SpecialFunctions := by
  unfold Obligations.SpecialFunctions
  refine ⟨fun f => ⟨?frsq, ?fex2, ?flg2, ?fsin, ?fcos, ?ftanh⟩, fun op ct hct => ?table, fun op n hlow hhigh => ⟨?exp, ?log⟩⟩
  case frsq => exact performs_of_float (k := .frsq) (fun a _ _ => special 0 0x47 f.ft a) rfl (fun _ => rfl) fun v hf => by subst hf; rfl
  case fex2 => exact performs_of_float (k := .fex2) (fun a _ _ => special 1 0x49 f.ft a) rfl (fun _ => rfl) fun v hf => by subst hf; rfl
  case flg2 => exact performs_of_float (k := .flg2) (fun a _ _ => special 2 0x4A f.ft a) rfl (fun _ => rfl) fun v hf => by subst hf; rfl
  case fsin => exact performs_of_float (k := .fsin) (fun a _ _ => special 3 0x4B f.ft a) rfl (fun _ => rfl) fun v hf => by subst hf; rfl
  case fcos => exact performs_of_float (k := .fcos) (fun a _ _ => special 4 0x4C f.ft a) rfl (fun _ => rfl) fun v hf => by subst hf; rfl
  case ftanh => exact performs_of_float (k := .ftanh) (fun a _ _ => special 5 0x4D f.ft a) rfl (fun _ => rfl) fun v hf => by subst hf; rfl
  case table =>
    intro t inf one neg
    have hct4 : ct ≤ 4 := by omega
    have hinf : t.hasInf = true := hasInf_of_le hct
    rw [show inf = t.infMag from t.infMag_eq.symm]
    have posInf := fun fn => special_posInf hct4 fn op hinf
    have negInf := fun fn => special_negInf hct4 fn op hinf
    have posZero := fun fn => special_posZero hct4 fn op
    have negZero := fun fn => special_negZero hct4 fn op
    have nan : fenc ct 0 .nan = t.nan := fenc_nan hct4
    have infP : fenc ct 0 (.inf false) = t.infMag := (fenc_inf hct4 false hinf).trans (Nat.zero_add _)
    have infN : fenc ct 0 (.inf true) = neg + t.infMag := fenc_inf hct4 true hinf
    have zeroP : fenc ct 0 (.fin false 0 0) = 0 := fenc_zero hct4 false 0
    have zeroN : fenc ct 0 (.fin true 0 0) = neg := fenc_zero hct4 true 0
    have oneP : fenc ct 0 (.fin false 1 0) = one := (fenc_one hct4 0 false).trans (Nat.zero_add _)
    have oneN : fenc ct 0 (.fin true 1 0) = neg + one := fenc_one hct4 0 true
    have logOne : special 2 op ct one = 0 :=
      (special_flg2 (k := 0) hct4 ((fdec_one ct hct4).trans (by rw [Int.zero_sub])) (.inr rfl)).trans zeroP
    have circular : ∀ fn ∈ [3, 4], special fn op ct t.infMag = t.nan ∧ special fn op ct (neg + t.infMag) = t.nan := by
      simp only [List.forall_mem_cons, List.not_mem_nil, false_imp_iff, implies_true, and_true]
      exact ⟨⟨(posInf 3).trans nan, (negInf 3).trans nan⟩, (posInf 4).trans nan, (negInf 4).trans nan⟩
    exact ⟨fun fn _ => special_nan hct4 fn op (fdec_nan hct4), circular,
      (posZero 0).trans infP, (negZero 0).trans infN, (posInf 0).trans zeroP, (negInf 0).trans nan,
      (posZero 1).trans oneP, (negZero 1).trans oneP, (posInf 1).trans infP, (negInf 1).trans zeroP,
      (posZero 2).trans infN, (negZero 2).trans infN, (posInf 2).trans infP, (negInf 2).trans nan, logOne,
      (posZero 3).trans zeroP, (negZero 3).trans zeroN, (posZero 4).trans oneP, (negZero 4).trans oneP,
      (posZero 5).trans zeroP, (negZero 5).trans zeroN, (posInf 5).trans oneP, (negInf 5).trans oneN⟩
  case exp => exact special_fex2 hlow hhigh op
  case log => exact (special_flg2 (by decide) (fdec_pow2Mag hlow hhigh) (.inl rfl)).trans (i2f_eq 0 0 n).symm

end Sys2Proof.Machine
end

section
/-! PROOFS. Memory's canonical form under folds, choices and the steps of the engines. -/

namespace Sys2Proof.Machine

/-- A fold of steps that leave memory leaves it. -/
theorem State.foldl_mem {α : Type} {g : State → α → State} (hg : ∀ u a, (g u a).mem = u.mem) (as : List α) (s : State) :
    (as.foldl g s).mem = s.mem :=
  List.foldlRecOn as g (motive := fun t => t.mem = s.mem) rfl fun u hu a _ => (hg u a).trans hu

/-- The same where each step answers something beside the state. -/
theorem State.foldl_fst_mem {α β : Type} {g : State × β → α → State × β} (hg : ∀ p a, (g p a).1.mem = p.1.mem) (as : List α)
    (p : State × β) : (as.foldl g p).1.mem = p.1.mem :=
  List.foldlRecOn as g (motive := fun t => t.1.mem = p.1.mem) rfl fun u hu a _ => (hg u a).trans hu

/-- A fold of steps that keep the canonical form keeps it. -/
theorem State.wf_foldl {α : Type} {g : State → α → State} (hg : ∀ u a, Memory.wf u.mem = true → Memory.wf (g u a).mem = true)
    (as : List α) {s : State} (h : Memory.wf s.mem = true) : Memory.wf (as.foldl g s).mem = true :=
  List.foldlRecOn as g (motive := fun t => Memory.wf t.mem = true) h fun u hu a _ => hg u a hu

/-- The same where each step answers something beside the state. -/
theorem State.wf_foldl_fst {α β : Type} {g : State × β → α → State × β}
    (hg : ∀ p a, Memory.wf p.1.mem = true → Memory.wf (g p a).1.mem = true) (as : List α) {p : State × β}
    (h : Memory.wf p.1.mem = true) : Memory.wf (as.foldl g p).1.mem = true :=
  List.foldlRecOn as g (motive := fun t => Memory.wf t.1.mem = true) h fun u hu a _ => hg u a hu

/-- A step of an engine that keeps memory in canonical form. -/
structure Eng.Keeps {α : Type} (e : Eng α) : Prop where
  run : ∀ s : State, Memory.wf s.mem = true → Memory.wf (e s).2.mem = true

namespace Eng.Keeps

@[simp] theorem pure {α : Type} (a : α) : (Pure.pure a : Eng α).Keeps := ⟨fun _ h => h⟩

@[simp] theorem fail {α : Type} (cause detail addr aux : Nat) : (Eng.fail cause detail addr aux : Eng α).Keeps := ⟨fun _ h => h⟩

@[simp] theorem bind {α β : Type} {e : Eng α} {g : α → Eng β} (he : e.Keeps) (hg : ∀ a, (g a).Keeps) : (e >>= g).Keeps := by
  refine ⟨fun s h => ?_⟩
  have h1 := he.run s h
  have hbind : (e >>= g) s = ExceptT.bindCont g (e s).1 (e s).2 := rfl
  rw [hbind]
  cases (e s).1 with
  | ok a => exact (hg a).run _ h1
  | error x => exact h1

@[simp] theorem ite {α : Type} {p : Prop} [Decidable p] {e f : Eng α} (he : e.Keeps) (hf : f.Keeps) : (if p then e else f).Keeps := by
  split
  · exact he
  · exact hf

@[simp] theorem need (b : Bool) (cause detail addr aux : Nat) : (Eng.need b cause detail addr aux).Keeps := by
  simp [Eng.need]

@[simp] theorem see {α : Type} (g : State → α) : (Eng.see g).Keeps := ⟨fun _ h => h⟩

theorem act {g : State → State} (hg : ∀ s, Memory.wf s.mem = true → Memory.wf (g s).mem = true) : (Eng.act g).Keeps := ⟨hg⟩

theorem wr (pa : Nat) (bs : List Byte) : (Eng.act fun s => s.wr pa bs).Keeps := .act fun _ h => State.wf_wr h pa bs

@[simp] theorem each {α : Type} {xs : List α} {g : α → Eng Unit} (hg : ∀ a, (g a).Keeps) : (Eng.each xs g).Keeps := by
  induction xs with
  | nil => exact .pure ()
  | cons x r ih => exact .bind (hg x) fun _ => ih

@[simp] theorem collect {α β : Type} {xs : List α} {g : α → Eng β} (hg : ∀ a, (g a).Keeps) : (Eng.collect xs g).Keeps := by
  induction xs with
  | nil => exact .pure []
  | cons x r ih => exact .bind (hg x) fun _ => .bind ih fun _ => .pure _

theorem outcome {e : Eng Unit} (he : e.Keeps) {s : State} (h : Memory.wf s.mem = true) : Memory.wf (Eng.outcome e s).1.mem = true := by
  have := he.run s h
  unfold Eng.outcome
  grind

/-- What an engine's step answers, taken apart. -/
theorem of_eq {α : Type} {e : Eng α} (he : e.Keeps) {s t : State} {r : Except Stop α} (h : Memory.wf s.mem = true) (ht : e s = (r, t)) :
    Memory.wf t.mem = true := by
  have := he.run s h
  rwa [ht] at this

end Eng.Keeps

/-- The first of some changes that is possible keeps the canonical form if each of them does. -/
theorem State.wf_of_findSome? {α : Type} {g : α → Option State} {as : List α} {t : State}
    (hg : ∀ a u, g a = some u → Memory.wf u.mem = true) (ht : as.findSome? g = some t) : Memory.wf t.mem = true := by
  obtain ⟨a, -, ha⟩ := List.exists_of_findSome?_eq_some ht
  exact hg a t ha

/-- A change that may be impossible, in whose place the state stays. -/
theorem State.wf_getD {s : State} {o : Option State} (h : Memory.wf s.mem = true) (ho : ∀ t, o = some t → Memory.wf t.mem = true) :
    Memory.wf (o.getD s).mem = true := by
  cases o with
  | none => exact h
  | some t => exact ho t rfl

/-- A fold of steps each of which may be impossible. -/
theorem State.wf_foldl_option {α : Type} {g : State → α → Option State}
    (hg : ∀ u a v, Memory.wf u.mem = true → g u a = some v → Memory.wf v.mem = true) (as : List α) {s t : State}
    (h : Memory.wf s.mem = true)
    (ht : as.foldl (fun o a => match o with | some u => g u a | none => none) (some s) = some t) : Memory.wf t.mem = true := by
  refine List.foldlRecOn as _ (motive := fun o => ∀ t, o = some t → Memory.wf t.mem = true) ?_ (fun o ho a _ v hv => ?_) t ht
  · rintro t ⟨⟩
    exact h
  · cases o with
    | none => cases hv
    | some u => exact hg u a v (ho u rfl) hv

/-- A meaning of an event or an instruction that keeps memory in canonical form. -/
def Meaning.KeepsForm (g : Meaning) : Prop := ∀ {s t : State}, Memory.wf s.mem = true → g s = .next t → Memory.wf t.mem = true

/-- What `let x ← if p then e else f` comes to. -/
theorem Eng.Keeps.branch {α β : Type} {p : Prop} [Decidable p] {e f : Eng α} {g : α → Eng β} (he : e.Keeps) (hf : f.Keeps)
    (hg : ∀ a, (g a).Keeps) : (if p then e >>= g else f >>= g).Keeps :=
  .ite (.bind he hg) (.bind hf hg)

/-- The state of a pair that is known. -/
theorem State.wf_fst {α : Type} {p : State × α} {t : State} {r : α} (e : p = (t, r)) (h : Memory.wf p.1.mem = true) :
    Memory.wf t.mem = true := by
  rwa [e] at h

theorem Memory.wf_of_eq {s t : State} (e : t.mem = s.mem) (h : Memory.wf s.mem = true) : Memory.wf t.mem = true := e ▸ h

theorem Memory.wf_ite {p : Prop} [Decidable p] {s t : State} (hs : Memory.wf s.mem = true) (ht : Memory.wf t.mem = true) :
    Memory.wf (if p then s else t).mem = true := by
  split
  · exact hs
  · exact ht

end Sys2Proof.Machine
end

section
/-! PROOFS. The operations of the state, in the model's order: `f_mem` where one leaves memory alone, `wf_f` where it keeps the form. -/

namespace Sys2Proof.Machine

/-! ### Mem.lean -/

@[simp] theorem State.tlbFill_mem (s : State) (die units va ea e large) : (s.tlbFill die units va ea e large).mem = s.mem := by
  simp [State.tlbFill]

@[simp] theorem State.wf_heat {s : State} (h : Memory.wf s.mem = true) (ea t) : Memory.wf (s.heat ea t).mem = true := by
  grind [State.heat, State.wf_putBytes]

@[simp] theorem State.wf_pushNotice {s : State} (h : Memory.wf s.mem = true) (die w0 w1) :
    Memory.wf (s.pushNotice die w0 w1).mem = true := by
  grind [State.pushNotice, State.setReg_mem, State.wf_putBytes]

@[simp] theorem State.wf_postNotice {s : State} (h : Memory.wf s.mem = true) (w va kind) :
    Memory.wf (s.postNotice w va kind).mem = true := by
  grind [State.postNotice, State.setDie_mem, State.wf_pushNotice]

@[simp] theorem State.wf_countMigration {s : State} (h : Memory.wf s.mem = true) (w va ea e pa) :
    Memory.wf (s.countMigration w va ea e pa).mem = true := by
  grind [State.countMigration, State.setReg_mem, State.wf_pushNotice, State.wf_putBytes]

@[simp] theorem State.wf_translateRaw {s : State} (h : Memory.wf s.mem = true) (w va size t) :
    Memory.wf (s.translateRaw w va size t).1.mem = true := by
  unfold State.translateRaw
  split
  · exact h
  · extract_lets hit
    split
    case h_4 ea e large _ =>
      extract_lets pa reaches s0 s1 ok
      split
      · exact h
      · have h0 : Memory.wf s0.mem = true := by
          simp only [s0]
          split <;> simp [h]
        have h1 : Memory.wf s1.mem = true := by
          simp only [s1]
          split <;> simp [h0]
        split <;> simp [h1]
    all_goals exact h

@[simp] theorem State.wf_translate {s : State} (h : Memory.wf s.mem = true) (w va size t) :
    Memory.wf (s.translate w va size t).1.mem = true := by
  grind [State.translate, State.wf_translateRaw]

@[simp] theorem State.wf_resolve {s : State} (h : Memory.wf s.mem = true) (w space addr size t) :
    Memory.wf (s.resolve w space addr size t).1.mem = true := by
  grind [State.resolve, State.wf_translate]

/-! ### Ops.lean -/

@[simp] theorem State.wf_wrN {s : State} (h : Memory.wf s.mem = true) (pa n x) : Memory.wf (s.wrN pa n x).mem = true := by
  grind [State.wrN, State.wr_mem, State.wf_wr]

@[simp] theorem State.bumpReg_mem (s : State) (die off) : (s.bumpReg die off).mem = s.mem := by
  simp [State.bumpReg]

@[simp] theorem State.errIrq_mem (s : State) (die) : (s.errIrq die).mem = s.mem := by
  simp only [State.errIrq]
  split <;> simp

@[simp] theorem State.countError_mem (s : State) (die cluster core unit addr) : (s.countError die cluster core unit addr).mem = s.mem := by
  simp [State.countError]

@[simp] theorem State.countUnc_mem (s : State) (pa) : (s.countUnc pa).mem = s.mem := by
  simp [State.countUnc]

@[simp] theorem State.wf_reach {s : State} (h : Memory.wf s.mem = true) (w va size t) : Memory.wf (s.reach w va size t).1.mem = true := by
  grind [State.reach, State.wf_translate, State.countUnc_mem]

@[simp] theorem State.countWalk_mem (s : State) (w va) : (s.countWalk w va).mem = s.mem := by
  simp only [State.countWalk]
  split <;> simp

@[simp] theorem State.wf_wrVa {s : State} (h : Memory.wf s.mem = true) (w va bs) : Memory.wf (s.wrVa w va bs).mem = true :=
  State.wf_foldl_fst (fun p a hp => by grind [State.wf_reach, State.wf_wr]) _ h

@[simp] theorem State.readFree_mem (s : State) (pa n) : (s.readFree pa n).1.mem = s.mem := by
  simp only [State.readFree]
  split <;> simp

@[simp] theorem State.wf_rdVa {s : State} (h : Memory.wf s.mem = true) (w va n) : Memory.wf (s.rdVa w va n).1.mem = true :=
  State.wf_foldl_fst (fun p a hp => by grind [State.wf_reach, State.readFree_mem]) _ h

@[simp] theorem State.wf_newRecord {s : State} (h : Memory.wf s.mem = true) (w bytes) : Memory.wf (s.newRecord w bytes).1.mem = true := by
  grind [State.newRecord, State.wr_mem, State.wf_wr, State.wf_wrN, State.wf_reach, State.countUnc_mem]

@[simp] theorem State.wf_ctxRecord {s : State} (h : Memory.wf s.mem = true) (c opc token detail cause lane pc addr aux) :
    Memory.wf (s.ctxRecord c opc token detail cause lane pc addr aux).1.mem = true := by
  simp [State.ctxRecord, h]

@[simp] theorem State.noteFault_mem (s : State) (launch cause taddr lane l faddr) :
    (s.noteFault launch cause taddr lane l faddr).mem = s.mem := by
  simp [State.noteFault]

@[simp] theorem State.noteKill_mem (s : State) (launch cause taddr lane l faddr) :
    (s.noteKill launch cause taddr lane l faddr).mem = s.mem := by
  simp [State.noteKill]

@[simp] theorem State.wf_tryAccess {s : State} (h : Memory.wf s.mem = true) (w space esz addr t atomic) :
    Memory.wf (s.tryAccess w space esz addr t atomic).1.mem = true := by
  grind [State.tryAccess, State.wf_translateRaw, State.wf_resolve, State.countUnc_mem]

@[simp] theorem State.jcFailure_mem (s : State) (w pc lane cause space addr) : (s.jcFailure w pc lane cause space addr).mem = s.mem := by
  simp [State.jcFailure]

@[simp] theorem State.countAt_mem (s : State) (launch loc event n) : (s.countAt launch loc event n).mem = s.mem := by
  grind [State.countAt, State.setCluster_mem, State.setCore_mem]

@[simp] theorem State.addLog_mem (s : State) (l e) : (s.addLog l e).mem = s.mem := by
  simp [State.addLog]

@[simp] theorem State.wf_jcDecrement {s : State} (h : Memory.wf s.mem = true) (w pc space a) :
    Memory.wf (s.jcDecrement w pc space a).mem = true := by
  grind [State.jcDecrement, State.wf_tryAccess, State.jcFailure_mem, State.wf_wrN, State.wf_postNotice, State.countUnc_mem, State.addLog_mem]

@[simp] theorem State.wf_jcDecrements {s : State} (h : Memory.wf s.mem = true) (c) : Memory.wf (s.jcDecrements c).mem = true :=
  State.wf_foldl (fun u l hu => by grind [State.wf_jcDecrement]) c.allLanes h

@[simp] theorem State.voidSpawns_mem (s : State) (launch ck acts) : (s.voidSpawns launch ck acts).mem = s.mem := by
  simp only [State.voidSpawns]
  split <;> simp

@[simp] theorem State.endCtx_mem (s : State) (id) : (s.endCtx id).mem = s.mem := by
  simp only [State.endCtx]
  split <;> simp

@[simp] theorem State.dropOps_mem (s : State) (p) : (s.dropOps p).mem = s.mem := by
  simp [State.dropOps]

@[simp] theorem State.setStat_mem (s : State) (bid g) : (s.setStat bid g).mem = s.mem := by
  simp [State.setStat]

@[simp] theorem State.wf_killBlock {s : State} (h : Memory.wf s.mem = true) (bid cause taddr lane faddr) :
    Memory.wf (s.killBlock bid cause taddr lane faddr).mem = true := by
  unfold State.killBlock
  split
  · exact h
  · split
    · exact h
    · extract_lets s1 ws s2 s3 s4
      have h4 : s4.mem = s.mem := by
        simp only [s4, s3, State.dropOps_mem, State.updBlock_mem, s2, State.foldl_mem fun u (c : Ctx) => u.endCtx_mem c.id]
        simp [s1]
      split
      · exact State.wf_foldl (fun u c hu => State.wf_jcDecrements hu c) ws (by rwa [h4])
      · simpa [h4] using h

@[simp] theorem State.killSlot_mem (s : State) (c cause taddr lane faddr) : (s.killSlot c cause taddr lane faddr).mem = s.mem := by
  simp [State.killSlot]

@[simp] theorem State.wf_killLaunch {s : State} (h : Memory.wf s.mem = true) (lid status spare) :
    Memory.wf (s.killLaunch lid status spare).mem = true := by
  unfold State.killLaunch
  extract_lets rank spared inside doomed gone live s1 s2 s3 s4
  have h4 : s4.mem = s.mem := by
    simp only [s4, s3, State.dropOps_mem, State.updLaunch_mem, s2, State.foldl_mem fun u (c : Ctx) => u.endCtx_mem c.id]
    simp [s1]
  exact State.wf_foldl (fun u c hu => State.wf_jcDecrements hu c) gone (by rwa [h4])

@[simp] theorem State.wf_killRest {s : State} (h : Memory.wf s.mem = true) : Memory.wf (s.killRest).mem = true :=
  State.wf_foldl (fun _ _ h => by grind [State.wf_killLaunch]) _ h

@[simp] theorem State.wf_afterUnc {s : State} (h : Memory.wf s.mem = true) (launch gang index relaunched child) :
    Memory.wf (s.afterUnc launch gang index relaunched child).mem = true := by
  grind [State.afterUnc, State.wf_killLaunch, State.updLaunch_mem]

@[simp] theorem State.wf_killUnc {s : State} (h : Memory.wf s.mem = true) (bid taddr lane faddr) :
    Memory.wf (s.killUnc bid taddr lane faddr).mem = true := by
  grind [State.killUnc, State.wf_killBlock, State.wf_afterUnc]

@[simp] theorem State.wf_killGang {s : State} (h : Memory.wf s.mem = true) (c cause taddr lane faddr) :
    Memory.wf (s.killGang c cause taddr lane faddr).mem = true := by
  simp only [State.killGang, State.endCtx_mem]
  exact State.wf_foldl (fun u b hu => State.wf_killBlock hu ..) _ (by split <;> simp [h])

@[simp] theorem State.wf_takeTrap {s : State} (h : Memory.wf s.mem = true) (cid t) : Memory.wf (s.takeTrap cid t).mem = true := by
  grind [State.takeTrap, State.wf_killGang, State.wf_killBlock, State.setStat_mem, State.killSlot_mem, State.updCtx_mem]

@[simp] theorem State.barrierRelease_mem (s : State) (bid : Nat) : (s.barrierRelease bid).mem = s.mem := by
  simp only [State.barrierRelease]
  split
  · rfl
  · exact State.foldl_mem (fun _ _ => State.updCtx_mem ..) _ s

/-! ### Access.lean -/

@[simp] theorem State.wf_ownerHit {s : State} (h : Memory.wf s.mem = true) (pa pc lane) : Memory.wf (s.ownerHit pa pc lane).mem = true := by
  grind [State.ownerHit, State.wf_killUnc]

@[simp] theorem State.wf_uncHit {s : State} (h : Memory.wf s.mem = true) (pa pc lane) : Memory.wf (s.uncHit pa pc lane).mem = true := by
  simp [State.uncHit, h]

@[simp] theorem State.wf_readElem {s : State} (h : Memory.wf s.mem = true) (pa n pc lane) :
    Memory.wf (s.readElem pa n pc lane).1.mem = true := by
  simp only [State.readElem]
  split <;> simp [h]

@[simp] theorem State.wf_rmwAt {s : State} (h : Memory.wf s.mem = true) (r pa x y pc lane) :
    Memory.wf (s.rmwAt r pa x y pc lane).1.mem = true := by
  grind [State.rmwAt, State.wf_wrN, State.wf_readElem]

@[simp] theorem State.xlat_mem (s : State) (w addr) : (s.xlat w addr).1.mem = s.mem := by
  grind [State.xlat, State.countUnc_mem]

@[simp] theorem State.wf_readSingly {s : State} (h : Memory.wf s.mem = true) (w space pc lane addr n acc sh) :
    Memory.wf (s.readSingly w space pc lane addr n acc sh).1.mem = true := by
  induction n generalizing s addr acc sh with
  | zero => exact h
  | succ k ih =>
    unfold State.readSingly
    grind [State.wf_tryAccess, State.wf_readElem]

theorem Gather.wf_stream {g : Gather} (h : Memory.wf g.s.mem = true) (w space pc d a) :
    Memory.wf (g.stream w space pc d a).s.mem = true := by
  simp only [Gather.stream]
  grind [State.wf_readSingly, Gather.fail, State.wf_postNotice]

@[simp] theorem State.updOvertaken_mem (s : State) (g) : (s.updOvertaken g).mem = s.mem := by
  simp only [State.updOvertaken]
  split <;> simp

@[simp] theorem State.noteWrite_mem (s : State) (ctx pa n) : (s.noteWrite ctx pa n).mem = s.mem := by
  simp [State.noteWrite]

theorem Gather.wf_lane {g : Gather} (h : Memory.wf g.s.mem = true) (w k space esz pc d a) :
    Memory.wf (g.lane w k space esz pc d a).s.mem = true := by
  unfold Gather.lane
  grind [Gather.wf_stream, Gather.fail, State.xlat_mem, State.wf_tryAccess, State.wf_postNotice, State.wf_rmwAt,
    State.noteWrite_mem, State.wf_readElem]

@[simp] theorem State.wf_performLanes {s : State} (h : Memory.wf s.mem = true) (o w k space esz todo got bad keep) :
    Memory.wf (s.performLanes o w k space esz todo got bad keep).mem = true := by
  have hg : Memory.wf (todo.foldl (fun g a => Gather.lane g w k space esz o.pc o.dst a) { s := s, got := got, bad := bad, todo := [] }).s.mem
      = true :=
    List.foldlRecOn todo _ (motive := fun g : Gather => Memory.wf g.s.mem = true) h fun g hg a _ => Gather.wf_lane hg ..
  simp only [State.performLanes]
  split <;> exact hg

@[simp] theorem State.wf_performAccess {s : State} (h : Memory.wf s.mem = true) (o k space esz accs) :
    Memory.wf (s.performAccess o k space esz accs).mem = true := by
  grind [State.performAccess, State.wf_performLanes]

@[simp] theorem State.wf_lateFail {s : State} (h : Memory.wf s.mem = true) (w pc lane cause addr) :
    Memory.wf (s.lateFail w pc lane cause addr).mem = true := by
  grind [State.lateFail, State.wf_killGang, State.noteFault_mem, State.wf_killBlock]

@[simp] theorem State.reportUnc_mem (s : State) (w pc lane addr) : (s.reportUnc w pc lane addr).mem = s.mem := by
  simp only [State.reportUnc]
  split <;> simp

@[simp] theorem State.wf_writeLane {s : State} (h : Memory.wf s.mem = true) (w op space esz pc a) :
    Memory.wf (s.writeLane w op space esz pc a).1.mem = true := by
  grind [State.writeLane, State.wf_tryAccess, State.reportUnc_mem, State.wr_mem, State.wf_wr, State.noteWrite_mem, State.wf_lateFail, State.wf_rmwAt]

@[simp] theorem State.wf_writeLanes {s : State} (h : Memory.wf s.mem = true) (w op space esz pc accs) :
    Memory.wf (s.writeLanes w op space esz pc accs).1.mem = true := by
  induction accs generalizing s with
  | nil => exact h
  | cons a r ih =>
    unfold State.writeLanes
    grind [State.wf_writeLane]

@[simp] theorem State.wf_noticeLanes {s : State} (h : Memory.wf s.mem = true) (w accs) : Memory.wf (s.noticeLanes w accs).mem = true :=
  State.wf_foldl (fun _ _ hu => State.wf_postNotice hu ..) accs h

@[simp] theorem State.pushLog_mem (s : State) (c pc code act) : (s.pushLog c pc code act).mem = s.mem := by
  simp [State.pushLog]

theorem State.wf_commitWrite {s t : State} (h : Memory.wf s.mem = true) {c op space esz pc accs code wrap}
    (ht : s.commitWrite c op space esz pc accs code wrap = some t) :
    Memory.wf t.mem = true := by
  grind [State.commitWrite, State.wf_writeLanes, State.pushLog_mem, State.wf_noticeLanes]

/-! ### Barrier.lean -/

@[simp] theorem State.wf_barrierRecord {s : State} (h : Memory.wf s.mem = true) (w nm detail cause addr aux) :
    Memory.wf (s.barrierRecord w nm detail cause addr aux).1.mem = true := by
  simp [State.barrierRecord, h]

@[simp] theorem State.endWaits_mem (s : State) (pa p rec) : (s.endWaits pa p rec).mem = s.mem := by
  simp [State.endWaits]

@[simp] theorem State.wf_barrierUnreadable {s : State} (h : Memory.wf s.mem = true) (w nm pa addr aux own) :
    Memory.wf (s.barrierUnreadable w nm pa addr aux own).mem = true := by
  grind [State.barrierUnreadable, State.wf_uncHit, State.wf_barrierRecord, State.updOp_mem, State.endWaits_mem]

@[simp] theorem State.hearRelease_mem (s : State) (own pa) : (s.hearRelease own pa).mem = s.mem := by
  simp [State.hearRelease]

@[simp] theorem State.wf_arrive {s : State} (h : Memory.wf s.mem = true) (w nm space pa addr n b psn) :
    Memory.wf (s.arrive w nm space pa addr n b psn).mem = true := by
  unfold State.arrive
  extract_lets aux x excess
  refine Memory.wf_ite (State.wf_barrierUnreadable h ..) (Memory.wf_ite h ?_)
  split
  rename_i s1 x1 hx
  have h1 : Memory.wf s1.mem = true := by
    split at hx <;> cases hx
    · exact State.wf_barrierRecord h ..
    · exact h
  refine Memory.wf_ite ?_ (State.wf_wr h1 ..)
  rw [State.endWaits_mem]
  exact State.wf_wr h1 ..

@[simp] theorem State.wf_barrierInit {s : State} (h : Memory.wf s.mem = true) (w nm scope pa addr arr bytes) :
    Memory.wf (s.barrierInit w nm scope pa addr arr bytes).mem = true := by
  grind [State.barrierInit, State.wr_mem, State.wf_wr, State.wf_barrierRecord, State.endWaits_mem]

@[simp] theorem State.wf_performPbwait {s : State} (h : Memory.wf s.mem = true) (o w cur phase space base) :
    Memory.wf (s.performPbwait o w cur phase space base).mem = true := by
  grind [State.performPbwait, State.wf_tryAccess, State.wf_barrierUnreadable, State.wf_postNotice, State.updOp_mem]

@[simp] theorem State.wf_arriveAt {s : State} (h : Memory.wf s.mem = true) (w nm rel own space base n bytes psn) :
    Memory.wf (s.arriveAt w nm rel own space base n bytes psn).1.mem = true := by
  grind [State.arriveAt, State.hearRelease_mem, State.wf_tryAccess, State.wf_arrive, State.wf_lateFail]

theorem State.wf_commitArrive {s t : State} (h : Memory.wf s.mem = true) {c pc code opc token space base n bytes psn}
    (ht : s.commitArrive c pc code opc token space base n bytes psn = some t) :
    Memory.wf t.mem = true := by
  grind [State.commitArrive, State.wf_arriveAt, State.pushLog_mem, State.wf_postNotice]

@[simp] theorem State.wf_initAt {s : State} (h : Memory.wf s.mem = true) (w pc scope space base arr bytes) :
    Memory.wf (s.initAt w pc scope space base arr bytes).1.mem = true := by
  grind [State.initAt, State.wf_tryAccess, State.wf_lateFail, State.wf_barrierInit]

theorem State.wf_commitTkarr {s t : State} (h : Memory.wf s.mem = true) {c pc code rel k space base bytes}
    (ht : s.commitTkarr c pc code rel k space base bytes = some t) :
    Memory.wf t.mem = true := by
  grind [State.commitTkarr, State.wf_commitArrive]

/-! ### Rings.lean -/

@[simp] theorem State.wf_ringAt {s : State} (h : Memory.wf s.mem = true) (w space base) :
    Memory.wf (s.ringAt w space base).1.mem = true := by
  grind [State.ringAt, State.wf_tryAccess]

@[simp] theorem State.wf_ringPublish {s : State} (h : Memory.wf s.mem = true) (r i bytes failed) :
    Memory.wf (s.ringPublish r i bytes failed).mem = true := by
  simp only [State.ringPublish]
  exact State.wf_wr (State.wf_wr h ..) ..

@[simp] theorem State.wf_ringFree {s : State} (h : Memory.wf s.mem = true) (r i) : Memory.wf (s.ringFree r i).mem = true := by
  grind [State.ringFree, State.wr_mem, State.wf_wr]

@[simp] theorem State.wf_ringInit {s : State} (h : Memory.wf s.mem = true) (pa base off cfg) :
    Memory.wf (s.ringInit pa base off cfg).mem = true := by
  grind [State.ringInit, State.wr_mem, State.wf_wr]

@[simp] theorem State.finishOp_mem (s : State) (id r) : (s.finishOp id r).mem = s.mem := by
  simp [State.finishOp]

@[simp] theorem State.wf_startRacq {s : State} (h : Memory.wf s.mem = true) (o w cons space base) :
    Memory.wf (s.startRacq o w cons space base).mem = true := by
  grind [State.startRacq, State.setCluster_mem, State.wf_ringAt, State.wf_uncHit, State.finishOp_mem, State.updOp_mem]

@[simp] theorem State.wf_performRrel {s : State} (h : Memory.wf s.mem = true) (o w free last space base slot bytes) :
    Memory.wf (s.performRrel o w free last space base slot bytes).mem = true := by
  unfold State.performRrel
  split <;> rename_i hr <;> have h1 := State.wf_fst hr (State.wf_ringAt h ..)
  · rwa [State.finishOp_mem]
  · extract_lets r q i x aux s2
    have h2 : Memory.wf s2.mem = true := Memory.wf_of_eq (State.setStat_mem ..) h1
    split
    · rw [State.finishOp_mem]
      exact State.wf_uncHit h1 ..
    split
    · rwa [State.finishOp_mem]
    split
    · exact Memory.wf_ite (by rw [State.finishOp_mem]; exact State.wf_ringFree h1 ..) (by rwa [State.finishOp_mem])
    split
    · rwa [State.finishOp_mem]
    split
    · rwa [State.finishOp_mem]
    split <;> rw [State.finishOp_mem]
    · exact State.wf_ringPublish (State.wf_newRecord h2 ..) ..
    · exact State.wf_ringPublish h1 ..

/-! ### Spawns.lean -/

@[simp] theorem State.countQuiet_mem (s : State) (w : Who) (va size : Nat) : (s.countQuiet w va size).mem = s.mem := by
  unfold State.countQuiet
  split
  · split <;> simp
  · simp
  · rfl

@[simp] theorem State.countSpawn_mem (s : State) (w idx) : (s.countSpawn w idx).mem = s.mem := by
  simp only [State.countSpawn]
  split <;> simp

@[simp] theorem State.wf_writeSpillHeader {s : State} (h : Memory.wf s.mem = true) (l ck high) :
    Memory.wf (s.writeSpillHeader l ck high).mem = true := by
  simp [State.writeSpillHeader, h]

@[simp] theorem State.wf_spillEntry {s : State} (h : Memory.wf s.mem = true) (launch ck r jmap) :
    Memory.wf (s.spillEntry launch ck r jmap).mem = true := by
  simp only [State.spillEntry]
  split <;> simp [h]

@[simp] theorem State.wf_reserveOne {s : State} (h : Memory.wf s.mem = true) (c jmap r) :
    Memory.wf (s.reserveOne c jmap r).1.mem = true := by
  simp only [State.reserveOne]
  split <;> simp [h]

@[simp] theorem State.wf_reserve {s : State} (h : Memory.wf s.mem = true) (c jmap rs) : Memory.wf (s.reserve c jmap rs).1.mem = true := by
  refine State.wf_foldl_fst (fun p r hp => ?_) rs h
  exact State.wf_reserveOne hp c jmap r

@[simp] theorem State.entriesAdded_mem (s : State) (launch ck rs) : (s.entriesAdded launch ck rs).mem = s.mem := by
  simp [State.entriesAdded]

@[simp] theorem State.wf_spawnAdds {s : State} (h : Memory.wf s.mem = true) (w pc jmap rs) :
    Memory.wf (s.spawnAdds w pc jmap rs).1.mem = true := by
  unfold State.spawnAdds
  extract_lets sp withJc
  split
  · refine State.wf_foldl (fun u r hu => ?_) withJc h
    split
    · exact State.wf_postNotice hu ..
    · exact hu
  · have hw := State.wf_writeLanes h w (some (.int 0 2)) sp 8 pc (withJc.map fun r => { lane := r.lane, addr := r.jc, x := (1, 0), y := 0 })
    grind [State.voidSpawns_mem, State.entriesAdded_mem]

@[simp] theorem State.wf_performJcwait {s : State} (h : Memory.wf s.mem = true) (o w space base) :
    Memory.wf (s.performJcwait o w space base).mem = true := by
  grind [State.performJcwait, State.wf_tryAccess, State.wf_uncHit, State.finishOp_mem, State.wf_postNotice, State.updOp_mem]

@[simp] theorem State.wf_qAppend {s : State} (h : Memory.wf s.mem = true) (q rec) : Memory.wf (s.qAppend q rec).mem = true := by
  grind [State.qAppend, State.setReg_mem, State.wr_mem, State.wf_wr]

@[simp] theorem State.wf_performLaunchg {s : State} (h : Memory.wf s.mem = true) (o w rec q) :
    Memory.wf (s.performLaunchg o w rec q).mem = true := by
  grind [State.performLaunchg, State.wf_tryAccess, State.wf_uncHit, State.wf_qAppend, State.finishOp_mem, State.wf_postNotice, State.updOp_mem]

/-! ### Fabric.lean -/

@[simp] theorem State.wf_postRemote {s : State} (h : Memory.wf s.mem = true) (w va kind) :
    Memory.wf (s.postRemote w va kind).mem = true := by
  simp only [State.postRemote]
  split <;> simp [h]

@[simp] theorem State.wf_remoteAccess {s : State} (h : Memory.wf s.mem = true) (die port peer va size al t) :
    Memory.wf (s.remoteAccess die port peer va size al t).1.mem = true := by
  grind [State.remoteAccess, State.wf_translate, State.wf_postRemote, State.countUnc_mem]

@[simp] theorem State.wf_remoteAll {s : State} (h : Memory.wf s.mem = true) (die port peer size t lane vas) :
    Memory.wf (s.remoteAll die port peer size t lane vas).1.mem = true := by
  induction vas generalizing s lane with
  | nil => exact h
  | cons va r ih =>
    unfold State.remoteAll
    grind [State.wf_remoteAccess]

@[simp] theorem State.wf_remoteCounter {s : State} (h : Memory.wf s.mem = true) (die port peer va) :
    Memory.wf (s.remoteCounter die port peer va).1.mem = true := by
  grind [State.remoteCounter, State.wf_remoteAccess]

@[simp] theorem State.wf_remoteFlag {s : State} (h : Memory.wf s.mem = true) (die port peer flag) :
    Memory.wf (s.remoteFlag die port peer flag).1.mem = true := by
  simp only [State.remoteFlag]
  split <;> simp [h]

@[simp] theorem State.wf_bumpFlag {s : State} (h : Memory.wf s.mem = true) (pa) : Memory.wf (s.bumpFlag pa).mem = true := by
  simp only [State.bumpFlag]
  split <;> simp [h]

@[simp] theorem State.wf_remoteBytes {s : State} (h : Memory.wf s.mem = true) (die port peer ps bs) :
    Memory.wf (s.remoteBytes die port peer ps bs).1.mem = true := by
  induction ps generalizing s bs with
  | nil => exact h
  | cons p r ih =>
    unfold State.remoteBytes
    grind [State.wf_remoteAccess, State.wf_wr]

@[simp] theorem State.wf_remoteCheck {s : State} (h : Memory.wf s.mem = true) (die port peer ps) :
    Memory.wf (s.remoteCheck die port peer ps).1.mem = true := by
  induction ps generalizing s with
  | nil => exact h
  | cons p r ih =>
    unfold State.remoteCheck
    grind [State.wf_remoteAccess]

@[simp] theorem State.wf_performStaged {s : State} (h : Memory.wf s.mem = true) (x) : Memory.wf (s.performStaged x).1.mem = true := by
  grind [State.performStaged, State.wf_remoteBytes, State.wf_bumpFlag, State.wf_remoteFlag, State.wf_remoteCheck]

@[simp] theorem State.wf_performRequest {s : State} (h : Memory.wf s.mem = true) (die port peer r) :
    Memory.wf (s.performRequest die port peer r).1.mem = true := by
  unfold State.performRequest
  split
  · split <;> rename_i h1 <;> exact State.wf_fst h1 (State.wf_remoteAll h ..)
  · split <;> rename_i h1 <;> replace h1 := State.wf_fst h1 (State.wf_remoteAll h ..)
    · exact h1
    · split <;> rename_i h2 <;> replace h2 := State.wf_fst h2 (State.wf_remoteFlag h1 ..)
      · exact h2
      · exact State.wf_bumpFlag (State.wf_foldl (fun _ _ hv => State.wf_wrN hv ..) _ h2) ..
  · extract_lets size
    split <;> rename_i h1 <;> replace h1 := State.wf_fst h1 (State.wf_remoteAll h ..)
    · exact h1
    · split <;> rename_i h2 <;> replace h2 := State.wf_fst h2 (State.wf_remoteFlag h1 ..)
      · exact h2
      · exact State.wf_bumpFlag (State.wf_foldl_fst (fun _ _ hv => State.wf_wrN hv ..) _ h2) ..
  · split <;> rename_i h1 <;> replace h1 := State.wf_fst h1 (State.wf_remoteFlag h ..)
    · exact h1
    · split <;> rename_i h2 <;> replace h2 := State.wf_fst h2 (State.wf_remoteBytes h1 ..)
      · exact h2
      · exact Memory.wf_ite (State.wf_bumpFlag h2 ..) h2
  · split <;> rename_i h1 <;> replace h1 := State.wf_fst h1 (State.wf_remoteFlag h ..)
    · exact h1
    · split <;> rename_i h2 <;> replace h2 := State.wf_fst h2 (State.wf_remoteCheck h1 ..)
      · exact h2
      · simpa only [State.setDie_mem] using h2
  · simp only
    split
    · exact h
    · exact State.wf_performStaged (by rwa [State.setDie_mem]) ..
  · split <;> rename_i h1 <;> replace h1 := State.wf_fst h1 (State.wf_remoteCounter h ..)
    · exact h1
    · split <;> rename_i h2 <;> replace h2 := State.wf_fst h2 (State.wf_remoteBytes h1 ..)
      · exact h2
      · exact State.wf_bumpFlag h2 ..
  · split <;> rename_i h1 <;> replace h1 := State.wf_fst h1 (State.wf_remoteCounter h ..)
    · exact h1
    · exact State.wf_bumpFlag h1 ..

@[simp] theorem State.connect_mem (s : State) (die peer) : (s.connect die peer).1.mem = s.mem := by
  grind [State.connect, Table.wf_set, State.setDie_mem]

@[simp] theorem State.post_mem (s : State) (die op peer r) : (s.post die op peer r).mem = s.mem := by
  simp only [State.post]
  split <;> simp

@[simp] theorem State.wf_engineRead {s : State} (h : Memory.wf s.mem = true) (w pc space ps acc) :
    Memory.wf (s.engineRead w pc space ps acc).1.mem = true := by
  induction ps generalizing s acc with
  | nil => exact h
  | cons p r ih =>
    unfold State.engineRead
    grind [State.wf_tryAccess, State.wf_uncHit]

@[simp] theorem State.wf_holdOp {s : State} (h : Memory.wf s.mem = true) (o w va kind aux) :
    Memory.wf (s.holdOp o w va kind aux).mem = true := by
  simp [State.holdOp, h]

@[simp] theorem State.sendTo_mem (s : State) (o dev r) : (s.sendTo o dev r).mem = s.mem := by
  grind [State.sendTo, State.post_mem, State.finishOp_mem, State.connect_mem, State.updOp_mem]

@[simp] theorem State.sendMembers_mem (s : State) (o r ms) : (s.sendMembers o r ms).1.mem = s.mem := by
  induction ms generalizing s with
  | nil => rfl
  | cons m t ih =>
    unfold State.sendMembers
    grind [State.connect_mem, State.post_mem]

@[simp] theorem State.settleMembers_mem (s : State) (id) : (s.settleMembers id).mem = s.mem := by
  grind [State.settleMembers, State.finishOp_mem]

@[simp] theorem State.loseMember_mem (s : State) (id peer) : (s.loseMember id peer).mem = s.mem := by
  simp [State.loseMember]

@[simp] theorem State.wf_startFabric {s : State} (h : Memory.wf s.mem = true) (o w c) : Memory.wf (s.startFabric o w c).mem = true := by
  have hread := fun (pc : W64) (sp : Nat) (ps : List (Nat × Nat)) => State.wf_engineRead h w pc sp ps []
  unfold State.startFabric
  cases c with
  | coll => exact h
  | rstm ssp s0 s1 dst src size ms =>
    simp only
    split
    · exact h
    · split
      · exact h
      · split
        · exact h
        · split
          · exact h
          · split
            case h_4 s1' lb hlist =>
              have h1 : Memory.wf s1'.mem = true := by grind
              split
              · exact h1
              · split
                case h_4 s2 bs hbytes =>
                  have h2 : Memory.wf s2.mem = true := by grind [State.wf_engineRead]
                  split
                  · exact h2
                  · rwa [State.settleMembers_mem, State.updOp_mem, State.sendMembers_mem]
                all_goals grind [State.wf_engineRead, State.wf_holdOp, State.finishOp_mem]
            all_goals grind [State.wf_holdOp, State.finishOp_mem]
  | _ => grind [State.finishOp_mem, State.sendTo_mem, State.wf_holdOp]

end Sys2Proof.Machine
end

section
/-! PROOFS. The engines keep memory's form. -/

namespace Sys2Proof.Machine

/-! ### Engine.lean -/

@[simp] theorem Eng.Keeps.chk  (w space n addr t aux atomic) : (Eng.chk w space n addr t aux atomic).Keeps := by
  refine ⟨fun s h => ?_⟩
  unfold Eng.chk
  grind [State.wf_tryAccess]

@[simp] theorem Eng.Keeps.get  (pa n addr aux pc) : (Eng.get pa n addr aux pc).Keeps := by
  refine ⟨fun s h => ?_⟩
  unfold Eng.get
  grind [State.wf_uncHit]

@[simp] theorem Eng.Keeps.word  (w space n addr aux pc) : (Eng.word w space n addr aux pc).Keeps := by
  simp [Eng.word]

@[simp] theorem State.wf_endEngine {s : State} (h : Memory.wf s.mem = true) (o w r) : Memory.wf (s.endEngine o w r).mem = true := by
  simp only [State.endEngine]
  split <;> simp [h]

/-! ### GrammarEngine.lean -/

theorem Eng.Keeps.once (l) {rd : Eng Nat} (hrd : rd.Keeps) : (Eng.once l rd).Keeps := by
  refine ⟨fun s h => ?_⟩
  have := hrd.run s h
  simp only [Eng.once]
  grind [State.setCluster_mem]

@[simp] theorem State.keepRead_mem (s : State) (l held) : (s.keepRead l held).mem = s.mem := by
  simp [State.keepRead]

theorem Eng.Keeps.block (l pa addr n pc) : (Eng.block l pa addr n pc).Keeps :=
  .bind (.collect fun _ => .once l (.get ..)) fun _ => .pure _

theorem Eng.Keeps.item (l h bw x ds r d i p it pc) : (Eng.item l h bw x ds r d i p it pc).Keeps :=
  .ite (.bind (.need ..) fun _ => .bind (.need ..) fun _ => .collect fun _ => .get ..) (.bind (.need ..) fun _ => .pure _)

theorem Eng.Keeps.items (w l h bw x ds r d p pc i n sums) : (Eng.items w l h bw x ds r d p pc i n sums).Keeps := by
  induction n generalizing i sums with
  | zero => exact .pure _
  | succ k ih => exact .bind (.once l (.word ..)) fun _ => .bind (.item ..) fun _ => ih ..

theorem Eng.Keeps.rules (w l h bw x pc r n p ds) : (Eng.rules w l h bw x pc r n p ds).Keeps := by
  induction n generalizing r p ds with
  | zero => exact .bind (.need ..) fun _ => .pure _
  | succ k ih =>
    exact .bind (.once l (.word ..)) fun _ => .bind (.need ..) fun _ => .bind (.need ..) fun _ => .bind (.items ..) fun _ =>
      .bind (.each fun _ => .wr ..) fun _ => ih ..

theorem Eng.Keeps.rowTable (w l h pc) : (Eng.rowTable w l h pc).Keeps :=
  .collect fun _ => .bind (.once l (.word ..)) fun _ => .bind (.need ..) fun _ => .pure _

@[simp] theorem Eng.Keeps.gDesc  (w dglb dsc t) : (Eng.gDesc w dglb dsc t).Keeps := by
  simp [Eng.gDesc]

theorem Eng.Keeps.gbindBody (w l pa hdr pc) : (Eng.gbindBody w l pa hdr pc).Keeps :=
  .bind (.chk ..) fun _ => .bind (.block ..) fun _ => .bind (.need ..) fun _ => .bind (.rules ..) fun _ =>
    .bind (.rowTable ..) fun _ => .wr ..

@[simp] theorem State.wf_unbind {s : State} (h : Memory.wf s.mem = true) (o) : Memory.wf (s.unbind o).mem = true := by
  have hdesc := fun dglb dsc => (Eng.Keeps.gDesc (o.who.as 3) dglb dsc .write).run s h
  unfold State.unbind
  grind [State.wf_wr]

@[simp] theorem State.wf_performGbind {s : State} (h : Memory.wf s.mem = true) (o w dglb dsc hdr) :
    Memory.wf (s.performGbind o w dglb dsc hdr).1.mem = true := by
  have hdesc := (Eng.Keeps.gDesc w dglb dsc.toNat .write).run s h
  have hbody := fun (t : State) (ht : Memory.wf t.mem = true) (pa : Nat) => (Eng.Keeps.gbindBody w o.loc pa hdr.toNat o.pc).outcome ht
  unfold State.performGbind
  grind [State.wf_wr]

theorem Eng.Keeps.xRange (w space x n) : (Eng.xRange w space x n).Keeps :=
  .collect fun _ => .bind (.chk ..) fun _ => .pure _

theorem Eng.Keeps.yRange (w space add y n) : (Eng.yRange w space add y n).Keeps :=
  .collect fun _ => .bind (.chk ..) fun _ => .pure _

theorem Eng.Keeps.yWrite (l add bw e b a pa pc) : (Eng.yWrite l add bw e b a pa pc).Keeps :=
  .branch (.pure _) (.get ..) fun _ => .ite (.ite (.pure _) (.bind (.get ..) fun _ => .wr ..)) (.wr ..)

theorem Eng.Keeps.gmv (w l add dglb bw xsp ysp dsc x y pc) : (Eng.gmv w l add dglb bw xsp ysp dsc x y pc).Keeps :=
  .bind (.gDesc ..) fun _ => .bind (.block ..) fun _ => .bind (.need ..) fun _ => .bind (.need ..) fun _ => .bind (.need ..) fun _ =>
    .bind (.need ..) fun _ => .bind (.need ..) fun _ => .bind (.see _) fun _ => .branch (.pure _) (.xRange ..) fun _ =>
      .bind (.yRange ..) fun _ => .bind (.collect fun _ => .once l (.get ..)) fun _ => .bind (.rules ..) fun _ =>
        .bind (.rowTable ..) fun _ => .bind (.each fun _ => .each fun _ => .yWrite ..) fun _ => .pure _

@[simp] theorem State.expireHold_mem (s : State) (k) : (s.expireHold k).mem = s.mem := by
  simp only [State.expireHold]
  split <;> simp

@[simp] theorem State.dropHold_mem (s : State) (k ctx) : (s.dropHold k ctx).mem = s.mem := by
  grind [State.dropHold, State.setCluster_mem, State.expireHold_mem]

@[simp] theorem State.makeHold_mem (s : State) (o nrules bw) : (s.makeHold o nrules bw).mem = s.mem := by
  grind [State.makeHold, State.setCluster_mem, State.expireHold_mem]

@[simp] theorem State.holdBegins_mem (s : State) (k ctx) : (s.holdBegins k ctx).mem = s.mem := by
  grind [State.holdBegins, State.setCluster_mem]

/-- A free value more leaves memory alone. -/
theorem State.wf_withFreeIdx {s : State} (h : Memory.wf s.mem = true) (n : Nat) :
    Memory.wf ({ s with freeIdx := n } : State).mem = true := h

@[simp] theorem State.wf_scrambleFile {s : State} (h : Memory.wf s.mem = true) (l) : Memory.wf (s.scrambleFile l).mem = true := by
  unfold State.scrambleFile
  exact State.wf_withFreeIdx (State.wf_putBytes h ..) _

@[simp] theorem State.wf_performGmv {s : State} (h : Memory.wf s.mem = true) (o w add hold dglb bw xsp ysp dsc x y) :
    Memory.wf (s.performGmv o w add hold dglb bw xsp ysp dsc x y).mem = true := by
  unfold State.performGmv
  extract_lets s0
  have h0 := (Eng.Keeps.gmv w o.loc add dglb bw xsp ysp dsc.toNat x.toNat y.toNat o.pc).run s0 (by simpa [s0] using h)
  split <;> grind [State.makeHold_mem, State.keepRead_mem, State.finishOp_mem, State.wf_holdOp, State.wf_scrambleFile, State.wf_endEngine]

@[simp] theorem Eng.Keeps.grvrd  (w l space dst first count bw pc) : (Eng.grvrd w l space dst first count bw pc).Keeps :=
  .bind (.need ..) fun _ => .bind (.collect fun _ => .chk ..) fun _ => .bind (.collect fun _ => .get ..) fun _ =>
    .each fun _ => .act fun _ h => State.wf_wr h ..

@[simp] theorem State.wf_copyGrvrd {s : State} (h : Memory.wf s.mem = true) (o w space dst first count bw) :
    Memory.wf (s.copyGrvrd o w space dst first count bw).mem = true := by
  have := Eng.Keeps.outcome (Eng.Keeps.grvrd w o.loc space dst.toNat first.toNat count.toNat bw o.pc) h
  unfold State.copyGrvrd
  grind [State.wf_holdOp, State.wf_endEngine]

@[simp] theorem State.wf_performGrvrd {s : State} (h : Memory.wf s.mem = true) (o w space dst first count) :
    Memory.wf (s.performGrvrd o w space dst first count).mem = true := by
  grind [State.performGrvrd, State.wf_copyGrvrd, State.finishOp_mem, State.expireHold_mem]

@[simp] theorem State.wf_startGrvrd {s : State} (h : Memory.wf s.mem = true) (o w space dst first count) :
    Memory.wf (s.startGrvrd o w space dst first count).mem = true := by
  simp only [State.startGrvrd]
  split <;> simp [h]

@[simp] theorem State.wf_performGrammar {s : State} (h : Memory.wf s.mem = true) (o) : Memory.wf (s.performGrammar o).mem = true := by
  grind [State.performGrammar, State.keepRead_mem, State.wf_endEngine, State.updOp_mem, State.wf_performGbind, State.wf_performGrvrd,
    State.wf_performGmv]

theorem State.wf_startGrammar {s t : State} (h : Memory.wf s.mem = true) {id} (ht : s.startGrammar id = some t) :
    Memory.wf t.mem = true := by
  grind [State.startGrammar, State.keepRead_mem, State.wf_performGrammar]

/-! ### CopyEngine.lean -/

theorem Eng.Keeps.endPa (w e t pos) : (Eng.endPa w e t pos).Keeps :=
  .ite (.bind (.see _) fun _ => .bind (.need ..) fun _ => .pure _)
    (.bind (.chk ..) fun _ => .bind (.see _) fun _ => .bind (.need ..) fun _ => .pure _)

theorem Eng.Keeps.sourceBytes (w src pos n pc) : (Eng.sourceBytes w src pos n pc).Keeps := by
  refine .bind (.endPa ..) fun _ => .bind (.see _) fun bad => ?_
  cases bad with
  | none => exact .see _
  | some i => exact .bind (.act fun _ h => State.wf_uncHit h ..) fun _ => .fail ..

theorem Eng.Keeps.piece (w src dst pos n pc) : (Eng.piece w src dst pos n pc).Keeps :=
  .bind (.collect fun _ => .sourceBytes ..) fun _ => .bind (.endPa ..) fun _ => .wr ..

theorem Eng.Keeps.row (w r start pc) : (Eng.row w r start pc).Keeps :=
  .each fun _ => .piece ..

theorem Eng.Keeps.index (w isp list i width esz pc) : (Eng.index w isp list i width esz pc).Keeps :=
  .bind (.collect fun _ => .word ..) fun _ => .pure _

theorem Eng.Keeps.part (w rs pc) : (Eng.part w rs pc).Keeps :=
  .bind (.collect fun _ => .bind (.collect fun _ => .sourceBytes ..) fun _ => .bind (.endPa ..) fun _ => .pure _) fun _ =>
    .act fun _ h => State.wf_foldl (fun _ _ hu => State.wf_wr hu ..) _ h

theorem Eng.Keeps.heldWith {α : Type} (g : Nat → Nat) {e : Eng α} (he : e.Keeps) : (Eng.heldWith g e).Keeps := by
  refine ⟨fun s h => ?_⟩
  have := he.run s h
  unfold Eng.heldWith
  grind

theorem Eng.Keeps.copy (w op c place pc) : (Eng.copy w op c place pc).Keeps := by
  have move : ∀ gs : List (List Row),
      (Eng.heldWith (fun p => p + 1) (Eng.each (partsFrom (freeOrder op gs) place) fun g => Eng.part w g pc)).Keeps :=
    fun _ => .heldWith _ (.each fun _ => .part ..)
  cases c with
  | cpy => exact .bind (.need ..) fun _ => move _
  | cpyg =>
    exact .bind (.need ..) fun _ => .bind (.heldWith _ (.collect fun _ => .index ..)) fun _ => .bind (.need ..) fun _ => move _
  | hdec => exact .pure _

@[simp] theorem State.wf_holdCopy {s : State} (h : Memory.wf s.mem = true) (o w va kind pos slot pa) :
    Memory.wf (s.holdCopy o w va kind pos slot pa).mem = true := by
  simp [State.holdCopy, h]

@[simp] theorem State.wf_performCopy {s : State} (h : Memory.wf s.mem = true) (o c place) :
    Memory.wf (s.performCopy o c place).mem = true := by
  grind [State.performCopy, Eng.Keeps.copy, Eng.Keeps.copy, State.wf_endEngine, State.wf_holdCopy, Eng.Keeps.outcome, Eng.Keeps.outcome]

@[simp] theorem State.wf_startRingCopy {s : State} (h : Memory.wf s.mem = true) (o w dsp dst size) :
    Memory.wf (s.startRingCopy o w dsp dst size).mem = true := by
  grind [State.startRingCopy, State.setCluster_mem, State.wf_ringAt, State.wf_uncHit, State.finishOp_mem, State.updOp_mem]

@[simp] theorem State.wf_endRingCopy {s : State} (h : Memory.wf s.mem = true) (o w pa size slot bad) :
    Memory.wf (s.endRingCopy o w pa size slot bad).mem = true := by
  unfold State.endRingCopy
  extract_lets base
  split
  rename_i s1 r hr
  have h1 : Memory.wf s1.mem = true := by
    cases bad with
    | none => cases hr; exact h
    | some b => cases hr; exact State.wf_newRecord h ..
  split
  · split <;> simp [h1]
  · split
    · split <;> simp [h1]
    · extract_lets g n
      clear_value n
      split_ifs <;> split <;> simp [h1]

@[simp] theorem State.wf_fillSlot {s : State} (h : Memory.wf s.mem = true) (o w pa dsp dst ssp src size start slot) :
    Memory.wf (s.fillSlot o w pa dsp dst ssp src size start slot).mem = true := by
  grind [State.fillSlot, Eng.Keeps.row, Eng.Keeps.row, State.wf_endRingCopy, State.wf_holdCopy, Eng.Keeps.outcome, Eng.Keeps.outcome]

theorem Eng.Keeps.codeword (w j pc p val len code) : (Eng.codeword w j pc p val len code).Keeps := by
  induction code generalizing p val len with
  | nil => exact .pure _
  | cons c r ih => exact .ite (.pure _) (.bind (.word ..) fun _ => .ite (.pure _) (ih ..))

theorem Eng.Keeps.segment (w j pc code syms q kend p k fuel) : (Eng.segment w j pc code syms q kend p k fuel).Keeps := by
  induction fuel generalizing p k with
  | zero => exact .pure _
  | succ n ih =>
    refine .ite (.pure _) (.bind (.codeword ..) fun c => ?_)
    cases c with
    | none => exact .pure _
    | some c => exact .ite (.bind (.chk ..) fun _ => .bind (.wr ..) fun _ => ih ..) (ih ..)

@[simp] theorem Eng.Keeps.gapEntry  (w j pc seg) : (Eng.gapEntry w j pc seg).Keeps := by
  simp [Eng.gapEntry]

theorem Eng.Keeps.segmentEnd (w j pc seg n) : (Eng.segmentEnd w j pc seg n).Keeps := by
  induction n generalizing seg with
  | zero => exact .pure _
  | succ k ih => exact .bind (.gapEntry ..) fun _ => .ite (ih ..) (.pure _)

theorem Eng.Keeps.hLane (w j pc code syms seg) : (Eng.hLane w j pc code syms seg).Keeps :=
  .ite (.pure _) (.bind (.gapEntry ..) fun _ => .ite (.pure _) (.bind (.segmentEnd ..) fun _ => .bind (.segment ..) fun _ => .pure _))

theorem Eng.Keeps.hdec (w op jloc job seg lanes pc) : (Eng.hdec w op jloc job seg lanes pc).Keeps :=
  .bind (.chk ..) fun _ => .bind (.get ..) fun _ => .bind (.see _) fun _ => .bind (.need ..) fun _ => .bind (.need ..) fun _ =>
    .bind (.need ..) fun _ => .bind (.need ..) fun _ => .bind (.collect fun _ => .word ..) fun _ => .bind (.need ..) fun _ =>
      .bind (.collect fun _ => .word ..) fun _ => .bind (.need ..) fun _ =>
        .bind (.collect fun _ => .bind (.hLane ..) fun _ => .pure _) fun _ => .pure _

@[simp] theorem State.wf_performHdec {s : State} (h : Memory.wf s.mem = true) (o jloc job seg lanes) :
    Memory.wf (s.performHdec o jloc job seg lanes).mem = true := by
  have := (Eng.Keeps.hdec (o.who.as 2) o.id jloc job seg lanes o.pc).run s h
  unfold State.performHdec
  grind [State.wf_endEngine, State.finishOp_mem]

@[simp] theorem State.wf_resumeCopy {s : State} (h : Memory.wf s.mem = true) (o c a) : Memory.wf (s.resumeCopy o c a).mem = true := by
  unfold State.resumeCopy
  split
  · simp [h]
  · split <;> simp [h]

@[simp] theorem State.wf_rejectCopy {s : State} (h : Memory.wf s.mem = true) (o c a) : Memory.wf (s.rejectCopy o c a).mem = true := by
  grind [State.rejectCopy, State.wf_endRingCopy, State.finishOp_mem]

@[simp] theorem State.wf_performCopyCmd {s : State} (h : Memory.wf s.mem = true) (o c) : Memory.wf (s.performCopyCmd o c).mem = true := by
  unfold State.performCopyCmd
  split
  · simp [h]
  · split <;> simp [h]

theorem State.wf_startCopy {s t : State} (h : Memory.wf s.mem = true) {id} (ht : s.startCopy id = some t) : Memory.wf t.mem = true := by
  grind [State.startCopy, State.wf_performCopyCmd]

theorem State.wf_grantClaim {s t : State} (h : Memory.wf s.mem = true) {id} (ht : s.grantClaim id = some t) : Memory.wf t.mem = true := by
  simp only [State.grantClaim] at ht
  repeat' split at ht
  all_goals cases ht
  all_goals simp [h, State.wf_putBytes]

/-! ### EncoderEngine.lean -/

@[simp] theorem State.updSession_mem (s : State) (handle g) : (s.updSession handle g).mem = s.mem := by
  simp [State.updSession]

theorem Eng.Keeps.open (o w a) : (Eng.open o w a).Keeps := by
  refine .bind (.chk ..) fun _ => .bind (.get ..) fun _ => .bind (.see _) fun bs => ?_
  cases sessionOf bs with
  | none => exact .fail ..
  | some x =>
    refine .bind (.see _) fun p => ?_
    cases p with
    | none => exact .fail ..
    | some k => exact .bind (.act fun _ h => h) fun _ => .pure _

theorem Eng.Keeps.rowBytes (w a n pc) : (Eng.rowBytes w a n pc).Keeps :=
  .bind (.collect fun _ => .bind (.chk ..) fun _ => .bind (.get ..) fun _ => .pure _) fun _ => .pure _

theorem Eng.Keeps.surface (w x y pc) : (Eng.surface w x y pc).Keeps :=
  .bind (.collect fun _ => .rowBytes ..) fun _ => .bind (.collect fun _ => .rowBytes ..) fun _ => .pure _

theorem Eng.Keeps.codeFrame (o w x key y) : (Eng.codeFrame o w x key y).Keeps :=
  .bind (.need ..) fun _ => .bind (.surface ..) fun _ => .bind (.see _) fun _ => .bind (.act fun _ h => h) fun _ => .pure _

theorem Eng.Keeps.sendFrame (w handle buf f) : (Eng.sendFrame w handle buf f).Keeps :=
  .each fun _ => .bind (.chk ..) fun _ => .act fun _ h => by simpa using State.wf_wr h ..

theorem Eng.Keeps.encode (o w x key y buf cap) : (Eng.encode o w x key y buf cap).Keeps := by
  have session : ∀ g : Session → Session, (Eng.act fun s => s.updSession x.handle g).Keeps := fun g => .act fun _ h => h
  unfold Eng.encode
  split
  · exact .bind (.pure _) fun _ => .bind (session _) fun _ => .bind (.sendFrame ..) fun _ => .bind (session _) fun _ => .pure _
  · refine .bind (.codeFrame ..) fun f => .ite (.bind (session _) fun _ => .bind (.fail ..) fun _ => ?_) (.bind (.pure _) fun _ => ?_) <;>
      exact .bind (session _) fun _ => .bind (.sendFrame ..) fun _ => .bind (session _) fun _ => .pure _

@[simp] theorem State.wf_vencArrive {s : State} (h : Memory.wf s.mem = true) (o w bsp bar psn) :
    Memory.wf (s.vencArrive o w bsp bar psn).1.mem = true := by
  grind [State.vencArrive, State.hearRelease_mem, State.wf_tryAccess, State.wf_arrive]

@[simp] theorem State.wf_endVenc {s : State} (h : Memory.wf s.mem = true) (o w arr bsp bar r) :
    Memory.wf (s.endVenc o w arr bsp bar r).mem = true := by
  unfold State.endVenc
  split
  · exact State.wf_holdOp h ..
  · grind [State.finishOp_mem, State.wf_vencArrive, State.wf_postNotice, State.updOp_mem, State.wf_endEngine]
  · grind [State.finishOp_mem, State.wf_newRecord, State.wf_vencArrive, State.wf_postNotice, State.updOp_mem]

@[simp] theorem State.wf_resumeArrive {s : State} (h : Memory.wf s.mem = true) (o w bsp bar a) :
    Memory.wf (s.resumeArrive o w bsp bar a).mem = true := by
  grind [State.resumeArrive, State.wf_vencArrive, State.wf_endEngine, State.finishOp_mem, State.wf_postNotice]

@[simp] theorem State.unqueue_mem (s : State) (id) : (s.unqueue id).mem = s.mem := by
  simp [State.unqueue]

@[simp] theorem State.closeSession_mem (s : State) (handle) : (s.closeSession handle).mem = s.mem := by
  simp [State.closeSession]

@[simp] theorem State.wf_performEncoder {s : State} (h : Memory.wf s.mem = true) (o) : Memory.wf (s.performEncoder o).mem = true := by
  unfold State.performEncoder
  split
  · simp only
    split <;> rename_i hs
    · simpa using Eng.Keeps.of_eq (.open ..) h hs
    · exact State.wf_endEngine (Eng.Keeps.of_eq (.open ..) h hs) ..
  · grind [State.finishOp_mem, State.closeSession_mem, State.unqueue_mem]
  · refine State.wf_endVenc ?_ ..
    repeat' split
    · exact h
    · exact (Eng.Keeps.encode ..).run s h
    · exact h
  · exact h

theorem State.wf_startEncoder {s t : State} (h : Memory.wf s.mem = true) {id} (ht : s.startEncoder id = some t) :
    Memory.wf t.mem = true := by
  grind [State.startEncoder, State.wf_performEncoder, State.unqueue_mem]

end Sys2Proof.Machine
end

section
/-! PROOFS. What a run's commit, a trap and the matrix unit do keeps memory's form. -/

namespace Sys2Proof.Machine

/-! ### Image.lean -/

@[simp] theorem State.wf_putImage {s : State} (h : Memory.wf s.mem = true) (w at' bs) : Memory.wf (s.putImage w at' bs).mem = true := by
  grind [State.putImage, State.wf_wrVa, State.wr_mem, State.wf_wr]

@[simp] theorem State.wf_refreshImage {s : State} (h : Memory.wf s.mem = true) (cid) : Memory.wf (s.refreshImage cid).mem = true := by
  grind [State.refreshImage, State.wf_putImage]

@[simp] theorem State.wf_putAs {s : State} (h : Memory.wf s.mem = true) (die cl pa bs) : Memory.wf (s.putAs die cl pa bs).mem = true := by
  grind [State.putAs, State.wr_mem, State.wf_wr]

@[simp] theorem State.wf_tracePut {s : State} (h : Memory.wf s.mem = true) (die cl bs) : Memory.wf (s.tracePut die cl bs).mem = true := by
  simp [State.tracePut, h]

@[simp] theorem State.askSync_mem (s : State) (die cl) : (s.askSync die cl).mem = s.mem := by
  simp [State.askSync]

@[simp] theorem State.wf_traceRaw {s : State} (h : Memory.wf s.mem = true) (c kind body) :
    Memory.wf (s.traceRaw c kind body).mem = true := by
  grind [State.traceRaw, State.askSync_mem, State.wf_tracePut, State.updCtx_mem]

@[simp] theorem State.wf_traceLead {s : State} (h : Memory.wf s.mem = true) (cid) : Memory.wf (s.traceLead cid).mem = true := by
  grind [State.traceLead, State.updCtx_mem, State.wf_traceRaw]

@[simp] theorem State.wf_trace {s : State} (h : Memory.wf s.mem = true) (cid kind body) : Memory.wf (s.trace cid kind body).mem = true := by
  grind [State.trace, State.bumpReg_mem, State.wf_traceLead, State.updCtx_mem, State.wf_traceRaw]

@[simp] theorem State.wf_traceBoundary {s : State} (h : Memory.wf s.mem = true) (cid) : Memory.wf (s.traceBoundary cid).mem = true := by
  grind [State.traceBoundary, State.wf_traceLead]

@[simp] theorem State.wf_trapTo {s : State} (h : Memory.wf s.mem = true) (cid t) : Memory.wf (s.trapTo cid t).mem = true := by
  grind [State.trapTo, State.countAt_mem, State.wf_trace, State.wf_takeTrap]

/-! ### Effects.lean -/

@[simp] theorem State.poisonWait_mem (s : State) (cid : Nat) (lanes ps : List Nat) (pc : W64) :
    (s.poisonWait cid lanes ps pc).mem = s.mem := by
  unfold State.poisonWait
  split
  · simp only [State.updCtx_mem]
    split <;> simp
  · rfl

theorem State.endTokenWait_mem {s t : State} {cid lane : Nat} (ht : s.endTokenWait cid lane = some t) : t.mem = s.mem := by
  grind [State.endTokenWait, State.poisonWait_mem, State.updCtx_mem]

@[simp] theorem State.wf_monRead {s : State} (h : Memory.wf s.mem = true) (c is64 space addr pc lane) :
    Memory.wf (s.monRead c is64 space addr pc lane).1.mem = true := by
  grind [State.monRead, State.wf_tryAccess, State.wf_postNotice, State.wf_readElem]

@[simp] theorem State.monReturn_mem (s : State) (cid lanes d x) : (s.monReturn cid lanes d x).mem = s.mem := by
  simp [State.monReturn]

@[simp] theorem State.monTrap_mem (s : State) (cid lanes cause pc addr) : (s.monTrap cid lanes cause pc addr).mem = s.mem := by
  simp [State.monTrap]

@[simp] theorem State.wf_monFail {s : State} (h : Memory.wf s.mem = true) (c lanes cause pc addr) :
    Memory.wf (s.monFail c lanes cause pc addr).mem = true := by
  simp only [State.monFail]
  split <;> simp [h]

@[simp] theorem State.wf_monStep {s : State} (h : Memory.wf s.mem = true) (cid lanes w) : Memory.wf (s.monStep cid lanes w).mem = true := by
  unfold State.monStep
  split
  · grind [State.wf_monRead, State.updCtx_mem, State.monReturn_mem, State.wf_monFail]
  · exact h

@[simp] theorem State.wf_beginWait {s : State} (h : Memory.wf s.mem = true) (cid w lanes) : Memory.wf (s.beginWait cid w lanes).mem = true := by
  unfold State.beginWait
  split
  · exact h
  · split
    · simp only
      cases hend : State.endTokenWait _ cid _ with
      | none => exact h
      | some t => simpa [State.endTokenWait_mem hend] using h
    · simp only
      split
      · rename_i hend
        simpa [State.endTokenWait_mem hend] using h
      · split <;> exact h
    · split <;> exact h
    · exact State.wf_monStep h ..

@[simp] theorem State.wf_startOp {s : State} (h : Memory.wf s.mem = true) (o) : Memory.wf (s.startOp o).mem = true := by
  grind [State.startOp, State.wf_performPbwait, State.wf_performJcwait, State.wf_startRacq, State.wf_performRrel, State.wf_startFabric,
    State.finishOp_mem, State.wf_performAccess, State.wf_startGrvrd, State.wf_performLaunchg]

@[simp] theorem State.wf_advanceOp {s : State} (h : Memory.wf s.mem = true) (id) : Memory.wf (s.advanceOp id).mem = true := by
  grind [State.advanceOp, State.finishOp_mem, State.wf_startOp, State.unqueue_mem]

@[simp] theorem State.wf_settleOps {s : State} (h : Memory.wf s.mem = true) : Memory.wf (s.settleOps).mem = true :=
  State.wf_foldl (fun _ _ h => by simp [h]) _ h

@[simp] theorem State.wf_outcome {s : State} (h : Memory.wf s.mem = true) (o r) : Memory.wf (s.outcome o r).1.mem = true := by
  simp only [State.outcome]
  split <;> simp [h]

@[simp] theorem State.endHold_mem (s : State) (o) : (s.endHold o).mem = s.mem := by
  simp only [State.endHold]
  split <;> simp

@[simp] theorem State.wf_completeOp {s : State} (h : Memory.wf s.mem = true) (o r) : Memory.wf (s.completeOp o r).mem = true := by
  grind [State.completeOp, State.wf_refreshImage, State.wf_outcome, State.wf_settleOps, State.endHold_mem, State.updCtx_mem]

theorem State.wf_dispatch {s t : State} (h : Memory.wf s.mem = true) {c pc token pres opc rel acq scope dst cmd}
    (ht : s.dispatch c pc token pres opc rel acq scope dst cmd = some t) :
    Memory.wf t.mem = true := by
  grind [State.dispatch, State.wf_advanceOp, State.updSession_mem, State.updCtx_mem]

@[simp] theorem State.wf_gabort {s : State} (h : Memory.wf s.mem = true) (c) : Memory.wf (s.gabort c).mem = true := by
  simp only [State.gabort]
  refine State.wf_foldl (fun u o hu => ?_) _ (by simpa using h)
  split <;> simp only [State.wf_unbind hu, State.wf_scrambleFile hu]

@[simp] theorem State.sbind_mem (s : State) (c entry arg) : (s.sbind c entry arg).mem = s.mem := by
  simp only [State.sbind]
  split <;> simp

@[simp] theorem State.wf_mapWords {s : State} (h : Memory.wf s.mem = true) (l off ws) : Memory.wf (s.mapWords l off ws).mem = true :=
  State.wf_foldl (fun _ _ hu => State.wf_wr hu ..) ws h

@[simp] theorem State.haltAt_mem (s : State) (c ls pc next detail) : (s.haltAt c ls pc next detail).mem = s.mem := by
  simp [State.haltAt]

theorem State.wf_performAct {s t : State} (h : Memory.wf s.mem = true) {c : Ctx} {e : Eff} (ht : s.performAct c e = some t) :
    Memory.wf t.mem = true := by
  unfold State.performAct at ht
  extract_lets w at ht
  split at ht
  · cases ht
  cases hact : e.act <;> rw [hact] at ht
  case store | reduce | jcDec => exact State.wf_commitWrite h ht
  case tkarr => exact State.wf_commitTkarr h ht
  case arrive | pbarr => exact State.wf_commitArrive h ht
  case dispatch => exact State.wf_dispatch h ht
  case prefetch =>
    cases ht
    exact State.wf_foldl (fun _ _ hu => State.wf_tryAccess hu ..) _ h
  case tileWrite =>
    cases ht
    exact State.wf_mapWords h ..
  case scaleWrite =>
    cases ht
    exact State.wf_foldl (fun _ _ hu => State.wf_wr hu ..) _ h
  case accWrite => grind [State.wf_mapWords, State.setCore_mem]
  case sbind => grind [State.sbind_mem]
  case gabort => grind [State.wf_gabort]
  case wait => grind [State.wf_beginWait]
  case tkpsn => grind [State.wf_ctxRecord, State.updCtx_mem]
  case pbinit => grind [State.pushLog_mem, State.wf_initAt, State.wf_postNotice]
  case spawn => grind [State.wf_spawnAdds, State.pushLog_mem]
  case rinit => grind [State.wf_ringAt, State.wf_ringInit, State.wf_lateFail]
  case semit => grind [State.wf_commitWrite, State.setStat_mem]
  case sctl => grind [State.setStat_mem, State.updCtx_mem]
  case tmark | taken => grind [State.wf_trace]
  all_goals
    cases ht
    exact h

@[simp] theorem State.wf_finishCommit {s : State} (h : Memory.wf s.mem = true) (cid) : Memory.wf (s.finishCommit cid).mem = true := by
  simp only [State.finishCommit]
  split <;> simp [h]

@[simp] theorem State.wf_drainN {s : State} (h : Memory.wf s.mem = true) (cid fuel) : Memory.wf (s.drainN cid fuel).mem = true := by
  induction fuel generalizing s with
  | zero => exact h
  | succ k ih =>
    unfold State.drainN
    split
    · exact h
    · split
      · exact State.wf_finishCommit h cid
      · split
        · exact h
        · rename_i hact
          exact ih (by simpa using State.wf_performAct h hact)

@[simp] theorem State.wf_drain {s : State} (h : Memory.wf s.mem = true) (cid) : Memory.wf (s.drain cid).mem = true := by
  grind [State.drain, State.wf_drainN]

@[simp] theorem State.committed_mem (s : State) (cid) : (s.committed cid).mem = s.mem := by
  simp only [State.committed]
  split <;> simp

@[simp] theorem State.wf_drainHeld {s : State} (h : Memory.wf s.mem = true) (cid) : Memory.wf (s.drainHeld cid).mem = true := by
  simp only [State.drainHeld]
  split <;> simp [h]

/-! ### Runs.lean -/

@[simp] theorem State.wf_reserveAll {s : State} (h : Memory.wf s.mem = true) (c effs) : Memory.wf (s.reserveAll c effs).1.mem = true := by
  refine State.wf_foldl_fst (fun p e hp => ?_) effs h
  split
  · simp only
    split <;> simp [State.wf_reserve hp]
  · exact hp

@[simp] theorem State.mend_mem (s : State) (cid hs) : (s.mend cid hs).mem = s.mem := by
  simp only [State.mend]
  split <;> simp

@[simp] theorem State.countReg_mem (s : State) (l) : (s.countReg l).mem = s.mem := by
  simp [State.countReg]

@[simp] theorem State.wf_commitRun {s : State} (h : Memory.wf s.mem = true) (c r) : Memory.wf (s.commitRun c r).mem = true := by
  simp [State.commitRun, h]

@[simp] theorem State.countTrap_mem (s : State) (w t) : (s.countTrap w t).mem = s.mem := by
  simp only [State.countTrap]
  split <;> simp

/-! ### Issue.lean -/

@[simp] theorem State.wf_takeDeferred {s : State} (h : Memory.wf s.mem = true) (c ls d) : Memory.wf (s.takeDeferred c ls d).mem = true := by
  simp [State.takeDeferred, h]

@[simp] theorem State.openRun_mem (s : State) (c ls pc clash) : (s.openRun c ls pc clash).mem = s.mem := by
  simp [State.openRun]

theorem State.wf_beginRun {s t : State} (h : Memory.wf s.mem = true) {cid} (ht : s.beginRun cid = some t) : Memory.wf t.mem = true := by
  simp only [State.beginRun] at ht
  repeat' split at ht
  all_goals cases ht
  all_goals simp [h]

@[simp] theorem State.wf_fetch {s : State} (h : Memory.wf s.mem = true) (c pc) : Memory.wf (s.fetch c pc).1.mem = true := by
  grind [State.fetch, State.wf_translate, State.wf_postNotice, State.countUnc_mem]

@[simp] theorem State.wf_fetchTrap {s : State} (h : Memory.wf s.mem = true) (r cause tval) :
    Memory.wf (s.fetchTrap r cause tval).mem = true := by
  simp [State.fetchTrap, h]

/-! ### MatrixUnit.lean -/

@[simp] theorem State.wf_setAcc {s : State} (h : Memory.wf s.mem = true) (l c ws) : Memory.wf (s.setAcc l c ws).mem = true := by
  grind [State.setAcc, State.wr_mem, State.wf_wr]

@[simp] theorem State.wf_putAcc {s : State} (h : Memory.wf s.mem = true) (l c ws sh mirrored) :
    Memory.wf (s.putAcc l c ws sh mirrored).mem = true := by
  simp [State.putAcc, h]

@[simp] theorem State.wf_stepUpdate {s : State} (h : Memory.wf s.mem = true) (l c dup ws sh) :
    Memory.wf (s.stepUpdate l c dup ws sh).mem = true := by
  simp [State.stepUpdate, h]

@[simp] theorem State.wf_mmaOn {s : State} (h : Memory.wf s.mem = true) (o l b keep dup at' bt steps c y bw sw w) :
    Memory.wf (s.mmaOn o l b keep dup at' bt steps c y bw sw w).1.mem = true := by
  grind [State.mmaOn, State.wf_uncHit, State.wf_putAcc, State.setCore_mem, State.wf_stepUpdate]

@[simp] theorem State.wf_aczeroOn {s : State} (h : Memory.wf s.mem = true) (l c) : Memory.wf (s.aczeroOn l c).1.mem = true := by
  grind [State.aczeroOn, State.wf_putAcc, State.setCore_mem]

@[simp] theorem State.wf_tileCheck {s : State} (h : Memory.wf s.mem = true) (w space t atomic ps absent) :
    Memory.wf (s.tileCheck w space t atomic ps absent).1.mem = true := by
  induction ps generalizing s absent with
  | nil =>
    unfold State.tileCheck
    split <;> exact h
  | cons a r ih =>
    unfold State.tileCheck
    grind [State.wf_tryAccess]

@[simp] theorem State.wf_drainPart {s : State} (h : Memory.wf s.mem = true) (add rm ot pa ws) :
    Memory.wf (s.drainPart add rm ot pa ws).mem = true := by
  grind [State.drainPart, State.wr_mem, State.wf_wr]

@[simp] theorem State.wf_stamp {s : State} (h : Memory.wf s.mem = true) (w base bs) : Memory.wf (s.stamp w base bs).mem = true := by
  grind [State.stamp, State.wr_mem, State.wf_wr, State.wf_wrN, State.wf_reach, State.countUnc_mem]

@[simp] theorem State.wf_acdrainOn {s : State} (h : Memory.wf s.mem = true) (o seq l b add rm ot space c base pitch cstr) :
    Memory.wf (s.acdrainOn o seq l b add rm ot space c base pitch cstr).1.mem = true := by
  unfold State.acdrainOn
  extract_lets e k mir w per
  split
  · exact h
  split
  · exact State.wf_uncHit h ..
  split
  · simpa using h
  split <;> rename_i ht
  · exact State.wf_fst ht (State.wf_tileCheck h ..)
  · have h1 := State.wf_fst ht (State.wf_tileCheck h ..)
    split
    · exact State.wf_uncHit h1 ..
    · extract_lets ws s2
      have h2 : Memory.wf s2.mem = true := State.wf_foldl (fun _ _ hv => State.wf_drainPart hv ..) _ h1
      repeat' split
      all_goals simp [h2]

@[simp] theorem State.wf_acloadOn {s : State} (h : Memory.wf s.mem = true) (o l b it space c base pitch cstr) :
    Memory.wf (s.acloadOn o l b it space c base pitch cstr).1.mem = true := by
  grind [State.acloadOn, State.wf_tileCheck, State.wf_uncHit, State.wf_putAcc, State.setCore_mem]

@[simp] theorem State.wf_undoMatrix {s : State} (h : Memory.wf s.mem = true) (o m w) : Memory.wf (s.undoMatrix o m w).mem = true := by
  unfold State.undoMatrix
  split
  · simp only
    split
    · exact h
    · exact State.wf_putAcc h ..
  · exact h

@[simp] theorem State.wf_matrixOn {s : State} (h : Memory.wf s.mem = true) (o seq m w) : Memory.wf (s.matrixOn o seq m w).1.mem = true := by
  grind [State.matrixOn, State.wf_undoMatrix, State.countAt_mem, State.wf_acdrainOn, State.wf_acloadOn, State.wf_mmaOn, State.wf_aczeroOn]

@[simp] theorem State.matrixGoesOn_mem (s : State) (o seq m ws bad) : (s.matrixGoesOn o seq m ws bad).mem = s.mem := by
  simp only [State.matrixGoesOn]
  split <;> simp

@[simp] theorem State.wf_performMatrix {s : State} (h : Memory.wf s.mem = true) (o seq m n) :
    Memory.wf (s.performMatrix o seq m n).mem = true := by
  grind [State.performMatrix, State.matrixGoesOn_mem, State.wf_postNotice, State.wf_matrixOn]

theorem State.wf_startMatrix {s t : State} (h : Memory.wf s.mem = true) {id n} (ht : s.startMatrix id n = some t) :
    Memory.wf t.mem = true := by
  grind [State.startMatrix, State.wf_performMatrix]

@[simp] theorem State.wf_resumeMatrix {s : State} (h : Memory.wf s.mem = true) (o vpn seq m) :
    Memory.wf (s.resumeMatrix o vpn seq m).mem = true :=
  State.wf_foldl (fun _ _ h => by grind [State.updOp_mem, State.wf_performMatrix]) _ h

@[simp] theorem State.rejectMatrix_mem (s : State) (o vpn seq m) : (s.rejectMatrix o vpn seq m).mem = s.mem := by
  simp [State.rejectMatrix]

end Sys2Proof.Machine
end

section
/-! PROOFS. What an event does keeps memory's form. -/

namespace Sys2Proof.Machine

/-! ### TokenEvents.lean -/

@[simp] theorem State.wf_quiesce {s : State} (h : Memory.wf s.mem = true) : Memory.wf s.quiesce.mem = true := by
  simp only [State.quiesce]
  exact State.wf_killRest (State.wf_foldl (fun _ _ hu => State.wf_drainHeld hu ..) _ (State.wf_settleOps h))

theorem State.wf_tokenComplete {s t : State} (h : Memory.wf s.mem = true) {id} (ht : s.tokenComplete id = some t) :
    Memory.wf t.mem = true := by
  grind [State.tokenComplete, State.wf_completeOp, State.updCtx_mem]

theorem State.tokenWaitEnd_mem {s t : State} {cid lane} (ht : s.tokenWaitEnd cid lane = some t) : t.mem = s.mem := by
  grind [State.tokenWaitEnd, State.endTokenWait_mem]

theorem State.twaitkTimeout_mem {s t : State} {cid lane} (ht : s.twaitkTimeout cid lane = some t) : t.mem = s.mem := by
  grind [State.twaitkTimeout, State.updCtx_mem]

theorem State.wf_monitorRead {s t : State} (h : Memory.wf s.mem = true) {cid lane} (ht : s.monitorRead cid lane = some t) :
    Memory.wf t.mem = true := by
  obtain ⟨p, -, rfl⟩ := Option.map_eq_some_iff.mp ht
  exact State.wf_monStep h ..

theorem State.wf_monwaitTimeout {s t : State} (h : Memory.wf s.mem = true) {cid lane} (ht : s.monwaitTimeout cid lane = some t) :
    Memory.wf t.mem = true := by
  grind [State.monwaitTimeout, State.monReturn_mem, State.wf_monRead, State.wf_monFail, State.updCtx_mem]

theorem State.wf_lateArrival {s t : State} (h : Memory.wf s.mem = true) {i} (ht : s.lateArrival i = some t) : Memory.wf t.mem = true := by
  grind [State.lateArrival, State.wf_arriveAt, State.wf_postNotice]

theorem State.breakHold_mem {s t : State} {k} (ht : s.breakHold k = some t) : t.mem = s.mem := by
  grind [State.breakHold, State.expireHold_mem]

/-! ### Blocks.lean -/

@[simp] theorem State.charge_mem (s : State) (ck plus minus) : (s.charge ck plus minus).mem = s.mem := by
  simp [State.charge]

@[simp] theorem State.hearthPa_mem (s : State) (va t) : (s.hearthPa va t).1.mem = s.mem := by
  grind [State.hearthPa, State.countUnc_mem]

@[simp] theorem State.wf_hearthWrite {s : State} (h : Memory.wf s.mem = true) (va bs) : Memory.wf (s.hearthWrite va bs).mem = true :=
  State.wf_foldl_fst (fun _ _ h => by grind [State.hearthPa_mem, State.wr_mem, State.wf_wr]) _ h

@[simp] theorem State.wf_resultAdd {s : State} (h : Memory.wf s.mem = true) (l off n) : Memory.wf (s.resultAdd l off n).mem = true := by
  grind [State.resultAdd, State.hearthPa_mem, State.wf_wrN, State.countUnc_mem]

@[simp] theorem State.setBanks_mem (s : State) (l bs) : (s.setBanks l bs).mem = s.mem := by
  simp only [State.setBanks]
  split <;> simp

@[simp] theorem State.takeBank_mem (s : State) (launch l) : (s.takeBank launch l).mem = s.mem := by
  simp only [State.takeBank]
  split <;> simp

@[simp] theorem State.wf_latchBank {s : State} (h : Memory.wf s.mem = true) (launch l) : Memory.wf (s.latchBank launch l).mem = true := by
  simp only [State.latchBank]
  split
  · rw [State.setBanks_mem]
    exact State.wf_foldl (fun _ _ hu => State.wf_resultAdd hu ..) _ h
  · exact h

@[simp] theorem State.wf_zeroArea {s : State} (h : Memory.wf s.mem = true) (a n keep) : Memory.wf (s.zeroArea a n keep).mem = true := by
  simp only [State.zeroArea, State.settleJoins_mem]
  exact State.wf_filter h _

@[simp] theorem State.wf_clearAccs {s : State} (h : Memory.wf s.mem = true) (l) : Memory.wf (s.clearAccs l).mem = true := by
  grind [State.clearAccs, State.wf_zeroArea, State.setCore_mem]

@[simp] theorem State.wf_clearTiles {s : State} (h : Memory.wf s.mem = true) (l) : Memory.wf (s.clearTiles l).mem = true := by
  grind [State.clearTiles, State.wf_clearAccs, State.wf_zeroArea, State.wr_mem, State.wf_wr, State.setCore_mem]

@[simp] theorem State.startWarps_mem (s : State) (l b n pc arg cost gens) : (s.startWarps l b n pc arg cost gens).mem = s.mem :=
  State.foldl_mem (fun _ _ => by simp) _ _

@[simp] theorem State.wf_startBlock {s : State} (h : Memory.wf s.mem = true) (l gid lin idx c base relaunched) :
    Memory.wf (s.startBlock l gid lin idx c base relaunched).mem = true := by
  grind [State.startBlock, State.wf_zeroArea, State.wf_clearTiles, State.takeBank_mem, State.startWarps_mem, State.setCore_mem, State.charge_mem]

@[simp] theorem State.wf_firstAdmission {s : State} (h : Memory.wf s.mem = true) (l) : Memory.wf (s.firstAdmission l).mem = true := by
  unfold State.firstAdmission
  split
  · exact h
  · extract_lets s1 s2 lost
    have h1 : Memory.wf s1.mem = true := by
      simp only [s1]
      split <;> simp [h]
    have h2 : Memory.wf s2.mem = true := by
      simp only [s2]
      split
      · exact h1
      · exact State.wf_foldl (fun _ _ hu => State.wf_hearthWrite hu ..) _ h1
    exact h2

@[simp] theorem State.wf_startGang {s : State} (h : Memory.wf s.mem = true) (l lin ck picks) :
    Memory.wf (s.startGang l lin ck picks).mem = true := by
  unfold State.startGang
  extract_lets s0 gid loc seq g s1 no c s1a bare s2 s3
  have h1 : Memory.wf s1.mem = true := State.wf_firstAdmission h l
  have h1a : Memory.wf s1a.mem = true := State.wf_zeroArea h1 ..
  have hbare : Memory.wf bare.mem = true := by
    unfold bare
    split
    · exact h1a
    · rwa [State.takeBank_mem]
  have h2 : Memory.wf s2.mem = true := by
    unfold s2
    split
    · exact hbare
    · exact h1
  have h3 : Memory.wf s3.mem = true := State.wf_foldl (fun _ _ hu => State.wf_startBlock hu ..) _ h2
  exact h3

@[simp] theorem State.wf_removeBlock {s : State} (h : Memory.wf s.mem = true) (b) : Memory.wf (s.removeBlock b).mem = true := by
  grind [State.removeBlock, State.setCore_mem, State.wf_latchBank, State.charge_mem]

@[simp] theorem State.wf_removeGang {s : State} (h : Memory.wf s.mem = true) (g) : Memory.wf (s.removeGang g).mem = true := by
  grind [State.removeGang, State.wf_latchBank]

@[simp] theorem State.wf_sweep {s : State} (h : Memory.wf s.mem = true) : Memory.wf s.sweep.mem = true := by
  simp only [State.sweep]
  refine State.wf_foldl (fun u g hu => ?_) _ (State.wf_foldl (fun u b hu => ?_) _ h)
  · split <;> simp [hu]
  · split <;> simp [hu]

theorem State.wf_warpEnd {s t : State} (h : Memory.wf s.mem = true) {cid} (ht : s.warpEnd cid = some t) : Memory.wf t.mem = true := by
  grind [State.warpEnd, State.dropHold_mem, State.wf_jcDecrements, State.updLaunch_mem, State.wf_sweep, State.setStat_mem, State.updCtx_mem]

theorem State.wf_startSuccessor {s t : State} (h : Memory.wf s.mem = true) {bid} (ht : s.startSuccessor bid = some t) :
    Memory.wf t.mem = true := by
  grind [State.startSuccessor, State.wf_clearAccs, State.countSpawn_mem, State.updBlock_mem, State.startWarps_mem, State.wf_sweep, State.wf_killBlock]

theorem State.wf_homeFailure {s t : State} (h : Memory.wf s.mem = true) {i} (ht : s.homeFailure i = some t) : Memory.wf t.mem = true := by
  grind [State.homeFailure, State.wf_killUnc, State.wf_killGang, State.wf_sweep, State.wf_afterUnc, State.noteKill_mem]

/-! ### Saving.lean -/

@[simp] theorem State.wf_moveArea {s : State} (h : Memory.wf s.mem = true) (a b n) : Memory.wf (s.moveArea a b n).mem = true := by
  grind [State.moveArea, State.updOvertaken_mem, Table.wf_set, State.wr_mem, State.wf_wr]

@[simp] theorem State.wf_saveCtx {s : State} (h : Memory.wf s.mem = true) (c at') : Memory.wf (s.saveCtx c at').mem = true := by
  simp [State.saveCtx, h]

@[simp] theorem State.wf_saveMatrix {s : State} (h : Memory.wf s.mem = true) (b at') : Memory.wf (s.saveMatrix b at').mem = true := by
  grind [State.saveMatrix, State.wf_moveArea, State.wr_mem, State.wf_wr]

@[simp] theorem State.wf_loadMatrix {s : State} (h : Memory.wf s.mem = true) (b at') : Memory.wf (s.loadMatrix b at').mem = true := by
  unfold State.loadMatrix
  rw [State.setCore_mem]
  exact State.wf_moveArea (State.wf_moveArea (State.wf_moveArea h ..) ..) ..

@[simp] theorem State.wf_saveCtxs {s : State} (h : Memory.wf s.mem = true) (cs at') : Memory.wf (s.saveCtxs cs at').mem = true := by
  induction cs generalizing s at' with
  | nil => exact h
  | cons c r ih => exact ih (State.wf_saveCtx h ..) _

@[simp] theorem State.wf_saveBlock {s : State} (h : Memory.wf s.mem = true) (b at') : Memory.wf (s.saveBlock b at').mem = true := by
  unfold State.saveBlock
  extract_lets s1 s2 m s3 s4 k
  have h2 : Memory.wf s2.mem = true := State.wf_moveArea (State.wf_wr h ..) ..
  have h3 : Memory.wf s3.mem = true := by
    unfold s3
    split
    · exact State.wf_saveMatrix h2 ..
    · exact h2
  rw [State.updBlock_mem, State.charge_mem, State.setCore_mem]
  exact State.wf_saveCtxs h3 ..

@[simp] theorem State.wf_saveBlocks {s : State} (h : Memory.wf s.mem = true) (bs at') : Memory.wf (s.saveBlocks bs at').mem = true := by
  induction bs generalizing s at' with
  | nil => exact h
  | cons b r ih => exact ih (State.wf_saveBlock h ..) _

@[simp] theorem State.wf_saveGang {s : State} (h : Memory.wf s.mem = true) (g at') : Memory.wf (s.saveGang g at').mem = true := by
  grind [State.saveGang, State.wf_saveCtx, State.wf_saveBlocks, State.wf_moveArea, State.updLaunch_mem, State.updGang_mem, State.updCtx_mem]

@[simp] theorem State.loadCtx_mem (s : State) (c) : (s.loadCtx c).mem = s.mem := by
  simp [State.loadCtx]

@[simp] theorem State.wf_rearm {s : State} (h : Memory.wf s.mem = true) (cid) : Memory.wf (s.rearm cid).mem = true := by
  unfold State.rearm
  split
  · exact State.wf_foldl (fun _ _ hu => State.wf_monStep hu ..) _ h
  · exact h

@[simp] theorem State.wf_loadBlock {s : State} (h : Memory.wf s.mem = true) (l b at') : Memory.wf (s.loadBlock l b at').mem = true := by
  unfold State.loadBlock
  extract_lets cs w cost b1 s1 s2 c s3
  have h1 : Memory.wf s1.mem = true := State.wf_moveArea h ..
  have h3 : Memory.wf s3.mem = true := by
    unfold s3
    split
    · rw [State.setCore_mem]
      exact State.wf_loadMatrix h1 ..
    · exact h1
  exact State.wf_foldl (fun _ _ hu => by rwa [State.loadCtx_mem, State.updCtx_mem]) _
    (by rwa [State.updBlock_mem, State.charge_mem])

@[simp] theorem State.wf_loadGang {s : State} (h : Memory.wf s.mem = true) (l g) : Memory.wf (s.loadGang l g).mem = true := by
  unfold State.loadGang
  extract_lets s1 s2 s3
  have h1 : Memory.wf s1.mem = true := by
    simp only [s1]
    split <;> simp [h]
  have h2 : Memory.wf s2.mem = true := State.wf_foldl (fun u b hu => by split <;> simp [hu]) _ h1
  exact State.wf_foldl (fun _ _ hu => State.wf_rearm hu ..) _ h2

@[simp] theorem State.trackGated_mem (s : State) : (s.trackGated).mem = s.mem := by
  simp only [State.trackGated]
  split <;> simp

@[simp] theorem State.trackJoins_mem (s : State) : s.trackJoins.mem = s.mem := by
  simp only [State.trackJoins]
  split
  · rfl
  · rw [State.foldl_mem]
    intro u ck
    split <;> simp

@[simp] theorem State.wf_track {s : State} (h : Memory.wf s.mem = true) : Memory.wf (s.track).mem = true := by
  simpa [State.track] using h

theorem State.wf_evict {s t : State} (h : Memory.wf s.mem = true) {ck lid} (ht : s.evict ck lid = some t) : Memory.wf t.mem = true := by
  unfold State.evict at ht
  split at ht
  · cases ht
  · extract_lets now since ws at ht
    split at ht
    · cases ht
    · repeat' split at ht
      all_goals cases ht
      all_goals simp [h]

theorem State.wf_restoreWarp {s t : State} (h : Memory.wf s.mem = true) {cid core} (ht : s.restoreWarp cid core = some t) :
    Memory.wf t.mem = true := by
  unfold State.restoreWarp at ht
  split at ht
  · cases ht
  · extract_lets l at ht
    split at ht
    · cases ht
    · split at ht
      · cases ht
      · extract_lets w s1 s2a s2 s3 s4 at ht
        cases ht
        have h2 : s2.mem = s.mem := by
          simp only [s2]
          split <;> simp [s2a, s1]
        have h3 : Memory.wf s3.mem = true := by
          simp only [s3]
          split <;> simp [h2, h]
        have h4 : s4.mem = s3.mem := State.foldl_mem (fun _ _ => by simp) _ _
        exact State.wf_foldl (fun _ _ hu => State.wf_rearm hu ..) _ (by rwa [h4])

/-! ### Lens.lean -/

theorem State.entryEligible_mem {s t : State} {id} (ht : s.entryEligible id = some t) : t.mem = s.mem := by
  grind [State.entryEligible, State.setCluster_mem]

@[simp] theorem State.formWarp_mem (s : State) (ck lid entry es) : (s.formWarp ck lid entry es).mem = s.mem := by
  simp [State.formWarp]

@[simp] theorem State.flushBin_mem (s : State) (ck lid entry w fuel) : (s.flushBin ck lid entry w fuel).mem = s.mem := by
  induction fuel generalizing s with
  | zero => rfl
  | succ k ih =>
    unfold State.flushBin
    split
    · rfl
    · rw [ih, State.formWarp_mem]

theorem State.fullWarp_mem {s t : State} {ck lid entry} (ht : s.fullWarp ck lid entry = some t) : t.mem = s.mem := by
  grind [State.fullWarp, State.formWarp_mem]

theorem State.wf_ageFlush {s t : State} (h : Memory.wf s.mem = true) {ck lid entry} (ht : s.ageFlush ck lid entry = some t) :
    Memory.wf t.mem = true := by
  grind [State.ageFlush, State.flushBin_mem]

theorem State.wf_spillReturn {s t : State} (h : Memory.wf s.mem = true) {ck lid} (ht : s.spillReturn ck lid = some t) :
    Memory.wf t.mem = true := by
  simp only [State.spillReturn] at ht
  split at ht
  · cases ht
  split at ht
  · cases ht
  split at ht
  · rename_i hr
    cases ht
    have h1 := State.wf_fst hr (State.wf_rdVa h ..)
    refine State.wf_writeSpillHeader ?_ ..
    rwa [State.updLaunch_mem, State.setCluster_mem]
  · cases ht

@[simp] theorem State.wf_startChild {s : State} (h : Memory.wf s.mem = true) (l ck f c) : Memory.wf (s.startChild l ck f c).mem = true := by
  unfold State.startChild
  extract_lets k cost bid b set s1 at' counted s2 s3
  have h1 : Memory.wf counted.mem = true := Memory.wf_of_eq (State.countSpawn_mem ..) h
  have h3 : Memory.wf s3.mem = true := by
    change Memory.wf s2.mem = true
    unfold s2
    rw [State.charge_mem]
    exact Memory.wf_ite h1 (Memory.wf_of_eq (State.takeBank_mem ..) h1)
  exact Memory.wf_ite h3 (State.wf_killBlock h3 ..)

theorem State.wf_admitChild {s t : State} (h : Memory.wf s.mem = true) {ck core} (ht : s.admitChild ck core = some t) :
    Memory.wf t.mem = true := by
  grind [State.admitChild, State.wf_startChild]

theorem State.wf_relaunchBlock {s t : State} (h : Memory.wf s.mem = true) {lid core} (ht : s.relaunchBlock lid core = some t) :
    Memory.wf t.mem = true := by
  simp only [State.relaunchBlock] at ht
  repeat' split at ht
  case isFalse =>
    obtain ⟨base, -, rfl⟩ := Option.map_eq_some_iff.mp ht
    exact State.wf_startBlock (by simpa using h) ..
  all_goals cases ht

/-! ### FabricEvents.lean -/

theorem State.wf_packetArrival {s t : State} (h : Memory.wf s.mem = true) {port p} (ht : s.packetArrival port p = some t) :
    Memory.wf t.mem = true := by
  grind [State.packetArrival, State.wf_performRequest, State.connect_mem]

theorem State.wf_commitStaged {s t : State} (h : Memory.wf s.mem = true) {i} (ht : s.commitStaged i = some t) : Memory.wf t.mem = true := by
  refine State.wf_of_findSome? (fun d u hd => ?_) ht
  grind [State.setDie_mem, State.wf_performStaged]

@[simp] theorem State.progress_mem (s : State) (die peer) : (s.progress die peer).mem = s.mem := by
  simp only [State.progress]
  split <;> simp

@[simp] theorem State.endFabric_mem (s : State) (o c r) : (s.endFabric o c r).mem = s.mem := by
  simp only [State.endFabric]
  split <;> simp

@[simp] theorem State.wf_ownMember {s : State} (h : Memory.wf s.mem = true) (die q) : Memory.wf (s.ownMember die q).1.mem = true := by
  grind [State.ownMember, State.setDie_mem, State.wf_performStaged, State.wf_performRequest]

theorem State.wf_endMulticast {s t : State} (h : Memory.wf s.mem = true) {o ms f u cause detail addr}
    (ht : s.endMulticast o ms f u cause detail addr = some t) : Memory.wf t.mem = true := by
  unfold State.endMulticast at ht
  extract_lets is own fit at ht
  split at ht
  · cases ht
  · split at ht
    rename_i s1 ans hans
    have h1 : Memory.wf s1.mem = true := by
      split at hans
      · exact State.wf_fst hans (State.wf_ownMember h ..)
      · cases hans
        exact h
    extract_lets bad us fs s2 at ht
    have h2 : Memory.wf s2.mem = true := State.wf_foldl (fun _ _ hv => by simpa using hv) _ h1
    repeat' split at ht
    all_goals cases ht
    all_goals simp [h2]

theorem State.wf_commandAck {s t : State} (h : Memory.wf s.mem = true) {o c r} (ht : s.commandAck o c r = some t) :
    Memory.wf t.mem = true := by
  simp only [State.commandAck] at ht
  split at ht
  case h_2 => cases ht
  split at ht
  · split at ht
    · exact State.wf_endMulticast h ht
    · cases ht
  split at ht
  · cases ht
  rename_i peer q _
  generalize hq : (if peer == s.podNumber then s.performRequest (s.ownPort o.loc.die / 8) (s.ownPort o.loc.die) peer q else (s, r)) = p
    at ht
  obtain ⟨s1, r1⟩ := p
  have h1 : Memory.wf s1.mem = true := by
    split at hq
    · exact State.wf_fst hq (State.wf_performRequest h ..)
    · cases hq
      exact h
  split at ht <;> cases ht
  rw [State.endFabric_mem, State.progress_mem]
  exact h1

theorem State.retransmit_mem {s t : State} {die peer} (ht : s.retransmit die peer = some t) : t.mem = s.mem := by
  grind [State.retransmit, Table.wf_set, State.setDie_mem]

@[simp] theorem State.connreset_mem (s : State) (die peer) : (s.connreset die peer).mem = s.mem := by
  simp only [State.connreset]
  split <;> simp

theorem State.linkModuleFail_mem {s t : State} {die modul} (ht : s.linkModuleFail die modul = some t) : t.mem = s.mem := by
  grind [State.linkModuleFail, State.setReg_mem]

/-! ### Collective.lean -/

@[simp] theorem Eng.Keeps.elems  (w a esz n aux pc) : (Eng.elems w a esz n aux pc).Keeps := by
  simp [Eng.elems]

theorem Eng.Keeps.putElems (w a esz aux xs) : (Eng.putElems w a esz aux xs).Keeps :=
  .each fun _ => .bind (.chk ..) fun _ => .wr ..

theorem Eng.Keeps.collRead (w desc pc) : (Eng.collRead w desc pc).Keeps :=
  .bind (.chk ..) fun _ => .bind (.get ..) fun _ => .bind (.see _) fun _ => .bind (.need ..) fun _ => .bind (.elems ..) fun _ =>
    .bind (.see _) fun _ => .bind (.need ..) fun _ => .pure _

theorem Eng.Keeps.collStart (w op desc pc) : (Eng.collStart w op desc pc).Keeps :=
  .bind (.collRead ..) fun _ => .ite (.bind (.elems ..) fun _ => .bind (.putElems ..) fun _ => .pure _)
    (.ite (.pure _) (.bind (.elems ..) fun _ => .bind (.putElems ..) fun _ => .pure _))

@[simp] theorem State.wf_scramble {s : State} (h : Memory.wf s.mem = true) (w va n) : Memory.wf (s.scramble w va n).mem = true :=
  State.wf_foldl (fun _ _ h => by grind [State.wr_mem, State.wf_wr, State.wf_reach]) _ h

@[simp] theorem State.wf_collFail {s : State} (h : Memory.wf s.mem = true) (o cause detail addr k) :
    Memory.wf (s.collFail o cause detail addr k).mem = true := by
  grind [State.collFail, State.wf_scramble, State.finishOp_mem]

@[simp] theorem State.wf_collStop {s : State} (h : Memory.wf s.mem = true) (o at' x) : Memory.wf (s.collStop o at' x).mem = true := by
  simp only [State.collStop]
  split <;> simp [h]

@[simp] theorem State.wf_performColl {s : State} (h : Memory.wf s.mem = true) (o) : Memory.wf (s.performColl o).mem = true := by
  have hstart := fun op desc => (Eng.Keeps.collStart o.collWho op desc o.pc).run s h
  unfold State.performColl
  split
  case h_1 =>
    rename_i op desc _ _
    specialize hstart op desc.toNat
    split <;> rename_i hs <;> rw [hs] at hstart <;> simp_all
  case h_2 => exact h

theorem State.wf_startColl {s t : State} (h : Memory.wf s.mem = true) {die} (ht : s.startColl die = some t) : Memory.wf t.mem = true := by
  grind [State.startColl, State.wf_performColl]

@[simp] theorem Eng.Keeps.toPeer  (o peer k r) : (Eng.toPeer o peer k r).Keeps :=
  ⟨fun s h => by
  grind [Eng.toPeer, State.post_mem, State.connect_mem]⟩

@[simp] theorem Eng.Keeps.room  (o peer) : (Eng.room o peer).Keeps := by
  simp [Eng.room]

theorem Eng.Keeps.collSend (o c k) : (Eng.collSend o c k).Keeps :=
  .bind (.room ..) fun _ => .bind (.word ..) fun _ => .ite (.pure _)
    (.bind (.elems ..) fun _ => .bind (.toPeer ..) fun _ => .pure _)

theorem Eng.Keeps.collReceive (o c k) : (Eng.collReceive o c k).Keeps := by
  refine .bind (.room ..) fun _ => .bind (.word ..) fun _ => .ite (.pure _) (.bind (.elems ..) fun inc =>
    .ite (.bind (.pure _) ?_) (.bind (.chk ..) fun _ => .bind (.pure _) ?_)) <;>
    exact fun _ => .branch (.elems ..) (.pure _) fun _ => .bind (.putElems ..) fun _ => .bind (.toPeer ..) fun _ =>
      .bind (.each fun _ => .wr ..) fun _ => .pure _

@[simp] theorem State.wf_collEnd {s : State} (h : Memory.wf s.mem = true) (o c desc) : Memory.wf (s.collEnd o c desc).mem = true := by
  unfold State.collEnd
  extract_lets w s1
  have h1 : Memory.wf s1.mem = true := by
    simp only [s1]
    split <;> simp [h]
  have := (Eng.Keeps.putElems w (desc + 0x38) 8 c.steps [(c.base + c.steps) % 2 ^ 64]).run s1 h1
  grind [State.finishOp_mem, State.wf_collStop]

@[simp] theorem State.wf_collSettle {s : State} (h : Memory.wf s.mem = true) (id) : Memory.wf (s.collSettle id).mem = true := by
  grind [State.collSettle, State.wf_collEnd]

theorem State.wf_collStep {s t u : State} (hu : Memory.wf u.mem = true) {o n r} (ht : s.collStep o n (r, u) = some t) :
    Memory.wf t.mem = true := by
  unfold State.collStep at ht
  split at ht
  all_goals
    rename_i hr
    cases hr
    cases ht
  · simp [hu]
  · exact State.wf_collStop hu ..

theorem State.wf_collSend {s t : State} (h : Memory.wf s.mem = true) {die} (ht : s.collSend die = some t) : Memory.wf t.mem = true := by
  unfold State.collSend at ht
  repeat' split at ht
  case h_1.isTrue => exact State.wf_collStep ((Eng.Keeps.collSend ..).run s h) ht
  all_goals cases ht

theorem State.wf_collReceive {s t : State} (h : Memory.wf s.mem = true) {die} (ht : s.collReceive die = some t) :
    Memory.wf t.mem = true := by
  unfold State.collReceive at ht
  repeat' split at ht
  case h_1.isTrue => exact State.wf_collStep ((Eng.Keeps.collReceive ..).run s h) ht
  all_goals cases ht

theorem State.wf_collTimeout {s t : State} (h : Memory.wf s.mem = true) {die} (ht : s.collTimeout die = some t) :
    Memory.wf t.mem = true := by
  grind [State.collTimeout, State.wf_collFail]

theorem State.wf_fabricAck {s t : State} (h : Memory.wf s.mem = true) {id r} (ht : s.fabricAck id r = some t) : Memory.wf t.mem = true := by
  simp only [State.fabricAck] at ht
  split at ht
  · cases ht
  split at ht
  · repeat' split at ht
    all_goals cases ht
    all_goals simp [h]
  · exact State.wf_commandAck h ht
  · cases ht

theorem State.wf_connectionDead {s t : State} (h : Memory.wf s.mem = true) {die peer} (ht : s.connectionDead die peer = some t) :
    Memory.wf t.mem = true := by
  simp only [State.connectionDead] at ht
  split at ht
  · cases ht
  · split at ht
    · cases ht
    · cases ht
      refine State.wf_foldl (fun u o hu => ?_) _ (by simpa using h)
      split
      · exact hu
      · split <;> simp [hu]

/-! ### Replay.lean -/

@[simp] theorem State.unqueueOver_mem (s : State) (id) : (s.unqueueOver id).mem = s.mem := by
  simp only [State.unqueueOver]
  split <;> simp

@[simp] theorem State.wf_resumeOp {s : State} (h : Memory.wf s.mem = true) (vpn o) : Memory.wf (s.resumeOp vpn o).mem = true := by
  grind [State.resumeOp, State.wf_copyGrvrd, State.wf_resumeArrive, State.wf_performPbwait, State.wf_performLanes,
    State.wf_performJcwait, State.wf_resumeMatrix, State.wf_collSettle, State.wf_resumeCopy, State.wf_performGrammar,
    State.wf_startFabric, State.unqueueOver_mem, State.wf_performEncoder, State.wf_performColl, State.updOp_mem, State.wf_performLaunchg]

@[simp] theorem State.wf_rejectOp {s : State} (h : Memory.wf s.mem = true) (vpn o) : Memory.wf (s.rejectOp vpn o).mem = true := by
  grind [State.rejectOp, State.wf_unbind, State.rejectMatrix_mem, State.wf_performLanes, State.wf_rejectCopy, State.wf_endVenc,
    State.finishOp_mem, State.unqueueOver_mem, State.wf_scrambleFile, State.wf_collFail, State.unqueue_mem]

@[simp] theorem State.answerPage_mem (s : State) (die vpn reject) : (s.answerPage die vpn reject).mem = s.mem := by
  grind [State.answerPage, State.setReg_mem, State.setDie_mem]

@[simp] theorem State.freeFetches_mem (s : State) (vpn) : (s.freeFetches vpn).mem = s.mem := by
  simp [State.freeFetches]

@[simp] theorem State.wf_resumePage {s : State} (h : Memory.wf s.mem = true) (die vpn) : Memory.wf (s.resumePage die vpn).mem = true := by
  simp only [State.resumePage]
  refine State.wf_foldl (fun _ _ hu => State.wf_monStep hu ..) _ (State.wf_foldl (fun _ _ hu => State.wf_resumeOp hu ..) _ ?_)
  simpa using h

@[simp] theorem State.dropLog_mem (s : State) (l e) : (s.dropLog l e).mem = s.mem := by
  simp [State.dropLog]

@[simp] theorem State.wf_rejectEntry {s : State} (h : Memory.wf s.mem = true) (l e vpn) : Memory.wf (s.rejectEntry l e vpn).mem = true := by
  simp only [State.rejectEntry]
  split <;> simp [h]

@[simp] theorem State.wf_failFetch {s : State} (h : Memory.wf s.mem = true) (f) : Memory.wf (s.failFetch f).mem = true := by
  grind [State.failFetch, State.wf_trapTo, State.updCtx_mem]

@[simp] theorem State.wf_rejectPage {s : State} (h : Memory.wf s.mem = true) (die vpn) : Memory.wf (s.rejectPage die vpn).mem = true := by
  unfold State.rejectPage
  extract_lets fetches s1 s2 s3 s4 s5
  have h2 : Memory.wf s2.mem = true := State.wf_foldl (fun _ _ hu => State.wf_rejectOp hu ..) _ (by simpa [s1] using h)
  have h3 : Memory.wf s3.mem = true := State.wf_foldl (fun u m hu => by split <;> simp [hu]) _ h2
  have h4 : Memory.wf s4.mem = true := State.wf_foldl (fun u l hu => State.wf_lateFail (s := { u with lates := u.lates.erase l }) hu ..) _ h3
  have h5 : Memory.wf s5.mem = true := State.wf_foldl (fun u p hu => by split <;> simp [hu]) _ h4
  exact State.wf_sweep (State.wf_foldl (fun _ _ hu => State.wf_failFetch hu ..) _ h5)

@[simp] theorem State.wf_replayEntry {s : State} (h : Memory.wf s.mem = true) (l e) : Memory.wf (s.replayEntry l e).mem = true := by
  simp only [State.replayEntry]
  split
  case h_3 => exact State.wf_foldl (fun _ _ hu => State.wf_jcDecrement hu ..) _ h
  all_goals simp [h]

theorem State.wf_replay {s t : State} (h : Memory.wf s.mem = true) {cid} (ht : s.replay cid = some t) : Memory.wf t.mem = true := by
  simp only [State.replay] at ht
  repeat' split at ht
  all_goals cases ht
  · exact State.wf_foldl (fun _ _ hu => State.wf_postNotice hu ..) _ h
  · exact State.wf_sweep (State.wf_replayEntry (by simpa using h) ..)

theorem State.wf_repost {s t : State} (h : Memory.wf s.mem = true) {die} (ht : s.repost die = some t) : Memory.wf t.mem = true := by
  grind [State.repost, State.setDie_mem, State.wf_pushNotice]

@[simp] theorem State.invalPage_mem (s : State) (die vpn) : (s.invalPage die vpn).mem = s.mem := by
  simp [State.invalPage]

@[simp] theorem State.invalAll_mem (s : State) (die) : (s.invalAll die).mem = s.mem := by
  simp [State.invalAll]

/-! ### Hearth.lean -/

@[simp] theorem State.raiseChimney_mem (s : State) (c) : (s.raiseChimney c).mem = s.mem := by
  simp [State.raiseChimney]

@[simp] theorem State.wf_writeCompletion {s : State} (h : Memory.wf s.mem = true) (l c) : Memory.wf (s.writeCompletion l c).mem = true := by
  grind [State.writeCompletion, State.setReg_mem, Table.wf_set, State.wr_mem, State.wf_wr, State.raiseChimney_mem]

@[simp] theorem State.releaseKeys_mem (s : State) : (s.releaseKeys).mem = s.mem := by
  simp only [State.releaseKeys]
  split <;> simp

@[simp] theorem State.wf_deliver {s : State} (h : Memory.wf s.mem = true) (lid) : Memory.wf (s.deliver lid).mem = true := by
  grind [State.deliver, State.bumpReg_mem, State.releaseKeys_mem, State.updLaunch_mem, State.wf_writeCompletion]

theorem State.wf_heldRelease {s t : State} (h : Memory.wf s.mem = true) {c} (ht : s.heldRelease c = some t) : Memory.wf t.mem = true := by
  grind [State.heldRelease, State.releaseKeys_mem, State.wf_writeCompletion]

theorem State.chimneyTime_mem {s t : State} {c} (ht : s.chimneyTime c = some t) : t.mem = s.mem := by
  grind [State.chimneyTime, State.raiseChimney_mem]

@[simp] theorem State.queueAppend_mem (s : State) (q) : (s.queueAppend q).mem = s.mem := by
  simp only [State.queueAppend]
  split <;> simp

@[simp] theorem State.qctlWrite_mem (s : State) (q value) : (s.qctlWrite q value).mem = s.mem := by
  simp only [State.qctlWrite]
  split <;> simp

@[simp] theorem State.wf_takeRecord {s : State} (h : Memory.wf s.mem = true) (q bs cancelled) :
    Memory.wf (s.takeRecord q bs cancelled).mem = true := by
  simp only [State.takeRecord]
  split <;> simp [h]

theorem State.wf_launchCopy {s t : State} (h : Memory.wf s.mem = true) {q} (ht : s.launchCopy q = some t) : Memory.wf t.mem = true := by
  grind [State.launchCopy, State.setReg_mem, State.wf_takeRecord, State.readFree_mem]

@[simp] theorem State.wf_admitGangs {s : State} (h : Memory.wf s.mem = true) (lid pref cks fuel) :
    Memory.wf (s.admitGangs lid pref cks fuel).mem = true := by
  induction fuel generalizing s with
  | zero => exact h
  | succ n ih =>
    unfold State.admitGangs
    grind [State.wf_startGang]

@[simp] theorem State.wf_admitPacked {s : State} (h : Memory.wf s.mem = true) (lid cks fuel) :
    Memory.wf (s.admitPacked lid cks fuel).mem = true := by
  induction fuel generalizing s with
  | zero => exact h
  | succ n ih =>
    unfold State.admitPacked
    grind [State.wf_startGang]

theorem State.wf_admitWhole {s t : State} (h : Memory.wf s.mem = true) {l pref cks} (ht : s.admitWhole l pref cks = some t) :
    Memory.wf t.mem = true := by
  grind [State.admitWhole, State.wf_admitPacked, State.wf_admitGangs]

@[simp] theorem State.wf_admitLaunch {s : State} (h : Memory.wf s.mem = true) (l pref cks) :
    Memory.wf (s.admitLaunch l pref cks).1.mem = true := by
  grind [State.admitLaunch, State.wf_admitWhole, State.wf_admitGangs]

@[simp] theorem State.wf_admitAll {s : State} (h : Memory.wf s.mem = true) (ls pref cks) : Memory.wf (s.admitAll ls pref cks).mem = true := by
  induction ls generalizing s cks with
  | nil => exact h
  | cons l r ih => exact ih (State.wf_admitLaunch h ..) _

@[simp] theorem State.wf_admitWarps {s : State} (h : Memory.wf s.mem = true) (ck pref) : Memory.wf (s.admitWarps ck pref).mem = true := by
  simp only [State.admitWarps]
  refine State.wf_foldl (fun u _ hu => ?_) _ (State.wf_foldl (fun u c hu => ?_) _ h)
  · exact State.wf_getD hu fun t ht => State.wf_of_findSome? (fun _ _ hk => State.wf_admitChild hu hk) ht
  · exact State.wf_getD hu fun t ht => State.wf_of_findSome? (fun _ _ hk => State.wf_restoreWarp hu hk) ht

theorem State.wf_admitOne {s t : State} (h : Memory.wf s.mem = true) {l pref cks} (ht : s.admitOne l pref cks = some t) :
    Memory.wf t.mem = true := by
  unfold State.admitOne at ht
  split at ht
  · exact State.wf_admitWhole h ht
  · obtain ⟨p, -, rfl⟩ := Option.map_eq_some_iff.mp ht
    exact State.wf_startGang h ..

@[simp] theorem State.cleared_mem (s : State) (l) : (s.cleared l).mem = s.mem := by
  simp [State.cleared]

@[simp] theorem State.wf_restoreGangs {s : State} (h : Memory.wf s.mem = true) (ls) : Memory.wf (s.restoreGangs ls).mem = true := by
  refine State.wf_foldl (fun u l hu => ?_) ls h
  simp only
  split
  · refine State.wf_getD hu fun t ht => State.wf_foldl_option (fun v g w hv hw => ?_) _ hu ht
    split at hw
    · cases hw
      exact State.wf_loadGang hv ..
    · cases hw
  · refine State.wf_foldl (fun v g hv => ?_) _ hu
    split <;> simp [hv]

theorem State.wf_preempt {s t : State} (h : Memory.wf s.mem = true) {g} (ht : s.preempt g = some t) : Memory.wf t.mem = true := by
  refine State.wf_foldl_option (fun u x v hu hv => ?_) _ h ht
  split at hv
  · obtain ⟨a, -, rfl⟩ := Option.map_eq_some_iff.mp hv
    exact State.wf_saveGang hu ..
  · cases hv

theorem State.wf_preemptFor {s t : State} (h : Memory.wf s.mem = true) {l pref cks gs} (ht : s.preemptFor l pref cks gs = some t) :
    Memory.wf t.mem = true := by
  induction gs generalizing s with
  | nil => grind [State.preemptFor]
  | cons g r ih =>
    unfold State.preemptFor at ht
    split at ht
    · exact ih h ht
    · split at ht
      · cases ht
      · rename_i s0 hs0
        have h1 := State.wf_foldl (fun u ck hu => State.wf_admitWarps hu ck pref) s0.clusterKeys (State.wf_preempt h hs0)
        simp only at ht
        split at ht
        · cases ht
          exact State.wf_admitOne h1 ‹_›
        · exact ih h1 ht

@[simp] theorem State.wf_preemptAll {s : State} (h : Memory.wf s.mem = true) (ls pref cks) :
    Memory.wf (s.preemptAll ls pref cks).mem = true := by
  induction ls generalizing s cks with
  | nil => exact h
  | cons x r ih =>
    simp only [State.preemptAll]
    refine ih ?_ _
    split
    · split
      · exact State.wf_getD h fun t ht => State.wf_preemptFor h ht
      · exact h
    · exact h

@[simp] theorem State.wf_admitNow {s : State} (h : Memory.wf s.mem = true) (pref) : Memory.wf (s.admitNow pref).mem = true := by
  simp only [State.admitNow]
  exact State.wf_admitAll (State.wf_restoreGangs (State.wf_foldl (fun _ _ hu => State.wf_admitWarps hu ..) _ h) _) ..

@[simp] theorem State.wf_evaluate {s : State} (h : Memory.wf s.mem = true) (pref) : Memory.wf (s.evaluate pref).mem = true := by
  grind [State.evaluate, State.wf_preemptAll, State.wf_sweep, State.wf_admitNow]

theorem State.idleFlush_mem {s t : State} {ck} (ht : s.idleFlush ck = some t) : t.mem = s.mem := by
  simp only [State.idleFlush] at ht
  split at ht
  · cases ht
  · cases ht
    exact State.foldl_mem (fun _ _ => State.flushBin_mem ..) _ s

@[simp] theorem State.wf_forget {s : State} (h : Memory.wf s.mem = true) (l) : Memory.wf (s.forget l).mem = true :=
  State.wf_foldl (fun _ _ h => by grind [Table.wf_set, State.wf_latchBank]) _ h

theorem State.wf_launchComplete {s t : State} (h : Memory.wf s.mem = true) {lid} (ht : s.launchComplete lid = some t) :
    Memory.wf t.mem = true := by
  grind [State.launchComplete, State.wf_hearthWrite, State.wf_forget, State.wf_deliver]

@[simp] theorem State.wf_cancel {s : State} (h : Memory.wf s.mem = true) (tag) : Memory.wf (s.cancel tag).mem = true := by
  simp only [State.cancel]
  refine State.wf_sweep (State.wf_foldl (fun u q hu => State.wf_foldl (fun v p hv => ?_) _ hu) _
    (State.wf_foldl (fun _ _ hu => State.wf_killLaunch hu ..) _ h))
  split <;> simp [hv]

@[simp] theorem State.keyFree_mem (s : State) (key) : (s.keyFree key).mem = s.mem := by
  simp only [State.keyFree]
  split <;> simp

/-! ### Debug.lean -/

@[simp] theorem State.wf_putBuffer {s : State} (h : Memory.wf s.mem = true) (l pa bs) : Memory.wf (s.putBuffer l pa bs).1.mem = true := by
  grind [State.putBuffer, State.wr_mem, State.wf_wr]

@[simp] theorem State.wf_afterDebug {s : State} (h : Memory.wf s.mem = true) (cid) : Memory.wf (s.afterDebug cid).mem = true := by
  grind [State.afterDebug, State.wf_refreshImage, State.barrierRelease_mem, State.updCtx_mem]

@[simp] theorem State.wf_revoke {s : State} (h : Memory.wf s.mem = true) (lid) : Memory.wf (s.revoke lid).mem = true :=
  State.wf_foldl (fun _ _ h => by simp [h]) _ h

@[simp] theorem State.wf_regrant {s : State} (h : Memory.wf s.mem = true) (off v) : Memory.wf (s.regrant off v).mem = true :=
  State.wf_foldl (fun _ _ h => by simp [h]) _ h

@[simp] theorem State.wf_debugLanesOp {s : State} (h : Memory.wf s.mem = true) (c k mask) :
    Memory.wf (s.debugLanesOp c k mask).mem = true := by
  simp only [State.debugLanesOp]
  split <;> simp [h]

@[simp] theorem State.wf_debugPerform {s : State} (h : Memory.wf s.mem = true) (op mask buf arg) :
    Memory.wf (s.debugPerform op mask buf arg).1.mem = true := by
  simp only [State.debugPerform]
  split
  · exact h
  · split
    · rw [State.foldl_mem]
      · exact h
      · exact fun _ _ => State.updLaunch_mem ..
    · split
      · exact h
      · repeat' split
        all_goals simp [h]

@[simp] theorem State.wf_debugGo {s : State} (h : Memory.wf s.mem = true) : Memory.wf (s.debugGo).mem = true := by
  grind [State.debugGo, State.setReg_mem, State.wf_debugPerform]

/-! ### Mgmt.lean -/

@[simp] theorem State.setClock_mem (s : State) (i freq eff) : (s.setClock i freq eff).mem = s.mem := by
  simp [State.setClock]

@[simp] theorem State.writeClock_mem (s : State) (i v) : (s.writeClock i v).mem = s.mem := by
  simp only [State.writeClock]
  split <;> simp

theorem State.clockEffect_mem {s t : State} {i} (ht : s.clockEffect i = some t) : t.mem = s.mem := by
  grind [State.clockEffect, State.setClock_mem]

@[simp] theorem State.writeLimit_mem (s : State) (v) : (s.writeLimit v).mem = s.mem := by
  simp [State.writeLimit]

@[simp] theorem State.mapCaps_mem (s : State) (g) : (s.mapCaps g).mem = s.mem :=
  State.foldl_mem (fun _ _ => by simp) _ _

@[simp] theorem State.wf_restart {s : State} (h : Memory.wf s.mem = true) : Memory.wf (s.restart).mem = true := by
  simp [State.restart, h]

@[simp] theorem State.wf_trip {s : State} (h : Memory.wf s.mem = true) (tj) : Memory.wf (s.trip tj).mem = true := by
  simp [State.trip, h]

@[simp] theorem State.throttle_mem (s : State) (amps tj) : (s.throttle amps tj).mem = s.mem := by
  grind [State.throttle, State.mapCaps_mem]

@[simp] theorem State.wf_currentSample {s : State} (h : Memory.wf s.mem = true) (amps tj watts) :
    Memory.wf (s.currentSample amps tj watts).mem = true := by
  simp only [State.currentSample]
  split <;> simp [h]

theorem State.wf_thermalTrip {s t : State} (h : Memory.wf s.mem = true) {tj} (ht : s.thermalTrip tj = some t) : Memory.wf t.mem = true := by
  grind [State.thermalTrip, State.wf_trip]

@[simp] theorem State.boot_mem (s : State) (i) : (s.boot i).mem = s.mem := by
  simp only [State.boot]
  split <;> simp

@[simp] theorem State.wf_deviceReset {s : State} (h : Memory.wf s.mem = true) : Memory.wf (s.deviceReset).mem = true := by
  simp only [State.deviceReset]
  split <;> simp [h]

@[simp] theorem State.acctl_mem (s : State) (die v) : (s.acctl die v).mem = s.mem := by
  simp [State.acctl]

@[simp] theorem State.writeCap0_mem (s : State) (v) : (s.writeCap0 v).mem = s.mem := by
  simp only [State.writeCap0]
  split <;> simp

@[simp] theorem State.maskWrite_mem (s : State) (die off mask v) : (s.maskWrite die off mask v).mem = s.mem := by
  simp [State.maskWrite]

@[simp] theorem State.irqWrite_mem (s : State) (die off v) : (s.irqWrite die off v).mem = s.mem := by
  simp [State.irqWrite]

@[simp] theorem State.queueWrite_mem (s : State) (q i v) : (s.queueWrite q i v).mem = s.mem := by
  simp only [State.queueWrite]
  repeat' split
  all_goals simp

@[simp] theorem State.chimneyWrite_mem (s : State) (c i v) : (s.chimneyWrite c i v).mem = s.mem := by
  unfold State.chimneyWrite
  extract_lets s1
  have h1 : s1.mem = s.mem := by
    simp only [s1]
    split <;> simp
  split <;> simp [h1]

@[simp] theorem State.wf_hearthReg {s : State} (h : Memory.wf s.mem = true) (off v) : Memory.wf (s.hearthReg off v).mem = true := by
  grind [State.hearthReg, State.setReg_mem, State.keyFree_mem, State.wf_cancel, State.maskWrite_mem]

@[simp] theorem State.wf_translationWrite {s : State} (h : Memory.wf s.mem = true) (die off v) :
    Memory.wf (s.translationWrite die off v).mem = true := by
  unfold State.translationWrite
  extract_lets vpn
  generalize off - 0x100000 = k
  split
  · rwa [State.setReg_mem]
  · exact Memory.wf_ite (by rwa [State.setReg_mem]) (Memory.wf_ite (by rwa [State.invalAll_mem, State.setReg_mem]) (by rwa [State.invalPage_mem]))
  · exact Memory.wf_ite (by rwa [State.setReg_mem]) (Memory.wf_ite (State.wf_rejectPage h ..) (State.wf_resumePage h ..))
  · rwa [State.setReg_mem]
  · rwa [State.maskWrite_mem]
  · rwa [State.setReg_mem]
  · rwa [State.setReg_mem]
  · exact h

@[simp] theorem State.traceWrite_mem (s : State) (die off v) : (s.traceWrite die off v).mem = s.mem := by
  unfold State.traceWrite
  generalize (off - 0x120000) % 0x20 = k
  split <;> simp

@[simp] theorem State.connWrite_mem (s : State) (die off v) : (s.connWrite die off v).mem = s.mem := by
  unfold State.connWrite
  generalize off - 0x1C0000 = k
  split <;> simp

@[simp] theorem State.errorWrite_mem (s : State) (die off v) : (s.errorWrite die off v).mem = s.mem := by
  unfold State.errorWrite
  generalize off - 0x1E0000 = k
  split <;> simp

@[simp] theorem State.wf_debugReg {s : State} (h : Memory.wf s.mem = true) (off v) : Memory.wf (s.debugReg off v).mem = true := by
  simp only [State.debugReg]
  repeat' split
  all_goals simp [h]

@[simp] theorem State.wf_mgmtWrite {s : State} (h : Memory.wf s.mem = true) (die off v) : Memory.wf (s.mgmtWrite die off v).mem = true := by
  exact Memory.wf_ite h <| Memory.wf_ite (State.wf_translationWrite h ..) <| Memory.wf_ite (by rwa [State.traceWrite_mem]) <|
    Memory.wf_ite (by rwa [State.queueWrite_mem]) <| Memory.wf_ite (by rwa [State.chimneyWrite_mem]) <|
    Memory.wf_ite (State.wf_hearthReg h ..) <| Memory.wf_ite (by rwa [State.writeClock_mem]) <|
    Memory.wf_ite (by rwa [State.writeLimit_mem]) <| Memory.wf_ite (Memory.wf_ite h (by rwa [State.setReg_mem])) <|
    Memory.wf_ite (by rwa [State.acctl_mem]) <| Memory.wf_ite (Memory.wf_ite (by rwa [State.writeCap0_mem]) h) <|
    Memory.wf_ite (by rwa [State.connWrite_mem]) <| Memory.wf_ite (by rwa [State.errorWrite_mem]) <|
    Memory.wf_ite (State.wf_debugReg h ..) h

theorem State.wf_masterWrite {s t : State} (h : Memory.wf s.mem = true) {master die off v} (ht : s.masterWrite master die off v = some t) :
    Memory.wf t.mem = true := by
  grind [State.masterWrite, State.wf_mgmtWrite]

@[simp] theorem State.wf_byFirmware {s t : State} (h : Memory.wf s.mem = true) (ht : Memory.wf t.mem = true) (die off) :
    Memory.wf (s.byFirmware die off t).mem = true := by
  unfold State.byFirmware
  split
  · exact ht
  · exact h

@[simp] theorem State.wf_firmwareWrite {s : State} (h : Memory.wf s.mem = true) (die off v) :
    Memory.wf (s.firmwareWrite die off v).mem = true := by
  grind [State.firmwareWrite, State.wf_mgmtWrite, State.wf_byFirmware]

@[simp] theorem State.acsync_mem (s : State) (die) : (s.acsync die).mem = s.mem := by
  simp only [State.acsync]
  split <;> simp

theorem State.wf_appendRecord {s t : State} (h : Memory.wf s.mem = true) {q record} (ht : s.appendRecord q record = some t) :
    Memory.wf t.mem = true := by
  grind [State.appendRecord, State.wr_mem, State.wf_wr, State.wf_byFirmware, State.queueAppend_mem]

theorem State.wf_grant {s t : State} (h : Memory.wf s.mem = true) {g tag} (ht : s.grant g tag = some t) : Memory.wf t.mem = true := by
  grind [State.grant, State.wf_firmwareWrite]

theorem State.wf_ungrant {s t : State} (h : Memory.wf s.mem = true) {g} (ht : s.ungrant g = some t) : Memory.wf t.mem = true := by
  grind [State.ungrant, State.wf_firmwareWrite]

theorem State.wf_debugOp {s t : State} (h : Memory.wf s.mem = true) {k dop mask buf arg} (ht : s.debugOp k dop mask buf arg = some t) :
    Memory.wf t.mem = true := by
  grind [State.debugOp, State.wf_firmwareWrite]

theorem State.wf_appAmo {s t : State} (h : Memory.wf s.mem = true) {pa size g} (ht : s.appAmo pa size g = some t) :
    Memory.wf t.mem = true := by
  grind [State.appAmo, State.answer_mem, State.wf_uncHit, State.wf_wrN]

theorem State.wf_appAccess {s t : State} (h : Memory.wf s.mem = true) {a} (ht : s.appAccess a = some t) : Memory.wf t.mem = true := by
  cases a with
  | read | write | ctrlRead =>
    simp only [State.appAccess] at ht
    repeat' split at ht
    all_goals cases ht
    all_goals simp [h]
  | amoAdd | amoSwap | amoAnd | amoOr | amoXor | amoMin | amoMax =>
    simp only [State.appAccess] at ht
    exact State.wf_appAmo h ht

theorem State.softError_mem {s t : State} {e c} (ht : s.softError e c = some t) : t.mem = s.mem := by
  cases e <;> grind [State.softError, State.bumpReg_mem, State.countError_mem]

/-! ### Schedule.lean -/

@[simp] theorem State.countTiming_mem (s : State) : (s.countTiming).mem = s.mem :=
  State.foldl_mem (fun _ _ => by simp) _ _

@[simp] theorem State.tick_mem (s : State) : (s.tick).mem = s.mem := by
  simp only [State.tick]
  split <;> simp

theorem State.wf_tryEvent {s t : State} (h : Memory.wf s.mem = true) {g : Meaning} (hg : g.KeepsForm) (ht : s.tryEvent g = some t) :
    Memory.wf t.mem = true := by
  unfold State.tryEvent at ht
  split at ht
  · cases ht
    exact hg h ‹_›
  · cases ht

@[simp] theorem State.wf_swapOut {s : State} (h : Memory.wf s.mem = true) (l out) : Memory.wf (s.swapOut l out).mem = true :=
  State.wf_foldl (fun _ _ h => by grind [State.countAt_mem, State.setCore_mem]) _ h

@[simp] theorem State.wf_refreshActive {s : State} (h : Memory.wf s.mem = true) (l) : Memory.wf (s.refreshActive l).mem = true := by
  simp [State.refreshActive, h]

@[simp] theorem State.wf_letIn {s : State} (h : Memory.wf s.mem = true) (l rdy c) : Memory.wf (s.letIn l rdy c).mem = true := by
  grind [State.letIn, State.setCore_mem, State.wf_swapOut]

theorem State.wf_schedule {s t : State} (h : Memory.wf s.mem = true) {cid} (ht : s.schedule cid = some t) : Memory.wf t.mem = true := by
  grind [State.schedule, State.wf_beginRun, State.wf_letIn, State.wf_refreshActive]

@[simp] theorem State.wf_leaveActive {s : State} (h : Memory.wf s.mem = true) : Memory.wf (s.leaveActive).mem = true :=
  State.wf_foldl (fun _ _ h => by simp [h]) _ h

theorem State.wf_nextRun {s t : State} (h : Memory.wf s.mem = true) (ht : s.nextRun = some t) : Memory.wf t.mem = true :=
  State.wf_of_findSome? (fun _ _ hk => State.wf_schedule h hk) ht

theorem State.wf_passGated {s t : State} (h : Memory.wf s.mem = true) {c} (ht : s.passGated c = some t) : Memory.wf t.mem = true := by
  grind [State.passGated, State.wf_quiesce]

theorem State.wf_passLate {s t : State} (h : Memory.wf s.mem = true) (ht : s.passLate = some t) : Memory.wf t.mem = true :=
  State.wf_of_findSome? (fun _ _ hk => State.wf_passGated h hk) ht

theorem State.wf_passStill {s t : State} (h : Memory.wf s.mem = true) (ht : s.passStill = some t) : Memory.wf t.mem = true := by
  unfold State.passStill at ht
  split at ht
  · exact State.wf_of_findSome? (fun _ _ hk => State.wf_passGated h hk) ht
  · cases ht

@[simp] theorem State.evictTlb_mem (s : State) (die i) : (s.evictTlb die i).mem = s.mem := by
  simp only [State.evictTlb]
  split <;> simp

@[simp] theorem State.account_mem (s t : State) : (s.account t).mem = t.mem := by
  simp only [State.account]
  split
  · rfl
  · split <;> simp

end Sys2Proof.Machine
end

section
/-! PROOFS. Every event, every instruction and every step keeps memory's form (O51). -/

namespace Sys2Proof.Machine

/-- An event keeps the canonical form if its change, where it is possible, does. -/
theorem event_keepsForm {f : State → Option State}
    (hf : ∀ {s t : State}, Memory.wf s.mem = true → f s = some t → Memory.wf t.mem = true) :
    Meaning.KeepsForm fun s => event s (f s) := by
  intro s t h ht
  rcases event_cases s (f s) with ⟨he, -⟩ | ⟨u, hu, -, -, -, he⟩
  · cases he.symm.trans ht
  · cases he.symm.trans ht
    exact State.wf_quiesce (hf h hu)

/-- An event of a die that a device has. -/
theorem event_onDie_keepsForm {f : State → Option State} (die : Nat)
    (hf : ∀ {s t : State}, Memory.wf s.mem = true → f s = some t → Memory.wf t.mem = true) :
    Meaning.KeepsForm fun s => event s (onDie die (f s)) :=
  event_keepsForm (f := fun s => onDie die (f s)) fun h ht => by
    unfold onDie at ht
    split at ht
    · exact hf h ht
    · cases ht

/-- An event that is a write of firmware. -/
theorem event_byFirmware_keepsForm {f : State → State} (die off : Nat)
    (hf : ∀ {s : State}, Memory.wf s.mem = true → Memory.wf (f s).mem = true) :
    Meaning.KeepsForm fun s => event s (some (s.byFirmware die off (f s))) :=
  event_keepsForm (f := fun s => some (s.byFirmware die off (f s))) fun h ht => Option.some.inj ht ▸ State.wf_byFirmware h (hf h) ..

theorem event_onDie_byFirmware_keepsForm {f : State → State} (die off : Nat)
    (hf : ∀ {s : State}, Memory.wf s.mem = true → Memory.wf (f s).mem = true) :
    Meaning.KeepsForm fun s => event s (onDie die (some (s.byFirmware die off (f s)))) :=
  event_onDie_keepsForm (f := fun s => some (s.byFirmware die off (f s))) die fun h ht =>
    Option.some.inj ht ▸ State.wf_byFirmware h (hf h) ..

/-- An event that a device in recovery or tripped has too. -/
theorem always_keepsForm {f : State → Option State}
    (hf : ∀ {s t : State}, Memory.wf s.mem = true → f s = some t → Memory.wf t.mem = true) :
    Meaning.KeepsForm fun s => always s (f s) := by
  intro s t h ht
  simp only [always] at ht
  repeat' split at ht
  all_goals cases ht
  exact hf h ‹_›

/-- What an instruction leaves, whichever way it ends, has memory in canonical form. -/
theorem Env.wf_execute {v : Env} (h : Memory.wf v.s.mem = true) (body : Env → Res) : Memory.wf (v.execute body).mem = true := by
  unfold Env.execute
  extract_lets s
  have hs : Memory.wf s.mem = true := by rwa [State.countAt_mem]
  repeat' split
  all_goals simp [hs, Memory.wf_ite]

theorem Env.looked_mem (v : Env) : v.looked.mem = v.s.mem := by
  unfold Env.looked
  split
  · exact State.foldl_mem (fun _ _ => State.countSpawn_mem ..) _ _
  · rfl

theorem execIsa_keepsForm (k : Kind) (f : Fields) (body : Env → Res) : Meaning.KeepsForm (execIsa k f body) := by
  intro s t h ht
  unfold execIsa at ht
  repeat' split at ht
  all_goals cases ht
  exact Env.wf_execute h body

theorem execTable_keepsForm (k : Kind) (f : Fields) (body : Env → Res) : Meaning.KeepsForm (execTable k f body) := by
  intro s t h ht
  unfold execTable at ht
  repeat' split at ht
  case h_2 => exact execIsa_keepsForm k f body (by rwa [Env.looked_mem]) ht
  all_goals cases ht

theorem exec_keepsForm_of_view {i : Instr} {k : Kind} {f : Fields} (hi : i.view = some (k, f)) : Meaning.KeepsForm (exec i) := by
  intro s t h ht
  rcases exec_of_view hi with ⟨body, he⟩ | ⟨body, he⟩
  · exact execIsa_keepsForm k f body h (he s ▸ ht)
  · exact execTable_keepsForm k f body h (he s ▸ ht)

theorem exec_keepsForm (i : Instr) : Meaning.KeepsForm (exec i) := by
  cases i with
  | tkarrDeferredArrival => exact event_keepsForm fun h ht => State.wf_lateArrival h ht
  | tokenComplete => exact event_keepsForm fun h ht => State.wf_tokenComplete h ht
  | tokenWaitEnd => exact event_keepsForm fun h ht => Memory.wf_of_eq (State.tokenWaitEnd_mem ht) h
  | twaitkTimeout => exact event_keepsForm fun h ht => Memory.wf_of_eq (State.twaitkTimeout_mem ht) h
  | monwaitWake => exact event_keepsForm fun h ht => State.wf_monitorRead h ht
  | monwaitTimeout => exact event_keepsForm fun h ht => State.wf_monwaitTimeout h ht
  | monitorRecheck => exact event_keepsForm fun h ht => State.wf_monitorRead h ht
  | warpEnd => exact event_keepsForm fun h ht => State.wf_warpEnd h ht
  | successorStart => exact event_keepsForm fun h ht => State.wf_startSuccessor h ht
  | blockRelaunch => exact event_keepsForm fun h ht => State.wf_relaunchBlock h ht
  | reductionHomeFailure => exact event_keepsForm fun h ht => State.wf_homeFailure h ht
  | sideLogReplay => exact event_keepsForm fun h ht => State.wf_replay h ht
  | noticeRepost => exact event_onDie_keepsForm _ fun h ht => State.wf_repost h ht
  | invalPage => exact event_onDie_byFirmware_keepsForm _ _ fun h => Memory.wf_of_eq (State.invalPage_mem ..) h
  | invalAll => exact event_onDie_byFirmware_keepsForm _ _ fun h => Memory.wf_of_eq (State.invalAll_mem ..) h
  | resume => exact event_onDie_byFirmware_keepsForm _ _ fun h => State.wf_resumePage h ..
  | resumeReject => exact event_onDie_byFirmware_keepsForm _ _ fun h => State.wf_rejectPage h ..
  | copyEngineStart => exact event_keepsForm fun h ht => State.wf_startCopy h ht
  | matrixCommandPerform => exact event_keepsForm fun h ht => State.wf_startMatrix h ht
  | grammarCommandStart => exact event_keepsForm fun h ht => State.wf_startGrammar h ht
  | grammarHoldBreak cluster =>
    exact event_keepsForm (f := fun s => if cluster < 16 then s.breakHold cluster else none) fun h ht => by
      split at ht
      · exact Memory.wf_of_eq (State.breakHold_mem ht) h
      · cases ht
  | ringClaimGrant => exact event_keepsForm fun h ht => State.wf_grantClaim h ht
  | encoderCommandStart => exact event_keepsForm fun h ht => State.wf_startEncoder h ht
  | spawnEntryEligible => exact event_keepsForm fun h ht => Memory.wf_of_eq (State.entryEligible_mem ht) h
  | fullWarp => exact event_keepsForm fun h ht => Memory.wf_of_eq (State.fullWarp_mem ht) h
  | ageFlush => exact event_keepsForm fun h ht => State.wf_ageFlush h ht
  | idleFlush => exact event_keepsForm fun h ht => Memory.wf_of_eq (State.idleFlush_mem ht) h
  | spillReturn => exact event_keepsForm fun h ht => State.wf_spillReturn h ht
  | childWarpAdmit => exact event_keepsForm fun h ht => State.wf_admitChild h ht
  | eviction => exact event_keepsForm fun h ht => State.wf_evict h ht
  | evictedWarpRestore => exact event_keepsForm fun h ht => State.wf_restoreWarp h ht
  | fabricPacketArrival => exact event_keepsForm fun h ht => State.wf_packetArrival h ht
  | fabricAck => exact event_keepsForm fun h ht => State.wf_fabricAck h ht
  | rstmCommitMessage => exact event_keepsForm fun h ht => State.wf_commitStaged h ht
  | fabricRetransmit => exact event_onDie_keepsForm _ fun h ht => Memory.wf_of_eq (State.retransmit_mem ht) h
  | connectionDead => exact event_onDie_keepsForm _ fun h ht => State.wf_connectionDead h ht
  | collectiveEngineStart => exact event_onDie_keepsForm _ fun h ht => State.wf_startColl h ht
  | collSend => exact event_onDie_keepsForm _ fun h ht => State.wf_collSend h ht
  | collReceive => exact event_onDie_keepsForm _ fun h ht => State.wf_collReceive h ht
  | collTimeout => exact event_onDie_keepsForm _ fun h ht => State.wf_collTimeout h ht
  | dieLinkModuleFail => exact event_onDie_keepsForm _ fun h ht => Memory.wf_of_eq (State.linkModuleFail_mem ht) h
  | launchQueueAppend => exact event_keepsForm fun h ht => State.wf_appendRecord h ht
  | qctlWrite q v =>
    exact event_keepsForm (f := fun s => if q < 64 then some (s.byFirmware 0 (qReg q 1) (s.qctlWrite q v)) else none)
      fun h ht => by
        split at ht <;> cases ht
        exact State.wf_byFirmware h (Memory.wf_of_eq (State.qctlWrite_mem ..) h) ..
  | launchCopy => exact event_keepsForm fun h ht => State.wf_launchCopy h ht
  | hearthEvaluation place =>
    exact event_keepsForm (f := fun s => some (s.evaluate place)) fun h ht => Option.some.inj ht ▸ State.wf_evaluate h ..
  | launchComplete => exact event_keepsForm fun h ht => State.wf_launchComplete h ht
  | chimneyHeldRelease => exact event_keepsForm fun h ht => State.wf_heldRelease h ht
  | chimneyTimeTrigger => exact event_keepsForm fun h ht => Memory.wf_of_eq (State.chimneyTime_mem ht) h
  | hcancel => exact event_byFirmware_keepsForm _ _ fun h => State.wf_cancel h ..
  | hkeyfree => exact event_byFirmware_keepsForm _ _ fun h => Memory.wf_of_eq (State.keyFree_mem ..) h
  | debugHalt => exact event_keepsForm fun h ht => State.wf_debugOp h ht
  | debugResume => exact event_keepsForm fun h ht => State.wf_debugOp h ht
  | debugStep => exact event_keepsForm fun h ht => State.wf_debugOp h ht
  | bpset => exact event_keepsForm fun h ht => State.wf_debugOp h ht
  | bpclr => exact event_keepsForm fun h ht => State.wf_debugOp h ht
  | debugRead => exact event_keepsForm fun h ht => State.wf_debugOp h ht
  | debugWrite => exact event_keepsForm fun h ht => State.wf_debugOp h ht
  | debugSample => exact event_keepsForm fun h ht => State.wf_debugOp h ht
  | debugGrant => exact event_keepsForm fun h ht => State.wf_grant h ht
  | debugRevoke => exact event_keepsForm fun h ht => State.wf_ungrant h ht
  | acctlEnable => exact event_onDie_byFirmware_keepsForm _ _ fun h => Memory.wf_of_eq (State.acctl_mem ..) h
  | acctlLock => exact event_onDie_byFirmware_keepsForm _ _ fun h => Memory.wf_of_eq (State.acctl_mem ..) h
  | acsync die =>
    exact event_onDie_keepsForm (f := fun s => some (s.acsync die)) _ fun h ht => Option.some.inj ht ▸ Memory.wf_of_eq (State.acsync_mem ..) h
  | cap0Write => exact event_byFirmware_keepsForm _ _ fun h => Memory.wf_of_eq (State.writeCap0_mem ..) h
  | islclkWrite i v =>
    exact event_keepsForm
      (f := fun s => if i < 16 then some (s.byFirmware 0 (0x160000 + 8 * i) (s.writeClock i v)) else none) fun h ht => by
        split at ht <;> cases ht
        exact State.wf_byFirmware h (Memory.wf_of_eq (State.writeClock_mem ..) h) ..
  | clockChangeEffect => exact event_keepsForm fun h ht => Memory.wf_of_eq (State.clockEffect_mem ht) h
  | pwrlimWrite => exact event_byFirmware_keepsForm _ _ fun h => Memory.wf_of_eq (State.writeLimit_mem ..) h
  | currentSample amps tj watts =>
    exact event_keepsForm (f := fun s => some (s.currentSample amps tj watts))
      fun h ht => Option.some.inj ht ▸ State.wf_currentSample h ..
  | thermalTrip => exact always_keepsForm fun h ht => State.wf_thermalTrip h ht
  | connreset => exact event_onDie_byFirmware_keepsForm (f := fun s => s.connreset _ _) _ _ fun h => Memory.wf_of_eq (State.connreset_mem ..) h
  | deviceReset =>
    intro s t h ht
    cases ht
    exact State.wf_deviceReset h
  | pldmFirmwareUpdate img =>
    exact always_keepsForm (f := fun s => some { s with newImage := some img }) fun h ht => Option.some.inj ht ▸ h
  | pldmMonitoring i =>
    exact always_keepsForm (f := fun s => (s.sensor i).map fun x => s.answer [x]) fun h ht => by
      obtain ⟨x, -, rfl⟩ := Option.map_eq_some_iff.mp ht
      exact Memory.wf_of_eq (State.answer_mem ..) h
  | spdm =>
    exact always_keepsForm (f := fun s => some (s.answer s.spdmAnswer)) fun h ht => Option.some.inj ht ▸ Memory.wf_of_eq (State.answer_mem ..) h
  | registerWrite => exact event_keepsForm fun h ht => State.wf_masterWrite h ht
  | applicationCoreAccess => exact event_keepsForm fun h ht => State.wf_appAccess h ht
  | softError => exact event_keepsForm fun h ht => Memory.wf_of_eq (State.softError_mem ht) h
  | _ => exact exec_keepsForm_of_view rfl

theorem State.ownAcks_keepForm (s : State) (o : Op) : ∀ g ∈ s.ownAcks o, g.KeepsForm := by
  intro g hg
  simp only [State.ownAcks] at hg
  repeat' split at hg
  case h_2 | h_3 => exact List.mem_singleton.mp hg ▸ exec_keepsForm (.fabricAck ..)
  all_goals cases hg

theorem State.opEvents_keepForm (s : State) : ∀ g ∈ s.opEvents, g.KeepsForm := by
  simp only [State.opEvents, List.forall_mem_flatMap, List.forall_mem_append, List.forall_mem_cons, List.forall_mem_map]
  refine fun o _ => ⟨⟨s.ownAcks_keepForm o, ?_⟩, fun w _ => exec_keepsForm (.matrixCommandPerform ..)⟩
  exact ⟨exec_keepsForm (.tokenComplete ..), exec_keepsForm (.copyEngineStart ..), exec_keepsForm (.grammarCommandStart ..),
    exec_keepsForm (.ringClaimGrant ..), exec_keepsForm (.encoderCommandStart ..), List.forall_mem_nil _⟩

theorem State.ctxEvents_keepForm (s : State) : ∀ g ∈ s.ctxEvents, g.KeepsForm := by
  simp only [State.ctxEvents, List.forall_mem_flatMap, List.forall_mem_append, List.forall_mem_cons]
  refine fun c _ => ⟨fun l _ => ?_, exec_keepsForm (.warpEnd ..), exec_keepsForm (.sideLogReplay ..), List.forall_mem_nil _⟩
  split
  · exact List.forall_mem_singleton.mpr (exec_keepsForm (.monwaitTimeout ..))
  · exact List.forall_mem_cons.mpr
      ⟨exec_keepsForm (.tokenWaitEnd ..), List.forall_mem_singleton.mpr (exec_keepsForm (.twaitkTimeout ..))⟩
  · exact List.forall_mem_nil _

theorem State.clusterEvents_keepForm (s : State) : ∀ g ∈ s.clusterEvents, g.KeepsForm := by
  simp only [State.clusterEvents, List.forall_mem_flatMap, List.forall_mem_append, List.forall_mem_cons, List.forall_mem_map]
  refine fun ck _ => ⟨⟨⟨⟨⟨fun e _ => exec_keepsForm (.spawnEntryEligible ..), fun l _ => ⟨fun e _ => ⟨exec_keepsForm (.fullWarp ..),
      exec_keepsForm (.ageFlush ..), List.forall_mem_nil _⟩, exec_keepsForm (.spillReturn ..), exec_keepsForm (.eviction ..),
      List.forall_mem_nil _⟩⟩, exec_keepsForm (.idleFlush ..), List.forall_mem_nil _⟩, ?_⟩,
    fun x _ k _ => exec_keepsForm (.evictedWarpRestore ..)⟩, exec_keepsForm (.grammarHoldBreak ..), List.forall_mem_nil _⟩
  split
  · exact List.forall_mem_nil _
  · exact List.forall_mem_map.mpr fun k _ => exec_keepsForm (.childWarpAdmit ..)

theorem State.deviceEvents_keepForm (s : State) : ∀ g ∈ s.deviceEvents, g.KeepsForm := by
  simp only [State.deviceEvents, List.forall_mem_flatMap, List.forall_mem_append, List.forall_mem_map]
  refine ⟨⟨⟨⟨⟨⟨fun i _ => exec_keepsForm (.tkarrDeferredArrival ..), fun i _ => exec_keepsForm (.reductionHomeFailure ..)⟩,
    fun b _ => exec_keepsForm (.successorStart ..)⟩,
    fun l _ => List.forall_mem_cons.mpr ⟨exec_keepsForm (.launchComplete ..), ?_⟩⟩, fun d _ => ?_⟩,
    fun q _ => exec_keepsForm (.launchCopy ..)⟩, fun c _ => ?_⟩
  · split
    · exact List.forall_mem_nil _
    · exact List.forall_mem_map.mpr fun k _ => exec_keepsForm (.blockRelaunch ..)
  · simp only [List.forall_mem_cons]
    exact ⟨exec_keepsForm (.noticeRepost d), exec_keepsForm (.collectiveEngineStart d), exec_keepsForm (.collSend d),
      exec_keepsForm (.collReceive d), exec_keepsForm (.collTimeout d), List.forall_mem_nil _⟩
  · simp only [List.forall_mem_cons]
    exact ⟨exec_keepsForm (.chimneyHeldRelease c), exec_keepsForm (.chimneyTimeTrigger c), exec_keepsForm (.clockChangeEffect c),
      List.forall_mem_nil _⟩

theorem State.wakes_keepForm (s : State) : ∀ g ∈ s.wakes, g.KeepsForm := by
  simp only [State.wakes, List.forall_mem_flatMap]
  intro c _ l _
  repeat' split
  · exact List.forall_mem_singleton.mpr (exec_keepsForm (.monwaitWake ..))
  all_goals exact List.forall_mem_nil _

/-- Every event that the device itself may take. -/
theorem State.ownEvents_keepForm (s : State) :
    ∀ g ∈ s.opEvents ++ s.ctxEvents ++ s.clusterEvents ++ s.deviceEvents ++ s.wakes, g.KeepsForm := by
  simp only [List.forall_mem_append]
  exact ⟨⟨⟨⟨s.opEvents_keepForm, s.ctxEvents_keepForm⟩, s.clusterEvents_keepForm⟩, s.deviceEvents_keepForm⟩, s.wakes_keepForm⟩

theorem State.wf_orElse {o p : Option State} {t : State} (ho : ∀ t, o = some t → Memory.wf t.mem = true)
    (hp : ∀ t, p = some t → Memory.wf t.mem = true) (ht : (o <|> p) = some t) : Memory.wf t.mem = true := by
  cases o with
  | none => exact hp t ht
  | some u => exact ho t ht

@[simp] theorem State.wf_autopilot {s : State} (h : Memory.wf s.mem = true) : Memory.wf s.autopilot.mem = true := by
  unfold State.autopilot
  split
  · exact h
  split
  · obtain ⟨g, hg, ht⟩ := List.exists_of_findSome?_eq_some ‹_›
    exact State.wf_tryEvent h (s.ownEvents_keepForm g hg) ht
  split
  · split
    · refine State.wf_getD (State.wf_leaveActive h) fun t ht => ?_
      exact State.wf_orElse (fun _ => State.wf_passLate h)
        (fun _ => State.wf_orElse (fun _ => State.wf_nextRun h) fun _ => State.wf_passStill h) ht
    · exact State.wf_tryEvent h (exec_keepsForm (.hearthEvaluation [])) ‹_›
  · exact h

@[simp] theorem State.wf_act {s : State} (h : Memory.wf s.mem = true) (a : Turn) : Memory.wf (s.act a).mem = true := by
  cases a with
  | run c =>
    exact Memory.wf_ite h (State.wf_getD (State.wf_leaveActive h) fun t ht => State.wf_schedule h ht)
  | event i => exact State.wf_getD h fun t ht => State.wf_tryEvent h (exec_keepsForm i) ht
  | evictTlb die i => exact Memory.wf_of_eq (State.evictTlb_mem ..) h

@[simp] theorem State.wf_turn {s : State} (h : Memory.wf s.mem = true) : Memory.wf s.turn.mem = true := by
  have h0 : Memory.wf s.tick.mem = true := Memory.wf_of_eq s.tick_mem h
  simp only [State.turn]
  generalize s.tick = u at h0 ⊢
  split
  · exact State.wf_track (State.wf_autopilot h0)
  · refine State.wf_track (State.wf_act ?_ _)
    exact h0

theorem State.wf_stepRun {s t : State} {r : Run} (hr : s.run = some r) (h : Memory.wf s.mem = true) (ht : step s = .next t) :
    Memory.wf t.mem = true := by
  obtain ⟨c, -, ⟨s1, hf, rfl⟩ | ⟨s1, cause, tval, hf, rfl | rfl⟩ | ⟨s1, i, u, hf, hu, rfl⟩⟩ := step_run_cases hr ht <;>
    have h1 := State.wf_fst hf (State.wf_fetch h c r.pc)
  · exact h1
  · exact State.wf_fetchTrap h1 ..
  · exact h1
  · have h2 := exec_keepsForm i h1 hu
    exact Memory.wf_ite (State.wf_track (Memory.wf_of_eq (State.account_mem ..) h2)) h2

/-- Settles O51: memory changes by writes of bytes and by filters of the list only, and each keeps the form; every operation of the
model comes down to these. -/
theorem stepKeepsMemoryForm : Obligations.StepKeepsMemoryForm := by
  unfold Obligations.StepKeepsMemoryForm
  intro s t h ht
  cases hr : s.run with
  | none =>
    cases (step_turn hr).symm.trans ht
    exact State.wf_turn h
  | some r => exact State.wf_stepRun hr h ht

end Sys2Proof.Machine
end

section
/-! PROOFS. Memory reads back what was written, and a list in canonical form is what it reads (O50); what a reset leaves (O52). -/

namespace Sys2Proof.Machine

/-- The head of a table in canonical form. -/
theorem Table.wf_cons {α : Type} [DecidableEq α] {d x : α} {k : Nat} {t : List (Nat × α)} :
    Table.wf d ((k, x) :: t) = true ↔ Table.above k t = true ∧ x ≠ d ∧ Table.wf d t = true := by
  simp only [Table.wf, Bool.and_eq_true, decide_eq_true_eq, and_assoc]

/-- A key below the first of a table in canonical form reads as the default. -/
theorem Table.get_of_lt_head {α : Type} [DecidableEq α] {d x : α} {j k : Nat} {t : List (Nat × α)} (h : Table.wf d ((k, x) :: t) = true)
    (hj : j < k) : Table.get ((k, x) :: t) j d = d := by
  rw [Table.get_cons, if_neg (by omega)]
  exact Table.get_of_above (Table.above_mono (Table.wf_cons.mp h).1 hj.le)

/-- Two tables in canonical form that read the same everywhere are the same list. -/
theorem Table.ext_of_wf {α : Type} [DecidableEq α] {d : α} {t u : List (Nat × α)} (ht : Table.wf d t = true) (hu : Table.wf d u = true)
    (h : ∀ k, Table.get t k d = Table.get u k d) : t = u := by
  induction t generalizing u with
  | nil =>
    cases u with
    | nil => rfl
    | cons q u =>
      have hq := h q.1
      rw [Table.get_nil, Table.get_cons, if_pos rfl] at hq
      exact absurd hq.symm (Table.wf_cons.mp hu).2.1
  | cons p t ih =>
    obtain ⟨j, x⟩ := p
    obtain ⟨hjt, hx, ht'⟩ := Table.wf_cons.mp ht
    cases u with
    | nil =>
      have hj := h j
      rw [Table.get_nil, Table.get_cons, if_pos rfl] at hj
      exact absurd hj hx
    | cons q u =>
      obtain ⟨k, y⟩ := q
      obtain ⟨hku, hy, hu'⟩ := Table.wf_cons.mp hu
      rcases lt_trichotomy j k with hjk | rfl | hkj
      · have hj := h j
        rw [Table.get_cons, if_pos rfl, Table.get_of_lt_head hu hjk] at hj
        exact absurd hj hx
      · have hxy : x = y := by simpa using h j
        refine hxy ▸ congrArg _ (ih ht' hu' fun i => ?_)
        by_cases hi : j = i
        · rw [← hi, Table.get_of_above hjt, Table.get_of_above hku]
        · simpa [hi] using h i
      · have hk := h k
        rw [Table.get_of_lt_head ht hkj, Table.get_cons, if_pos rfl] at hk
        exact absurd hk.symm hy

/-- An element reads back as the number written, as far as its bytes hold it. -/
theorem State.readN_wrN {s : State} (h : Memory.wf s.mem = true) (pa n x : Nat) : (s.wrN pa n x).readN pa n = x % 2 ^ (8 * n) := by
  rw [pow_mul]
  exact State.readN_wr_leBytes h pa (off := 0) List.prefix_rfl

/-- Settles O50: a table in canonical form is decided by what it reads. -/
theorem memoryReadsBack : Obligations.MemoryReadsBack := by
  unfold Obligations.MemoryReadsBack
  intro s pa n x bs h
  exact ⟨State.readN_wrN h pa n x, fun q hq => State.readByte_wr_outside h (by rwa [leBytes_length]), State.wf_wr h pa bs,
    fun m hm hget => Table.ext_of_wf hm h hget⟩

/-- Settles O52: every value that is not listed is the one a reset gives. -/
theorem resetState : Obligations.ResetState := by
  unfold Obligations.ResetState
  exact ⟨by decide, by decide, by decide, by decide, rfl, rfl, rfl, rfl, rfl⟩

end Sys2Proof.Machine
end

section
/-! PROOFS. Loads and stores as instructions: what they dispatch or leave for commit (07_memory.md R132, R137 to R140, R154). -/

namespace Sys2Proof.Machine

theorem Env.at'_eq (v : Env) (l : Nat) : v.at' l = v.readLane l := by
  unfold Env.at' Env.readLane Env.uniform
  cases usesV v.k v.f <;> rfl

theorem Env.offset5_eq (v : Env) : v.offset5 = v.disp := by
  unfold Env.offset5 Env.disp
  rw [BitVec.ofNat_toNat]

/-- An access of class 0x5 stands where R132 says. -/
theorem Env.acc5_eq (v : Env) (size l : Nat) : v.acc5 size l = v.cell size l v.disp (0, 0) 0 := by
  rw [Env.acc5, Env.addr5, Env.at'_eq, Env.offset5_eq, Env.cell]

theorem Env.store_acc_eq (v : Env) (size l : Nat) : { v.acc5 size l with x := v.data size l } = v.cell size l v.disp (v.data size l) 0 := by
  rw [Env.acc5_eq, Env.cell, Env.cell]

/-- A dispatch onto the token of the instruction, neither releasing nor acquiring. -/
theorem Env.produce_eq (v : Env) (d : Dst) (active : Bool) (c : Cmd) : v.produce d active c = .ok (v.dispatches false false 0 d active c) := rfl

theorem Env.load_eq (v : Env) : v.load = .ok (v.dispatches false false 0 (v.dst (sizeRegs v.f.sub.val) 1) (!v.takers.isEmpty)
    (.access (.load v.signed5) v.space5 v.size5 (v.takers.map fun l => v.cell v.size5 l v.disp (0, 0) 0))) := by
  rw [Env.load, Env.produce_eq, funext (v.acc5_eq v.size5)]

theorem Env.loadU_eq (v : Env) : v.loadU = .ok (v.dispatches false false 0 (v.dst 1 (if v.f.sub = 6 then 2 else 1)) v.lowG
    (.access (.load v.signed5) v.space5 v.size5 [v.cell v.size5 v.low v.disp (0, 0) 0])) := by
  have hsub : (v.f.sub.val == 6) = decide (v.f.sub = 6) := by simp [Fin.ext_iff, beq_eq_decide]
  rw [Env.loadU, Env.produce_eq, Env.acc5_eq, hsub]
  simp only [decide_eq_true_eq]

theorem Env.xlat_eq (v : Env) : v.xlat =
    let ls := if v.f.d.isS then (if v.lowG then [v.low] else []) else v.takers
    .ok (v.dispatches false false 0 (v.dst 2 1) (!ls.isEmpty) (.access .xlat 0 1 (ls.map fun l => v.cell 1 l v.disp (0, 0) 0))) := by
  unfold Env.xlat
  rw [funext (v.acc5_eq 1)]
  cases hd : v.f.d <;> simp [Reg.isS, Env.produce_eq]

theorem Env.prefetch_eq (v : Env) : v.prefetch = .ok (if v.takers = [] then Out.nil
    else Out.effect [.prefetch (v.f.m.getLsbD 0) (v.takers.map fun l => v.cell 1 l v.disp (0, 0) 0)]) := by
  rw [Env.prefetch, funext (v.acc5_eq 1)]
  simp only [List.isEmpty_iff]

/-- Settles O26: each computation is the dispatch, or the prefetch, of the accesses that R132 places. -/
theorem loadInstructions : Obligations.LoadInstructions := by
  unfold Obligations.LoadInstructions
  intro f
  refine ⟨performs_of rfl (fun _ => rfl) fun v _ hf _ _ => ?_, performs_of rfl (fun _ => rfl) fun v _ hf _ _ => ?_,
    performs_of rfl (fun _ => rfl) fun v _ hf _ _ => ?_, performs_of rfl (fun _ => rfl) fun v _ hf _ _ => ?_⟩ <;> subst hf
  · exact v.load_eq
  · exact v.loadU_eq
  · exact v.xlat_eq
  · exact v.prefetch_eq

theorem Env.store_eq (v : Env) (ls : List Nat) : v.store ls =
    let accs := ls.map fun l => v.cell v.size5 l v.disp (v.data v.size5 l) 0
    match v.s.preCheck v.who .write false v.space5 v.size5 accs with
    | some x => .trap (v.checkTrap (some x))
    | none => .ok (Out.effect [.store v.space5 v.size5 accs]) := by
  simp only [Env.store, Env.write, Env.store_acc_eq]
  split <;> rename_i hx <;> rw [hx]
  rfl

/-- The data of a v source no wider than a word. -/
theorem Env.data_word {v : Env} {n : Fin 160} {size : Nat} (l : Nat) (hd : v.f.d = .v n) (hs : size ≤ 4) :
    v.data size l = ((v.c.rdV n.val l).setWidth 64, 0) := by
  have h16 : (size == 16) = false := by simp; omega
  simp [Env.data, Env.dataLane, hd, hs, h16, Env.rd32]

/-- Two words of a register pair, the lower first. -/
theorem setWidth_or_shift (x y : W32) : (x.setWidth 64 ||| (y.setWidth 64 <<< 32) : W64) = x.setWidth 64 + 2 ^ 32 * y.setWidth 64 := by
  have hor : y.toNat <<< 32 ||| x.toNat = y.toNat * 2 ^ 32 + x.toNat := by
    rw [← Nat.shiftLeft_add_eq_or_of_lt x.isLt, Nat.shiftLeft_eq]
  have hy : (y.setWidth 64 <<< 32).toNat = y.toNat <<< 32 := by
    rw [BitVec.toNat_shiftLeft, BitVec.toNat_setWidth, Nat.mod_eq_of_lt (by omega), Nat.shiftLeft_eq]
    omega
  apply BitVec.eq_of_toNat_eq
  rw [BitVec.toNat_or, hy, BitVec.toNat_setWidth, Nat.mod_eq_of_lt (by omega), Nat.or_comm, hor]
  simp only [BitVec.toNat_add, BitVec.toNat_mul, BitVec.toNat_setWidth, show (2 ^ 32 : W64).toNat = 2 ^ 32 by decide]
  omega

/-- The data of a v source of 8 bytes is its register pair. -/
theorem Env.data_pair {v : Env} {n : Fin 160} (l : Nat) (hd : v.f.d = .v n) :
    v.data 8 l = ((v.c.rdV n.val l).setWidth 64 + 2 ^ 32 * (v.c.rdV (n.val + 1) l).setWidth 64, 0) := by
  simp [Env.data, Env.dataLane, hd, Env.rd64, setWidth_or_shift]

/-- A source other than a v register supplies every lane alike. -/
theorem Env.data_uniform {v : Env} (size l l' : Nat) (hd : v.f.d.isV = false) : v.data size l = v.data size l' := by
  cases h : v.f.d <;> simp_all [Env.data, Env.dataLane, Env.rd32, Env.rd64, Reg.isV]

/-- Settles O27: a store is checked in every lane before it is left for commit. -/
theorem storeInstructions : Obligations.StoreInstructions := by
  unfold Obligations.StoreInstructions
  intro f
  refine ⟨fun p hp => ?_, fun v l l' hf => ⟨fun n hd hs => Env.data_word l (hf ▸ hd) hs, fun n hd hs => ?_,
    fun hd => Env.data_uniform _ l l' (hf ▸ hd)⟩⟩
  · have hbody (v : Env) (hv : v.f = f) (ls : List Nat) : v.store ls =
        let accs := ls.map fun l => v.cell (sizeBytes f.sub.val) l v.disp (v.data (sizeBytes f.sub.val) l) 0
        let space := if v.isImm then nbits v.imm.toNat 25 24 else 0
        match v.s.preCheck (whoOf v.c) .write false space (sizeBytes f.sub.val) accs with
        | some x => .trap (v.checkTrap (some x))
        | none => .ok (Out.effect [.store space (sizeBytes f.sub.val) accs]) := hv ▸ v.store_eq ls
    simp only [List.mem_cons, List.not_mem_nil, or_false] at hp
    rcases hp with rfl | rfl
    all_goals
      refine ⟨performs_of rfl (fun _ => rfl) fun v _ hf _ hc => ?_, traps_of rfl (fun _ => rfl) fun v _ hf _ hc => ?_⟩
      · rw [hbody v hf]
        simp only [hc]
      · obtain ⟨x, hx⟩ := Option.ne_none_iff_exists'.mp hc
        rw [hbody v hf]
        simp only [hx]
  · rw [hs]
    exact Env.data_pair l (hf ▸ hd)

end Sys2Proof.Machine
end

section
/-! PROOFS. A store writes the little-endian bytes of its element (R131, R139). -/

namespace Sys2Proof.Machine

/-- Each byte of a number, the lowest first. -/
theorem leBytes_getElem? {n i : Nat} (x : Nat) (hi : i < n) : (leBytes n x)[i]? = some (BitVec.ofNat 8 (x / 2 ^ (8 * i))) := by
  induction n generalizing i x with
  | zero => omega
  | succ n ih =>
    cases i with
    | zero => simp [leBytes]
    | succ i =>
      rw [leBytes, List.getElem?_cons_succ, ih _ (by omega), Nat.div_div_eq_div_mul, show 256 * 2 ^ (8 * i) = 2 ^ (8 * (i + 1)) by
        rw [Nat.mul_succ, Nat.pow_add, Nat.mul_comm]]

/-- Bytes depend only on the part of a number that they hold. -/
theorem leBytes_mod (n x : Nat) : leBytes n (x % 256 ^ n) = leBytes n x := by
  have h := leBytes_leNat (leBytes n x)
  rwa [leBytes_length, leNat_leBytes] at h

/-- The bytes of two halves. -/
theorem leBytes_append {m x : Nat} (n y : Nat) (hx : x < 256 ^ m) : leBytes m x ++ leBytes n y = leBytes (m + n) (x + 256 ^ m * y) := by
  induction m generalizing x with
  | zero =>
    obtain rfl : x = 0 := by simpa using hx
    simp [leBytes]
  | succ m ih =>
    have hdiv : (x + 256 ^ (m + 1) * y) / 256 = x / 256 + 256 ^ m * y := by
      rw [Nat.pow_succ', Nat.mul_assoc, Nat.add_mul_div_left _ _ (by decide)]
    have hlow : BitVec.ofNat 8 (x + 256 ^ (m + 1) * y) = BitVec.ofNat 8 x := by
      apply BitVec.eq_of_toNat_eq
      rw [BitVec.toNat_ofNat, BitVec.toNat_ofNat, Nat.pow_succ', Nat.mul_assoc, Nat.add_mul_mod_self_left]
    rw [Nat.add_right_comm, leBytes, leBytes, hdiv, hlow, List.cons_append, ih (by rw [Nat.pow_succ] at hx; omega)]

/-- The bytes that a store of an element of n bytes writes. -/
theorem storeBytes_eq {n : Nat} (x : W64 × W64) (hn : n ∈ [1, 2, 4, 8, 16]) :
    leBytes (min n 8) x.1.toNat ++ leBytes (n - 8) x.2.toNat = leBytes n (x.1.toNat + 2 ^ 64 * x.2.toNat) := by
  have hx := x.1.isLt
  by_cases h16 : n = 16
  · subst h16
    exact leBytes_append 8 _ hx
  · have h8 : n ≤ 8 := by simp at hn; omega
    obtain ⟨k, hk⟩ := Nat.exists_eq_add_of_le h8
    have hmod : (x.1.toNat + 2 ^ 64 * x.2.toNat) % 256 ^ n = x.1.toNat % 256 ^ n := by
      rw [show (2 ^ 64 : Nat) = 256 ^ n * 256 ^ k by rw [← Nat.pow_add, ← hk]; norm_num, Nat.mul_assoc, Nat.add_mul_mod_self_left]
    rw [Nat.min_eq_left h8, Nat.sub_eq_zero_of_le h8, leBytes, List.append_nil, ← leBytes_mod, ← leBytes_mod n (_ + _), hmod]

/-- A store whose checks pass: the bytes of its element, and the note of it for the loads that it overtakes. -/
theorem State.writeLane_store {s s1 : State} {w : Who} {space esz pa : Nat} {pc : W64} {a : Acc}
    (h : s.tryAccess w space esz (BitVec.ofNat 64 a.addr) .write false = (s1, .ok pa)) :
    (s.writeLane w none space esz pc a).1
      = (s1.wr pa (leBytes (min esz 8) a.x.1.toNat ++ leBytes (esz - 8) a.x.2.toNat)).noteWrite w.ctx pa esz := by
  simp [State.writeLane, h]

/-- What writes may change: memory, the error marks they cover whole, and operations. -/
def State.WroteOnly (s t : State) : Prop :=
  t = { s with mem := t.mem, badGranules := t.badGranules, badWords := t.badWords, ops := t.ops }

theorem State.WroteOnly.trans {s t u : State} (h1 : s.WroteOnly t) (h2 : t.WroteOnly u) : s.WroteOnly u := by
  unfold State.WroteOnly at h2
  rw [h1] at h2
  exact h2

theorem State.wroteOnly_wr (s : State) (pa : Nat) (bs : List Byte) : s.WroteOnly (s.wr pa bs) := by
  unfold State.WroteOnly
  rw [State.wr_mem]
  exact s.wr_eq pa bs

theorem State.wroteOnly_noteWrite (s : State) (ctx pa n : Nat) : s.WroteOnly (s.noteWrite ctx pa n) := by
  unfold State.WroteOnly State.noteWrite State.updOvertaken
  split <;> rfl

/-- Settles O28: a noted write, whose bytes are those of the element. -/
theorem storeWritesItsBytes : Obligations.StoreWritesItsBytes := by
  unfold Obligations.StoreWritesItsBytes
  intro s s1 w space esz pa pc a hesz h hs t
  have ht : t = (s1.wr pa (leBytes esz (a.x.1.toNat + 2 ^ 64 * a.x.2.toNat))).noteWrite w.ctx pa esz := by
    rw [← storeBytes_eq a.x hesz]
    exact State.writeLane_store h
  have hbyte (q : Nat) : t.readByte q = (s1.wr pa (leBytes esz (a.x.1.toNat + 2 ^ 64 * a.x.2.toNat))).readByte q := by
    rw [ht, State.readByte, State.noteWrite_mem, State.readByte]
  refine ⟨fun i hi => ?_, fun q hq => ?_, ?_⟩
  · rw [hbyte, State.readByte_wr hs, if_pos (Nat.le_add_right ..), Nat.add_sub_cancel_left, leBytes_getElem? _ hi, Option.getD_some]
  · rw [hbyte, State.readByte_wr_outside hs (by rwa [leBytes_length])]
  · rw [← State.WroteOnly, ht]
    exact (s1.wroteOnly_wr ..).trans (State.wroteOnly_noteWrite ..)

end Sys2Proof.Machine
end

section
/-! PROOFS. A load reads the little-endian element at its address (R131, R137). -/

namespace Sys2Proof.Machine

/-- A number of memory is the sum of its bytes, each at its place. -/
theorem State.readN_eq_sum (s : State) (pa n : Nat) :
    s.readN pa n = ((List.range n).map fun i => (s.readByte (pa + i)).toNat * 2 ^ (8 * i)).sum := by
  induction n generalizing pa with
  | zero => rfl
  | succ n ih =>
    have hshift (i : Nat) : (s.readByte (pa + (i + 1))).toNat * 2 ^ (8 * (i + 1))
        = 256 * ((s.readByte (pa + 1 + i)).toNat * 2 ^ (8 * i)) := by
      rw [show pa + (i + 1) = pa + 1 + i by omega, Nat.mul_succ, Nat.pow_add]
      ring
    rw [State.readN, ih, List.range_succ_eq_map, List.map_cons, List.sum_cons, List.map_map, ← List.sum_map_mul_left]
    simp only [Function.comp_def, Nat.succ_eq_add_one, hshift, Nat.mul_zero, Nat.pow_zero, Nat.mul_one, Nat.add_zero]

theorem State.readN_lt (s : State) (pa n : Nat) : s.readN pa n < 2 ^ (8 * n) := by
  induction n generalizing pa with
  | zero => exact Nat.one_pos
  | succ n ih =>
    have hb := (s.readByte pa).isLt
    have hn := ih (pa + 1)
    rw [State.readN, Nat.mul_succ, Nat.pow_add]
    omega

/-- An operation that ends, as a map over the operations. -/
theorem State.finishOp_eq (s : State) (id : Nat) (r : Result) :
    s.finishOp id r = { s with ops := s.ops.map fun y => if y.id = id then { y with stage := .finished r } else y } := by
  simp [State.finishOp, State.updOp, updWhere]

/-- The highest bit of a number that k + 1 bits hold. -/
theorem testBit_top {k x : Nat} (hx : x < 2 ^ (k + 1)) : x.testBit k = decide (2 ^ k ≤ x) := by
  rw [Nat.pow_succ] at hx
  have hdiv : x / 2 ^ k < 2 := Nat.div_lt_of_lt_mul hx
  rw [Nat.testBit_eq_decide_div_mod_eq, Nat.mod_eq_of_lt hdiv, decide_eq_decide]
  have hone : 1 ≤ x / 2 ^ k ↔ 2 ^ k ≤ x := by rw [Nat.le_div_iff_mul_le (by positivity), Nat.one_mul]
  omega

/-- The value of an element of n bytes as its load gives it (R137). -/
theorem loadValue_eq (sg : Bool) {n x : Nat} (hn : 0 < n) (hx : x < 2 ^ (8 * n)) :
    loadValue sg n x = if sg = true ∧ 2 ^ (8 * n - 1) ≤ x then x + 2 ^ 64 - 2 ^ (8 * n) else x := by
  rw [loadValue, testBit_top (by rwa [Nat.sub_add_cancel (by omega)])]
  simp only [Bool.and_eq_true, decide_eq_true_eq]

/-- A load of one lane whose checks pass ends with its element. -/
theorem State.performLanes_load {s s1 : State} {o : Op} {w : Who} {sg : Bool} {space esz pa : Nat} {a : Acc}
    (h : s.tryAccess w space esz (BitVec.ofNat 64 a.addr) .read false = (s1, .ok pa)) (hbad : s1.badRead pa esz = false) :
    s.performLanes o w (.load sg) space esz [a] [] none
      = s1.finishOp o.id (.ok (o.dst.split a.lane (loadValue sg esz (s1.readN pa esz)))) := by
  have hlane : Gather.lane { s := s, got := [], bad := none, todo := [] } w (.load sg) space esz o.pc o.dst a
      = { s := s1, got := o.dst.split a.lane (loadValue sg esz (s1.readN pa esz)), bad := none, todo := [] } := by
    have hrw : (AccessType.read == AccessType.rmw) = false := rfl
    simp [Gather.lane, AccKind.type, hrw, h, State.readElem, hbad]
  simp [State.performLanes, hlane, State.finishOp]

/-- Settles O29: one lane is one element read. -/
theorem loadReadsElement : Obligations.LoadReadsElement := by
  unfold Obligations.LoadReadsElement
  intro s s1 o w sg space esz pa a h hbad x value hesz
  have hx : s1.readN pa esz = x := s1.readN_eq_sum pa esz
  have hpos : 0 < esz := by simp at hesz; omega
  rw [State.performLanes_load h hbad, State.finishOp_eq, hx, loadValue_eq sg hpos (hx ▸ s1.readN_lt pa esz)]

end Sys2Proof.Machine
end

section
/-! PROOFS. Translation of a page whose leaf a TLB holds (R147 to R150). -/

namespace Sys2Proof.Machine

/-- A die whose checking is off denies nothing. -/
theorem State.tablePermits_off {s : State} {die : Nat} (h : (s.reg die 0x19FFF8).getLsbD 0 = false) (target : Nat) (w : Who) (pa size : Nat)
    (rd wr : Bool) : s.tablePermits die target w pa size rd wr = true := by
  rw [State.tablePermits, h, Bool.not_false, Bool.true_or]

/-- A device has eight stacks of memory. -/
theorem State.stack_lt {s : State} {pa st : Nat} (hp : s.place pa = .hbm st) : st < 8 := by
  simp only [State.place] at hp
  by_cases hpa : pa < 2 ^ 39
  · rw [if_pos hpa] at hp
    split at hp <;> cases hp
    omega
  · rw [if_neg hpa] at hp
    repeat' split at hp
    all_goals cases hp

/-- Tables whose checking is off on both dies deny nothing in a stack of memory. -/
theorem State.tablesPermit_hbm {s : State} {pa st : Nat} (hp : s.place pa = .hbm st) (h0 : (s.reg 0 0x19FFF8).getLsbD 0 = false)
    (h1 : (s.reg 1 0x19FFF8).getLsbD 0 = false) (w : Who) (size : Nat) (rd wr : Bool) : s.tablesPermit w pa size rd wr = true := by
  have hdie : (s.reg (st / 4) 0x19FFF8).getLsbD 0 = false := by
    have hst := State.stack_lt hp
    obtain h | h : st / 4 = 0 ∨ st / 4 = 1 := by omega
    · rwa [h]
    · rwa [h]
  simp [State.tablesPermit, hp, State.tablePermits_off hdie]

/-- The rights of a leaf (Table 7.11). -/
theorem leafPermits_iff (e : W64) (t : AccessType) : leafPermits e t = true ↔
    (t.reads = true → e.getLsbD 2 = true) ∧ (t.writes = true → e.getLsbD 3 = true) ∧ (t = .fetch → e.getLsbD 4 = true) := by
  cases t <;> simp [leafPermits, AccessType.reads, AccessType.writes]

theorem State.performedAt_hbm {s : State} {pa st : Nat} (hp : s.place pa = .hbm st) (w : Who) : s.performedAt w pa = pa := by
  rw [State.performedAt, hp]

theorem State.countMigration_none {s : State} {e : W64} (h : e.getLsbD 12 = false) (w : Who) (va ea pa : Nat) :
    s.countMigration w va ea e pa = s := by
  unfold State.countMigration
  extract_lets far thresh
  rw [h, Bool.false_and, Bool.false_and, Bool.false_and, if_neg Bool.false_ne_true]

section
variable {s : State} {w : Who} {va size : Nat} {t : AccessType}

theorem State.translate_off (h : (s.reg w.die 0x100000).getLsbD 0 = false) : s.translate w va size t = (s, .violation) := by
  simp [-BitVec.getLsbD_eq_getElem, State.translate, State.translateRaw, h]

theorem State.translate_denied {ea : Nat} {e : W64} {large : Bool} (hon : (s.reg w.die 0x100000).getLsbD 0 = true)
    (hhit : s.tlbHit w.die w.units va = some (.leaf ea e large)) (he : leafPermits e t = false) :
    s.translate w va size t = (s, .violation) := by
  simp [-BitVec.getLsbD_eq_getElem, State.translate, State.translateRaw, hon, hhit, he]

theorem State.translate_cached {ea st : Nat} {e : W64} {large : Bool} (hon : (s.reg w.die 0x100000).getLsbD 0 = true)
    (hhit : s.tlbHit w.die w.units va = some (.leaf ea e large)) (he : leafPermits e t = true)
    (hp : s.place (leafPa e large va) = .hbm st) (h0 : (s.reg 0 0x19FFF8).getLsbD 0 = false)
    (h1 : (s.reg 1 0x19FFF8).getLsbD 0 = false) (hm : e.getLsbD 12 = false) :
    s.translate w va size t = (s, .ok (leafPa e large va)) := by
  simp [-BitVec.getLsbD_eq_getElem, State.translate, State.translateRaw, hon, hhit, he, hp, State.tablesPermit_hbm hp h0 h1,
    State.countMigration_none hm, State.performedAt_hbm hp]

end

/-- Settles O30: the leaf decides, by its rights and its base. -/
theorem translationOfCachedPages : Obligations.TranslationOfCachedPages := by
  unfold Obligations.TranslationOfCachedPages
  intro s w va size t ea e large
  refine ⟨State.translate_off, fun hon hhit => ⟨fun hd => State.translate_denied hon hhit ?_, ?_⟩⟩
  · rw [Bool.eq_false_iff, Ne, leafPermits_iff]
    rintro ⟨hr, hw, hx⟩
    rcases hd with ⟨ht, he⟩ | ⟨ht, he⟩ | ⟨ht, he⟩
    · exact absurd (hr ht) (by rw [he]; decide)
    · exact absurd (hw ht) (by rw [he]; decide)
    · exact absurd (hx ht) (by rw [he]; decide)
  · rintro hr hw hx ⟨st, hp⟩ h0 h1 hm
    exact State.translate_cached hon hhit ((leafPermits_iff e t).mpr ⟨hr, hw, hx⟩) hp h0 h1 hm

end Sys2Proof.Machine
end

section
/-! PROOFS. The matrix files (R143 to R145) as instructions, and what a commit writes in them. -/

namespace Sys2Proof.Machine

/-! Cells of memory that lie side by side. -/

/-- Writes of elements of one size, each at its place from a base. -/
def State.wrCells (s : State) (base size : Nat) (xs : List (Nat × Nat)) : State :=
  xs.foldl (fun s x => s.wrN (base + size * x.1) size x.2) s

/-- Two elements of different places do not overlap. -/
theorem cells_apart {i j : Nat} (base size : Nat) (h : i ≠ j) :
    base + size * i + size ≤ base + size * j ∨ base + size * j + size ≤ base + size * i := by
  rcases Nat.lt_or_gt_of_ne h with hij | hji
  · have := Nat.mul_le_mul_left size hij
    rw [Nat.mul_succ] at this
    omega
  · have := Nat.mul_le_mul_left size hji
    rw [Nat.mul_succ] at this
    omega

theorem State.wf_wrCells {s : State} (h : Memory.wf s.mem = true) (base size : Nat) (xs : List (Nat × Nat)) :
    Memory.wf (s.wrCells base size xs).mem = true :=
  State.wf_foldl (fun _ _ hu => State.wf_wr hu ..) xs h

/-- The bytes outside every element stay as they were. -/
theorem State.readByte_wrCells {s : State} (h : Memory.wf s.mem = true) {base size q : Nat} {xs : List (Nat × Nat)}
    (hq : ∀ x ∈ xs, q < base + size * x.1 ∨ base + size * x.1 + size ≤ q) : (s.wrCells base size xs).readByte q = s.readByte q := by
  induction xs generalizing s with
  | nil => rfl
  | cons x xs ih =>
    obtain ⟨hx, hxs⟩ := List.forall_mem_cons.mp hq
    exact (ih (State.wf_wr h ..) hxs).trans (State.readByte_wr_outside h (by rwa [leBytes_length]))

/-- Each element reads back. -/
theorem State.readN_wrCells {s : State} (h : Memory.wf s.mem = true) {base size : Nat} {xs : List (Nat × Nat)}
    (hd : (xs.map Prod.fst).Nodup) {x : Nat × Nat} (hx : x ∈ xs) (hlt : x.2 < 2 ^ (8 * size)) :
    (s.wrCells base size xs).readN (base + size * x.1) size = x.2 := by
  induction xs generalizing s with
  | nil => cases hx
  | cons y xs ih =>
    obtain ⟨hy, hd⟩ := List.nodup_cons.mp hd
    rcases List.mem_cons.mp hx with rfl | hx
    · have hkeep : (s.wrCells base size (x :: xs)).readN (base + size * x.1) size
          = (s.wrN (base + size * x.1) size x.2).readN (base + size * x.1) size :=
        State.readN_congr fun i hi => State.readByte_wrCells (State.wf_wr h ..) fun z hz => by
          have hne : x.1 ≠ z.1 := fun e => hy (e ▸ List.mem_map_of_mem hz)
          have := cells_apart base size hne
          omega
      rw [hkeep, State.readN_wrN h, Nat.mod_eq_of_lt hlt]
    · exact ih (State.wf_wr h ..) hd hx

theorem State.wroteOnly_wrCells (s : State) (base size : Nat) (xs : List (Nat × Nat)) : s.WroteOnly (s.wrCells base size xs) :=
  List.foldlRecOn xs _ (motive := s.WroteOnly) rfl fun t ht _ _ => ht.trans (t.wroteOnly_wr ..)

/-! The instructions on the matrix files. -/

section
variable {v : Env} {ls : List Nat} {o : Out}

/-- The block that holds the files executes the instruction. -/
theorem Env.withFiles_mine (h : ls = [] ∨ (v.s.core v.c.loc).holder = some v.c.block) :
    v.withFiles ls o = .ok (if ls.isEmpty then Out.nil else o) := by
  unfold Env.withFiles Env.holdsFiles
  rcases h with rfl | h
  · rfl
  · cases ls.isEmpty <;> simp [h]

/-- Any other traps. -/
theorem Env.withFiles_other (hne : ls ≠ []) (h : (v.s.core v.c.loc).holder ≠ some v.c.block) :
    v.withFiles ls o = .trap (v.plainTrap 0x05) := by
  have hholds : v.holdsFiles = false := by simpa [Env.holdsFiles] using h
  rw [Env.withFiles, List.isEmpty_eq_false_iff.mpr hne, hholds]
  rfl

end

/-- What an instruction on the files leaves where its block holds them, and where it does not. -/
theorem fileInstruction {i : Instr} {k : Kind} {f : Fields} {body : Env → Res} {o : Env → Out} (hv : i.view = some (k, f))
    (hx : ∀ s, exec i s = execIsa k f body s) (hb : ∀ v : Env, v.f = f → body v = v.withFiles v.parts (o v)) :
    Performs i (fun v => v.parts = [] ∨ (v.s.core v.c.loc).holder = some v.c.block) (fun v => v.someOut (o v))
    ∧ Traps i (fun v => v.parts ≠ [] ∧ (v.s.core v.c.loc).holder ≠ some v.c.block) (fun v => v.plainTrap 0x05) :=
  ⟨performs_of hv hx fun v _ hf _ h => (hb v hf).trans (Env.withFiles_mine h),
    traps_of hv hx fun v _ hf _ h => (hb v hf).trans (Env.withFiles_other h.1 h.2)⟩

/-- The words of a file that lanes write (R144). -/
theorem Env.fileWords_eq (v : Env) (n : Nat) : v.fileWords n =
    (v.parts.filter fun l => decide ((v.rd64 v.f.b v.low).toNat + l < n)).map fun l => ((v.rd64 v.f.b v.low).toNat + l, v.rd32 v.f.a l) := rfl

/-! What the effects leave at commit. -/

/-- A commit whose effect is performed where pre holds. -/
theorem commits_where {a : Act} {pre : State → Ctx → Prop} {post : Eff → State → Ctx → State → Prop} {t : State → Ctx → State}
    (ht : ∀ {s : State} {c : Ctx} {e : Eff}, e.act = a → s.unheld c → s.performAct c e = some (t s c))
    (hpost : ∀ e s c, pre s c → post e s c (t s c)) : Commits a pre post :=
  fun s c e he hu hp => ⟨t s c, ht he hu, hpost e s c hp⟩

theorem State.mapWords_eq (s : State) (l : Loc) (off : Nat) (ws : List (Nat × W32)) :
    s.mapWords l off ws = s.wrCells (mapBase l.die l.cluster l.core + off) 4 (ws.map fun w => (w.1, w.2.toNat)) := by
  rw [State.wrCells, List.foldl_map]
  rfl

section
variable {s : State} {c : Ctx} {e : Eff} {y : Nat}

theorem State.performAct_tileWrite {ws : List (Nat × W32)} (he : e.act = .tileWrite y ws) (h : s.unheld c) :
    s.performAct c e = some (s.mapWords c.loc (0x400000 + 2048 * y) ws) := by
  obtain ⟨hlog, hgated⟩ := h
  simp [State.performAct, he, hlog, hgated]

theorem State.performAct_scaleWrite {bs : List (Nat × Byte)} (he : e.act = .scaleWrite y bs) (h : s.unheld c) :
    s.performAct c e = some (s.wrCells (mapBase c.loc.die c.loc.cluster c.loc.core + (0x408000 + 64 * y)) 1
      (bs.map fun b => (b.1, b.2.toNat))) := by
  obtain ⟨hlog, hgated⟩ := h
  have hbyte (b : Byte) : leBytes 1 b.toNat = [b] := by simp [leBytes]
  simp [State.performAct, he, hlog, hgated, State.wrCells, List.foldl_map, State.wrN, hbyte, Nat.add_assoc]

theorem State.performAct_accWrite {ws : List (Nat × W32)} (he : e.act = .accWrite y ws) (h : s.unheld c) :
    s.performAct c e = some (
      let t := s.mapWords c.loc (0x480000 + 4096 * y) ws
      if ws = [] then t else t.setCore c.loc { t.core c.loc with mirrored := setNth (t.core c.loc).mirrored y false }) := by
  obtain ⟨hlog, hgated⟩ := h
  simp [State.performAct, he, hlog, hgated]

end

/-- What writing elements in a unit's window leaves: they read back, no other byte and nothing beside memory, its error marks and
operations is changed. -/
theorem State.wrCells_leaves {s : State} (h : Memory.wf s.mem = true) {base size : Nat} {xs : List (Nat × Nat)}
    (hd : (xs.map Prod.fst).Nodup) (hlt : ∀ x ∈ xs, x.2 < 2 ^ (8 * size)) :
    (∀ x ∈ xs, (s.wrCells base size xs).readN (base + size * x.1) size = x.2)
    ∧ (∀ q, (∀ x ∈ xs, q < base + size * x.1 ∨ base + size * x.1 + size ≤ q) → (s.wrCells base size xs).readByte q = s.readByte q)
    ∧ s.WroteOnly (s.wrCells base size xs) :=
  ⟨fun x hx => State.readN_wrCells h hd hx (hlt x hx), fun _ hq => State.readByte_wrCells h hq, s.wroteOnly_wrCells ..⟩

/-- The scale bytes that lanes write (R145). -/
theorem Env.scales_eq (v : Env) : v.scales = v.withFiles v.parts (Out.effect [.scaleWrite v.f.d.byte
    ((v.parts.filter fun l => decide ((v.rd64 v.f.b l).toNat + l < 32)).map fun l =>
      (2 * ((v.rd64 v.f.b l).toNat + l) + (v.f.m.getLsbD 2).toNat,
        BitVec.ofNat 8 ((v.rd32 v.f.a l).toNat / 2 ^ (8 * nbits v.f.m.toNat 1 0))))]) := by
  have hbit : bitOf (v.f.m.getLsbD 2) = (v.f.m.getLsbD 2).toNat := by cases v.f.m.getLsbD 2 <;> rfl
  rw [Env.scales, hbit]
  rfl

theorem State.WroteOnly.cores {s t : State} (h : s.WroteOnly t) : t.cores = s.cores := by
  unfold State.WroteOnly at h
  rw [h]

theorem State.WroteOnly.core {s t : State} (h : s.WroteOnly t) (l : Loc) : t.core l = s.core l := by
  rw [State.core, h.cores, State.core]

theorem State.WroteOnly.withCores {s t : State} (h : s.WroteOnly t) (k : List (Nat × Core)) : { t with cores := k } =
    { s with mem := t.mem, badGranules := t.badGranules, badWords := t.badWords, ops := t.ops, cores := k } :=
  congrArg (fun u : State => { u with cores := k }) h

/-- Settles O31: at commit the words are cells side by side of the file's window. -/
theorem matrixFileInstructions : Obligations.MatrixFileInstructions := by
  unfold Obligations.MatrixFileInstructions
  refine ⟨fun f => ?_, fun y ws bs hws hbs => ?_⟩
  · intro mine j unit words file
    have htwr := fileInstruction (i := .twr f) (f := f) (o := fun v => Out.effect [.tileWrite f.d.byte (words 512 v)])
      rfl (fun _ => rfl) fun v hf => by subst hf; rfl
    have hacwr := fileInstruction (i := .acwr f) (f := f) (o := fun v => Out.effect [.accWrite f.d.byte (words 1024 v)])
      rfl (fun _ => rfl) fun v hf => by subst hf; rfl
    have htrd := fileInstruction (i := .trd f) (f := f) (o := file (0x400000 + 2048 * f.a.byte) 512)
      rfl (fun _ => rfl) fun v hf => by subst hf; rfl
    have hacrd := fileInstruction (i := .acrd f) (f := f) (o := file (0x480000 + 4096 * f.a.byte) 1024)
      rfl (fun _ => rfl) fun v hf => by subst hf; rfl
    have htscl := fileInstruction (i := .tscl f) (f := f) (o := fun v => Out.effect [.scaleWrite f.d.byte
        ((v.parts.filter fun l => decide ((v.rd64 f.b l).toNat + l < 32)).map fun l =>
          (2 * ((v.rd64 f.b l).toNat + l) + (f.m.getLsbD 2).toNat,
            BitVec.ofNat 8 ((v.rd32 f.a l).toNat / 2 ^ (8 * nbits f.m.toNat 1 0))))]) rfl (fun _ => rfl) fun v hf => by
      subst hf
      exact v.scales_eq
    refine ⟨htwr.1, hacwr.1, htrd.1, hacrd.1, htscl.1, ?_⟩
    simp only [List.forall_mem_cons]
    exact ⟨htwr.2, hacwr.2, htrd.2, hacrd.2, htscl.2, List.forall_mem_nil _⟩
  · intro pre home writes words
    have hwords : (words.map Prod.fst).Nodup := by simpa [words, Function.comp_def] using hws
    have hwordsLt : ∀ x ∈ words, x.2 < 2 ^ (8 * 4) := List.forall_mem_map.mpr fun w _ => w.2.isLt
    have hbytes : ((bs.map fun b => (b.1, b.2.toNat)).map Prod.fst).Nodup := by simpa [Function.comp_def] using hbs
    have hbytesLt : ∀ x ∈ bs.map fun b => (b.1, b.2.toNat), x.2 < 2 ^ (8 * 1) := List.forall_mem_map.mpr fun b _ => b.2.isLt
    refine ⟨commits_where State.performAct_tileWrite fun e s c hp => ?_, commits_where State.performAct_scaleWrite fun e s c hp => ?_,
      commits_where State.performAct_accWrite fun e s c hp => ?_⟩
    · rw [State.mapWords_eq]
      obtain ⟨hread, hkeep, honly⟩ := State.wrCells_leaves hp.1 hwords hwordsLt
      exact ⟨⟨hread, hkeep, honly.withCores _⟩, honly.cores⟩
    · obtain ⟨hread, hkeep, honly⟩ := State.wrCells_leaves hp.1 hbytes hbytesLt
      exact ⟨⟨hread, hkeep, honly.withCores _⟩, honly.cores⟩
    · rw [State.mapWords_eq]
      have hleaves := State.wrCells_leaves (base := home c + (0x480000 + 4096 * y)) hp.1 hwords hwordsLt
      change writes _ _ _ _ _ (let t := s.wrCells (home c + (0x480000 + 4096 * y)) 4 words; _) ∧ _
      generalize s.wrCells (home c + (0x480000 + 4096 * y)) 4 words = t at hleaves ⊢
      obtain ⟨hread, hkeep, honly⟩ := hleaves
      have hset (loc : Loc) := State.core_setCore (s := t) (by rw [honly.cores]; exact hp.2) c.loc loc
      by_cases hws : ws = []
      · simp only [hws, if_true]
        exact ⟨⟨hread, hkeep, honly.withCores _⟩, honly.core _, fun l _ => honly.core l⟩
      · simp only [hws, if_false, hset, honly.core]
        exact ⟨⟨hread, hkeep, honly.withCores _⟩, if_pos trivial, fun l hl => if_neg hl⟩

end Sys2Proof.Machine
end

section
/-! PROOFS. Residency regions (R162, R163). -/

namespace Sys2Proof.Machine

theorem State.performAct_resb {s : State} {c : Ctx} {e : Eff} {un : Bool} {off n : W64} (he : e.act = .resb un off n) (h : s.unheld c) :
    s.performAct c e = some (s.setCore c.loc { s.core c.loc with regions := (s.resb c un off n (s.core c.loc).regions).2 }) := by
  obtain ⟨hlog, hgated⟩ := h
  simp [State.performAct, he, hlog, hgated]

/-! The status of a binding and of an unbinding. -/

/-- Whether a region is one of a block's under a key. -/
def Region.ofBlock (key gang : Nat) (b : Block) (x : Region) : Bool := x.key == key && x.gang == gang && x.block == b.index

/-- Whether a region is the one that an offset and a size name. -/
def Region.at' (off n : W64) (x : Region) : Bool := x.off == off.toNat && x.size == n.toNat

/-- Whether a region can be bound (R162): in whole kilobytes, within the block's region, apart from the block's other regions. -/
def regionFits (key gang : Nat) (b : Block) (off n : W64) (rs : List Region) : Prop :=
  off.toNat % 1024 = 0 ∧ n.toNat % 1024 = 0 ∧ n.toNat ≠ 0 ∧ off.toNat + n.toNat ≤ b.size
    ∧ ∀ x ∈ rs.filter (Region.ofBlock key gang b), x.off + x.size ≤ off.toNat ∨ off.toNat + n.toNat ≤ x.off

section
variable {key gang : Nat} {b : Block} {off n : W64} {rs : List Region}

theorem resbRegions_noKey (un : Bool) : resbRegions 0 gang b un off n rs = (1, rs) := rfl

/-- The check that a binding makes is that its region does not fit. -/
theorem resbRegions_check : (off.toNat % 1024 != 0 || n.toNat % 1024 != 0 || n.toNat == 0 || decide (b.size < off.toNat + n.toNat)
    || (rs.filter (Region.ofBlock key gang b)).any fun r => decide (r.off < off.toNat + n.toNat) && decide (off.toNat < r.off + r.size))
      = true ↔ ¬ regionFits key gang b off n rs := by
  rw [← Bool.not_eq_false, not_iff_not]
  simp only [regionFits, Bool.or_eq_false_iff, bne_eq_false_iff_eq, beq_eq_false_iff_ne, decide_eq_false_iff_not, Nat.not_lt,
    List.any_eq_false, Bool.and_eq_true, decide_eq_true_eq, not_and_or, and_assoc]
  exact Iff.rfl.and (Iff.rfl.and (Iff.rfl.and (Iff.rfl.and (forall₂_congr fun x _ => by omega))))

section
variable (hk : key ≠ 0)
include hk

theorem resbRegions_bind_unfit (h : ¬ regionFits key gang b off n rs) : resbRegions key gang b false off n rs = (3, rs) := by
  unfold resbRegions
  rw [if_neg (by simpa using hk)]
  exact if_pos (resbRegions_check.mpr h)

theorem resbRegions_bind_fit (h : regionFits key gang b off n rs) : resbRegions key gang b false off n rs =
    if 4 ≤ (rs.filter fun r => r.key == key).length then (2, rs)
    else (0, rs ++ [{ launch := b.launch, key := key, off := off.toNat, size := n.toNat, gang := gang, block := b.index
                      base := b.base + off.toNat }]) := by
  unfold resbRegions
  rw [if_neg (by simpa using hk)]
  exact if_neg fun hc => resbRegions_check.mp hc h

theorem resbRegions_unbind : resbRegions key gang b true off n rs =
    match rs.find? fun x => x.ofBlock key gang b && x.at' off n with
    | some r => (0, rs.erase r)
    | none => (4, rs) := by
  have hfind : (rs.filter (Region.ofBlock key gang b)).find? (Region.at' off n)
      = rs.find? fun x => x.ofBlock key gang b && x.at' off n := by
    rw [List.find?_filter]
    simp only [Bool.decide_and, Bool.decide_eq_true]
  unfold resbRegions
  rw [if_neg (by simpa using hk), ← hfind]
  rfl

end

/-- The first region that a test admits, taken out. -/
theorem erase_find? {p : Region → Bool} {r : Region} (h : rs.find? p = some r) :
    ∃ before after, rs = before ++ r :: after ∧ rs.erase r = before ++ after ∧ p r = true ∧ ∀ y ∈ before, p y = false := by
  obtain ⟨hr, before, after, rfl, hb⟩ := List.find?_eq_some_iff_append.mp h
  have hne : r ∉ before := fun hmem => by simpa [hr] using hb r hmem
  refine ⟨before, after, rfl, ?_, hr, fun y hy => by simpa using hb y hy⟩
  rw [List.erase_append_right _ hne, List.erase_cons_head]

end

/-- A region that a key, a gang, a block, an offset and a size name. -/
theorem Region.named_iff {key gang : Nat} {b : Block} {off n : W64} {x : Region} : (x.ofBlock key gang b && x.at' off n) = true ↔
    (x.key = key ∧ x.gang = gang ∧ x.block = b.index) ∧ x.off = off.toNat ∧ x.size = n.toNat := by
  simp only [Region.ofBlock, Region.at', Bool.and_eq_true, beq_iff_eq, and_assoc]

/-- Settles O32: each status in its order, the first region that an unbinding names taken out. -/
theorem residencyBinding : Obligations.ResidencyBinding := by
  unfold Obligations.ResidencyBinding
  refine ⟨fun f => performs_of rfl (fun _ => rfl) fun v _ hf _ _ => ?_, fun un off n => commits_where State.performAct_resb
    fun e s c hs => ?_, fun s c b l g un off n rs hb hl hg => ?_, fun key gang b un off n rs => ?_⟩
  · subst hf
    rfl
  · have hset (loc : Loc) := State.core_setCore (s := s) hs c.loc loc
    exact ⟨(hset _ _).trans (if_pos rfl), fun l hl => (hset _ _).trans (if_neg hl), rfl⟩
  · simp [State.resb, hb, hl, hg]
  · intro r mine named fits four
    have hmine (x : Region) : mine x ↔ x ∈ rs.filter (Region.ofBlock key gang b) := by
      simp only [mine, Region.ofBlock, List.mem_filter, Bool.and_eq_true, beq_iff_eq, and_assoc]
    have hfits : fits ↔ regionFits key gang b off n rs := by
      simp only [fits, regionFits, hmine]
    have hnamed (x : Region) : named x ↔ x ∈ rs ∧ (x.ofBlock key gang b && x.at' off n) = true := by
      simp only [named, mine, Region.named_iff, and_assoc]
    by_cases hk : key = 0
    · subst hk
      exact ⟨⟨fun _ => rfl, fun _ => rfl⟩, fun _ => rfl, fun h => absurd rfl h, fun h => absurd rfl h⟩
    cases un with
    | false =>
      by_cases hf : regionFits key gang b off n rs
      · have hr : r = _ := resbRegions_bind_fit hk hf
        by_cases h4 : four
        · rw [if_pos h4] at hr
          simp [hr, hk, hfits, hf, h4]
        · rw [if_neg h4] at hr
          simp [hr, hk, hfits, hf, h4]
      · have hr : r = (3, rs) := resbRegions_bind_unfit hk hf
        simp [hr, hk, hfits, hf]
    | true =>
      have hr : r = _ := resbRegions_unbind hk
      cases h : rs.find? fun x => x.ofBlock key gang b && x.at' off n with
      | none =>
        have hno : ∀ x, ¬ named x := fun x hx => by
          obtain ⟨hmem, hx⟩ := (hnamed x).mp hx
          exact List.find?_eq_none.mp h x hmem hx
        rw [h] at hr
        simp [hr, hk, hno]
      | some x =>
        obtain ⟨before, after, hrs, herase, hx, hb⟩ := erase_find? h
        have hnx : named x := (hnamed x).mpr ⟨List.mem_of_find?_eq_some h, hx⟩
        rw [h] at hr
        have hr2 : r.2 = before ++ after := by rw [hr]; exact herase
        refine ⟨by simp [hr, hk], by simp [hr], fun _ h => absurd h (by decide), fun _ _ => ⟨?_, ?_, fun _ => ?_⟩⟩
        · simp only [hr, show (0 : Nat) ≠ 4 by decide, false_iff, not_forall, not_not]
          exact ⟨x, hnx⟩
        · simp only [hr, true_iff]
          exact ⟨x, hnx⟩
        · exact ⟨before, x, after, hrs, hr2, hnx, fun y hy hn => by simpa [hb y hy] using ((hnamed y).mp hn).2⟩

end Sys2Proof.Machine
end

section
/-! PROOFS. Walks of the page tables, the TLBs, RESUME and the side logs (R148 to R157). -/

namespace Sys2Proof.Machine

/-! Events of the page tables that name a die. -/

theorem onDie_of_le {die : Nat} (h : die ≤ 1) (r : Option State) : onDie die r = r := if_pos h

section
variable {die vpn : Nat} (hdie : die ≤ 1)
include hdie

theorem exec_invalPage (s : State) :
    exec (.invalPage die vpn) s = event s (some (s.byFirmware die 0x100008 (s.invalPage die vpn))) :=
  congrArg (event s) (onDie_of_le hdie _)

theorem exec_invalAll (s : State) : exec (.invalAll die) s = event s (some (s.byFirmware die 0x100008 (s.invalAll die))) :=
  congrArg (event s) (onDie_of_le hdie _)

theorem exec_resume (s : State) :
    exec (.resume die vpn) s = event s (some (s.byFirmware die 0x100010 (s.resumePage die vpn))) :=
  congrArg (event s) (onDie_of_le hdie _)

theorem exec_resumeReject (s : State) :
    exec (.resumeReject die vpn) s = event s (some (s.byFirmware die 0x100010 (s.rejectPage die vpn))) :=
  congrArg (event s) (onDie_of_le hdie _)

theorem exec_noticeRepost (s : State) : exec (.noticeRepost die) s = event s (s.repost die) := congrArg (event s) (onDie_of_le hdie _)

end

/-! RESUME where nothing is held on the page. -/

/-- What answering a page's notices leaves: registers and dies apart, everything as it was. -/
theorem State.answerPage_eq (s : State) (die vpn : Nat) (reject : Bool) : s.answerPage die vpn reject =
    { s with regs := (s.answerPage die vpn reject).regs, dies := (s.answerPage die vpn reject).dies } := by
  unfold State.answerPage
  extract_lets s1
  refine List.foldlRecOn [0, 1] _ (motive := fun t : State => t = { s with regs := t.regs, dies := t.dies }) rfl fun t ht d _ => ?_
  simp only
  split
  · exact ht
  · rw [ht]
    rfl

/-- Nothing of a state is held on a page (R155). -/
structure State.NoneHeld (s : State) (vpn : Nat) : Prop where
  ops : ∀ o ∈ s.ops, o.waitsFor vpn = false
  monitors : s.heldMonitors vpn = []
  lates : ∀ l ∈ s.lates, l.holdPage ≠ some vpn
  fetches : ∀ c ∈ s.ctxs, ∀ x ∈ c.lanes, ∀ h, x.fetchHold = some h → h.2 ≠ vpn

theorem State.NoneHeld.freeFetches {s : State} {vpn : Nat} (h : s.NoneHeld vpn) : s.freeFetches vpn = s := by
  have hlane : ∀ c ∈ s.ctxs, ∀ x ∈ c.lanes, (x.fetchHold.any fun h => h.2 == vpn) = false := fun c hc x hx => by
    cases hf : x.fetchHold with
    | none => rfl
    | some y => simpa using h.fetches c hc x hx y hf
  have hmap : ∀ c ∈ s.ctxs, (if (c.lanes.any fun x => x.fetchHold.any fun h => h.2 == vpn) = true then
      { c with lanes := c.lanes.map fun x => if (x.fetchHold.any fun h => h.2 == vpn) = true then { x with fetchHold := none } else x }
      else c) = c := fun c hc => if_neg (by simpa using hlane c hc)
  exact congrArg (fun cs => ({ s with ctxs := cs } : State)) (List.map_congr_left hmap |>.trans (List.map_id' s.ctxs))

theorem State.NoneHeld.resumePage {s : State} {vpn : Nat} (die : Nat) (h : s.NoneHeld vpn) :
    s.resumePage die vpn = s.answerPage die vpn false := by
  have hu : (s.answerPage die vpn false).NoneHeld vpn := by
    rw [State.answerPage_eq]
    exact ⟨h.ops, h.monitors, h.lates, h.fetches⟩
  unfold State.resumePage
  generalize s.answerPage die vpn false = u at hu
  have hlates : u.lates.map (fun l => if (l.holdPage == some vpn) = true then { l with holdPage := none } else l) = u.lates :=
    (List.map_congr_left fun l hl => if_neg (by simpa using hu.lates l hl)).trans (List.map_id' u.lates)
  simp only [hu.freeFetches, List.filter_eq_nil_iff.mpr fun o ho => by simpa using hu.ops o ho, List.foldl_nil, hu.monitors, hlates]

/-! The first entry of a side log. -/

/-- A first entry that nothing holds back, whose pages are cached, is performed (R156). -/
theorem State.replay_first {s : State} {c : Ctx} {l : Loc} {e : LogEntry} {rest : List (Loc × LogEntry)} (hc : s.ctx? c.id = some c)
    (hlog : s.logOf c = (l, e) :: rest) (hpre : c.preempted = false) (hacc : s.holdsAccess c = false)
    (hgate : s.gatedBefore c.id e.seq = false) (hpost : ∀ v ∈ e.act.pages, (v, 2) ∉ (s.die c.loc.die).posted)
    (hhit : ∀ a ∈ e.act.addresses, (s.tlbHit c.loc.die (s.logWho l e).units a).isSome = true) :
    s.replay c.id = some ((s.dropLog l e).replayEntry l e).sweep := by
  have hgone (absent : Nat → Bool) :
      e.act.addresses.filter (fun a => (s.tlbHit c.loc.die (s.logWho l e).units a).isNone && absent a) = [] :=
    List.filter_eq_nil_iff.mpr fun a ha => by simp [Option.isNone_eq_false_iff.mpr (hhit a ha)]
  have hposted : (e.act.pages.any fun v => (s.die c.loc.die).posted.contains (v, 2)) = false :=
    List.any_eq_false.mpr fun v hv => by simpa using hpost v hv
  simp only [State.replay, hc, hlog, hgone, hpre, hacc, hgate, hposted]
  rfl

/-! A page that no TLB holds. -/

/-- A leaf of one TLB found after a leaf was added to another. -/
theorem find?_tlbAdd_of_ne {ts : List TlbLeaf} {t : TlbLeaf} {u va : Nat} (h : t.unit ≠ u) :
    (tlbAdd ts t).find? (fun x => x.unit == u && x.maps va) = ts.find? fun x => x.unit == u && x.maps va := by
  have hskip : (t.unit == u && t.maps va) = false := by simp [h]
  unfold tlbAdd
  rw [List.find?_cons, hskip]
  simp only
  split
  · rfl
  · have hlast (x : TlbLeaf) (hx : x.unit = u) : some x ≠ (ts.filter fun x => x.unit == t.unit).getLast? := fun he => by
      have hmem := (List.mem_filter.mp (List.mem_of_getLast? he.symm)).2
      exact h ((beq_iff_eq.mp hmem).symm.trans hx)
    generalize (ts.filter fun x => x.unit == t.unit).getLast? = last at hlast ⊢
    rw [List.find?_filter]
    congr 1
    funext x
    by_cases hx : x.unit = u
    · simp [hx, hlast x hx]
    · simp [hx]

/-- A leaf that maps an address is found where it was added. -/
theorem find?_tlbAdd_self {ts : List TlbLeaf} {t : TlbLeaf} {va : Nat} (h : t.maps va = true) :
    (tlbAdd ts t).find? (fun x => x.unit == t.unit && x.maps va) = some t := by
  simp [tlbAdd, h]

/-- It stays found when the same leaf is added to other TLBs. -/
theorem find?_tlbFill {us : List Nat} {u va : Nat} (leaf : Nat → TlbLeaf) (hunit : ∀ i, (leaf i).unit = i) (hu : u ∉ us) (ts : List TlbLeaf) :
    (us.foldl (fun ts i => tlbAdd ts (leaf i)) ts).find? (fun x => x.unit == u && x.maps va) = ts.find? fun x => x.unit == u && x.maps va := by
  induction us generalizing ts with
  | nil => rfl
  | cons i us ih =>
    obtain ⟨hi, hus⟩ : u ≠ i ∧ u ∉ us := by simpa using hu
    rw [List.foldl_cons, ih hus, find?_tlbAdd_of_ne (by rw [hunit]; exact Ne.symm hi)]

/-- The TLBs of an issuer are different ones. -/
theorem Who.units_eq_cons (w : Who) : ∃ u us, w.units = u :: us ∧ u ∉ us := by
  unfold Who.units tlbUnits
  split
  · exact ⟨_, _, rfl, by simp⟩
  split
  · rename_i h
    simp only [Bool.and_eq_true, bne_iff_ne] at h
    exact ⟨_, _, rfl, by simpa using h.2⟩
  · exact ⟨_, _, rfl, by simp⟩

/-- The leaves of a die after a walk's leaf was added. -/
theorem State.tlbFill_die {s : State} (h : Table.wf Die.reset s.dies = true) (die : Nat) (units : List Nat) (va ea : Nat) (e : W64)
    (large : Bool) : ((s.tlbFill die units va ea e large).die die).tlb = units.foldl (fun ts u => tlbAdd ts
      { unit := u, page := if large then va / 2 ^ 26 else va / 2 ^ 16, entryAddr := ea, entry := e, large := large }) (s.die die).tlb := by
  rw [State.tlbFill, State.die, State.setDie, Table.get_set h, if_pos rfl]

/-- A walk's leaf is found where it was added (R149). -/
theorem State.tlbHit_tlbFill {s : State} (h : Table.wf Die.reset s.dies = true) (w : Who) (va ea : Nat) (e : W64) (large : Bool) :
    (s.tlbFill w.die w.units va ea e large).tlbHit w.die w.units va = some (.leaf ea e large) := by
  let leaf (u : Nat) : TlbLeaf :=
    { unit := u, page := if large then va / 2 ^ 26 else va / 2 ^ 16, entryAddr := ea, entry := e, large := large }
  have hmaps (u : Nat) : (leaf u).maps va = true := by simp [leaf, TlbLeaf.maps]
  obtain ⟨u, us, hw, hu⟩ := w.units_eq_cons
  rw [State.tlbHit, State.tlbFill_die h, hw, List.findSome?_cons, List.foldl_cons, find?_tlbFill leaf (fun _ => rfl) hu,
    find?_tlbAdd_self (t := leaf u) (hmaps u)]
  rfl

/-- Filling a TLB changes the dies alone. -/
theorem State.tlbFill_eq {s : State} (h : Table.wf Die.reset s.dies = true) (die : Nat) (units : List Nat) (va ea : Nat) (e : W64)
    (large : Bool) : s.tlbFill die units va ea e large =
      s.setDie die { s.die die with tlb := ((s.tlbFill die units va ea e large).die die).tlb } := by
  rw [State.tlbFill_die h]
  rfl

/-! The walk. -/

/-- A table entry of the next level. -/
def isTable (e : W64) : Prop := e.getLsbD 0 = true ∧ e.getLsbD 1 = false

/-- A leaf, of a page or of a large one. -/
def isLeaf (e : W64) : Prop := e.getLsbD 0 = true ∧ e.getLsbD 1 = true

/-- Where the entry of an address stands in a table of a level. -/
def entryAt (table va k : Nat) : Nat := table + 8 * nbits va (25 + 10 * k) (16 + 10 * k)

/-- The entry of an address in a table of a level. -/
def State.entry (s : State) (table va k : Nat) : W64 := BitVec.ofNat 64 (s.readN (entryAt table va k) 8)

section
variable {s : State} (hg : s.badGranules = []) (hw : s.badWords = []) {table va k : Nat}
include hg hw

theorem State.walkFrom_succ : s.walkFrom table va (k + 1) =
    if (s.entry table va k).getLsbD 0 = false then .absent
    else if (s.entry table va k).getLsbD 1 = true then
      if k = 0 then .leaf (entryAt table va k) (s.entry table va k) false
      else if k = 1 then
        (if bits (s.entry table va k) 25 16 = 0 then .leaf (entryAt table va k) (s.entry table va k) true else .bad (some (s.entry table va k)))
      else .bad none
    else if k = 0 then .bad none
    else s.walkFrom (bits (s.entry table va k) 51 13 * 8192) va k := by
  have hbad : s.badRead (table + 8 * nbits va (25 + 10 * k) (16 + 10 * k)) 8 = false := by simp [State.badRead, hg, hw]
  unfold State.entry entryAt
  rw [State.walkFrom, if_neg (by rw [hbad]; decide)]
  generalize BitVec.ofNat 64 (s.readN (table + 8 * nbits va (25 + 10 * k) (16 + 10 * k)) 8) = e
  cases h0 : e.getLsbD 0 <;> cases h1 : e.getLsbD 1 <;> simp [-BitVec.getLsbD_eq_getElem, h0, h1]

theorem State.walkFrom_absent (h : (s.entry table va k).getLsbD 0 = false) : s.walkFrom table va (k + 1) = .absent := by
  rw [State.walkFrom_succ hg hw, if_pos h]

theorem State.walkFrom_table (h : isTable (s.entry table va k)) : s.walkFrom table va (k + 1) =
    if k = 0 then .bad none else s.walkFrom (bits (s.entry table va k) 51 13 * 8192) va k := by
  rw [State.walkFrom_succ hg hw, if_neg (by rw [h.1]; decide), if_neg (by rw [h.2]; decide)]

theorem State.walkFrom_leaf (h : isLeaf (s.entry table va k)) : s.walkFrom table va (k + 1) =
    if k = 0 then .leaf (entryAt table va k) (s.entry table va k) false
    else if k = 1 then
      (if bits (s.entry table va k) 25 16 = 0 then .leaf (entryAt table va k) (s.entry table va k) true else .bad (some (s.entry table va k)))
    else .bad none := by
  rw [State.walkFrom_succ hg hw, if_neg (by rw [h.1]; decide), if_pos h.2]

end

/-! What a walk leaves. -/

/-- A field of two bits that is less than 3 holds one more. -/
theorem add_heat_lt {x lo : Nat} (hlo : lo = 8 ∨ lo = 10) (hx : x < 2 ^ 64) (h : nbits x (lo + 1) lo ≠ 3) : x + 2 ^ lo < 2 ^ 64 := by
  rcases hlo with rfl | rfl
  all_goals
    rw [nbits, Nat.shiftRight_eq_div_pow] at h
    norm_num at h hx ⊢
    omega

section
variable {s : State} {ea : Nat} {t : AccessType}

theorem AccessType.heatBit (t : AccessType) : (if t.writes = true then 10 else 8) = 8 ∨ (if t.writes = true then 10 else 8) = 10 := by
  split <;> simp

/-- Raising a leaf's heat changes memory alone. -/
theorem State.heat_eq (s : State) (ea : Nat) (t : AccessType) : s.heat ea t = { s with mem := (s.heat ea t).mem } := by
  simp only [State.heat]
  generalize (if t.writes = true then 10 else 8) = lo
  split
  · rfl
  · exact s.putBytes_eq ..

/-- What it writes is the entry, where a field of two bits of it is less than 3 (R150). -/
theorem State.heat_readN (h : Memory.wf s.mem = true) : (s.heat ea t).readN ea 8 =
    (let lo := if t.writes = true then 10 else 8
     if nbits (s.readN ea 8) (lo + 1) lo = 3 then s.readN ea 8 else s.readN ea 8 + 2 ^ lo) := by
  have hlo := t.heatBit
  simp only [State.heat, beq_iff_eq]
  generalize (if t.writes = true then 10 else 8) = lo at hlo ⊢
  split
  · rfl
  · rename_i h3
    have hlt := add_heat_lt hlo (s.readN_lt ea 8) h3
    generalize s.readN ea 8 + 2 ^ lo = x at hlt ⊢
    calc (s.putBytes ea (leBytes 8 x)).readN ea 8 = (s.wrN ea 8 x).readN ea 8 :=
          State.readN_congr fun i _ => by rw [State.readByte, State.readByte, State.wrN, State.wr_mem]
      _ = x := by rw [State.readN_wrN h, Nat.mod_eq_of_lt hlt]

theorem State.heat_readByte (h : Memory.wf s.mem = true) {q : Nat} (hq : q < ea ∨ ea + 8 ≤ q) :
    (s.heat ea t).readByte q = s.readByte q := by
  simp only [State.heat]
  generalize (if t.writes = true then 10 else 8) = lo
  split
  · rfl
  · have hout := State.readByte_wr_outside h (bs := leBytes 8 (s.readN ea 8 + 2 ^ lo)) (by rwa [leBytes_length])
    rwa [State.readByte, State.wr_mem] at hout

end

section
variable {s : State} {w : Who} {va size : Nat} {t : AccessType} (hon : (s.reg w.die 0x100000).getLsbD 0 = true)
  (hmiss : s.tlbHit w.die w.units va = none)
include hon hmiss

theorem State.translate_absent (h : s.walk w.die va = .absent) : s.translate w va size t = (s, .absent) := by
  simp [-BitVec.getLsbD_eq_getElem, State.translate, State.translateRaw, hon, hmiss, h]

theorem State.translate_bad {x : Option W64} (h : s.walk w.die va = .bad x) : s.translate w va size t = (s, .violation) := by
  simp [-BitVec.getLsbD_eq_getElem, State.translate, State.translateRaw, hon, hmiss, h]

variable {ea : Nat} {e : W64} {large : Bool} (h : s.walk w.die va = .leaf ea e large)
include h

theorem State.translate_walked_denied (he : leafPermits e t = false) : s.translate w va size t = (s, .violation) := by
  simp [-BitVec.getLsbD_eq_getElem, State.translate, State.translateRaw, hon, hmiss, h, he]

/-- A leaf that admits the access is counted in its heat and cached (R149, R150). -/
theorem State.translate_walked (he : leafPermits e t = true) {st : Nat} (hp : s.place (leafPa e large va) = .hbm st)
    (h0 : (s.reg 0 0x19FFF8).getLsbD 0 = false) (h1 : (s.reg 1 0x19FFF8).getLsbD 0 = false) (hm : e.getLsbD 12 = false) :
    s.translate w va size t = ((s.heat ea t).tlbFill w.die w.units va ea e large, .ok (leafPa e large va)) := by
  have hregs : ((s.heat ea t).tlbFill w.die w.units va ea e large).regs = s.regs := by
    rw [State.heat_eq]
    rfl
  have hcaps : ((s.heat ea t).tlbFill w.die w.units va ea e large).caps = s.caps := by
    rw [State.heat_eq]
    rfl
  have hpu : ((s.heat ea t).tlbFill w.die w.units va ea e large).place (leafPa e large va) = .hbm st := by
    rw [← hp]
    unfold State.place State.cap
    rw [hcaps]
  have hreg (d : Nat) (hd : (s.reg d 0x19FFF8).getLsbD 0 = false) :
      (((s.heat ea t).tlbFill w.die w.units va ea e large).reg d 0x19FFF8).getLsbD 0 = false := by
    rwa [State.reg, hregs]
  have hperm := State.tablesPermit_hbm hpu (hreg 0 h0) (hreg 1 h1) w size t.fetches t.writes
  simp [-BitVec.getLsbD_eq_getElem, State.translate, State.translateRaw, hon, hmiss, h, he, hp, hperm,
    State.countMigration_none hm, State.performedAt_hbm hpu]

end

/-- What a walk that found a leaf leaves, as the rights of the leaf say. -/
structure State.Walked (s : State) (w : Who) (va size : Nat) (t : AccessType) (ea : Nat) (e : W64) (large : Bool) (u : State) : Prop where
  result : s.translate w va size t = (u, .ok (leafPa e large va))
  heat : u.readN ea 8 = (let lo := if t.writes = true then 10 else 8
    if nbits e.toNat (lo + 1) lo = 3 then e.toNat else e.toNat + 2 ^ lo)
  memory : ∀ q, q < ea ∨ ea + 8 ≤ q → u.readByte q = s.readByte q
  cached : u.tlbHit w.die w.units va = some (.leaf ea e large)
  frame : u = { s.setDie w.die { s.die w.die with tlb := (u.die w.die).tlb } with mem := u.mem }

theorem State.walked {s : State} {w : Who} {va size : Nat} {t : AccessType} {ea : Nat} {e : W64} {large : Bool}
    (hdies : Table.wf Die.reset s.dies = true) (hmem : Memory.wf s.mem = true) (he : e = BitVec.ofNat 64 (s.readN ea 8))
    (ht : s.translate w va size t = ((s.heat ea t).tlbFill w.die w.units va ea e large, .ok (leafPa e large va))) :
    s.Walked w va size t ea e large ((s.heat ea t).tlbFill w.die w.units va ea e large) := by
  have hdies' : Table.wf Die.reset (s.heat ea t).dies = true := by rw [State.heat_eq]; exact hdies
  have hval : e.toNat = s.readN ea 8 := by rw [he, BitVec.toNat_ofNat, Nat.mod_eq_of_lt (s.readN_lt ea 8)]
  refine ⟨ht, ?_, fun q hq => ?_, State.tlbHit_tlbFill hdies' .., ?_⟩
  · rw [hval, ← State.heat_readN hmem]
    exact State.readN_congr fun _ _ => rfl
  · exact State.heat_readByte hmem hq
  · conv_lhs => rw [State.tlbFill_eq hdies']
    generalize (((s.heat ea t).tlbFill w.die w.units va ea e large).die w.die).tlb = tlb
    have hm : ((s.heat ea t).tlbFill w.die w.units va ea e large).mem = (s.heat ea t).mem := rfl
    rw [hm, State.heat_eq]
    rfl

/-! The four levels. -/

theorem State.walk_eq (s : State) (die va : Nat) : s.walk die va = s.walkFrom (bits (s.reg die 0x100000) 51 13 * 8192) va 4 := rfl

/-- What the walk of four levels finds, by the entries it reads (R149): `e k` is the entry of level `k`, read in the table that entry
`k + 1` points to. -/
structure State.Entries (s : State) (die va : Nat) (e1 e2 e3 e4 : W64) : Prop where
  first : e1 = s.entry (bits (s.reg die 0x100000) 51 13 * 8192) va 3
  second : e2 = s.entry (bits e1 51 13 * 8192) va 2
  third : e3 = s.entry (bits e2 51 13 * 8192) va 1
  fourth : e4 = s.entry (bits e3 51 13 * 8192) va 0

section
variable {s : State} {die va : Nat} {e1 e2 e3 e4 : W64} (hg : s.badGranules = []) (hw : s.badWords = [])
  (h : s.Entries die va e1 e2 e3 e4)
include hg hw h

theorem State.Entries.walk_leaf (h1 : isTable e1) (h2 : isTable e2) (h3 : isTable e3) (h4 : isLeaf e4) :
    s.walk die va = .leaf (entryAt (bits e3 51 13 * 8192) va 0) e4 false := by
  obtain ⟨rfl, rfl, rfl, rfl⟩ := h
  rw [State.walk_eq, State.walkFrom_table hg hw h1, if_neg (by decide), State.walkFrom_table hg hw h2, if_neg (by decide),
    State.walkFrom_table hg hw h3, if_neg (by decide), State.walkFrom_leaf hg hw h4, if_pos rfl]

theorem State.Entries.walk_large (h1 : isTable e1) (h2 : isTable e2) (h3 : isLeaf e3) : s.walk die va =
    if bits e3 25 16 = 0 then .leaf (entryAt (bits e2 51 13 * 8192) va 1) e3 true else .bad (some e3) := by
  obtain ⟨rfl, rfl, rfl, -⟩ := h
  rw [State.walk_eq, State.walkFrom_table hg hw h1, if_neg (by decide), State.walkFrom_table hg hw h2, if_neg (by decide),
    State.walkFrom_leaf hg hw h3, if_neg (by decide), if_pos rfl]

theorem State.Entries.walk_absent (ha : e1.getLsbD 0 = false ∨ isTable e1 ∧ (e2.getLsbD 0 = false ∨ isTable e2 ∧
    (e3.getLsbD 0 = false ∨ isTable e3 ∧ e4.getLsbD 0 = false))) : s.walk die va = .absent := by
  obtain ⟨rfl, rfl, rfl, rfl⟩ := h
  rw [State.walk_eq]
  rcases ha with h1 | ⟨h1, ha⟩
  · exact State.walkFrom_absent hg hw h1
  rw [State.walkFrom_table hg hw h1, if_neg (by decide)]
  rcases ha with h2 | ⟨h2, ha⟩
  · exact State.walkFrom_absent hg hw h2
  rw [State.walkFrom_table hg hw h2, if_neg (by decide)]
  rcases ha with h3 | ⟨h3, h4⟩
  · exact State.walkFrom_absent hg hw h3
  rw [State.walkFrom_table hg hw h3, if_neg (by decide)]
  exact State.walkFrom_absent hg hw h4

/-- A leaf where only a table may stand, a table where only a leaf may, and a large page's leaf with address bits below it are not
allowed (R148). -/
theorem State.Entries.walk_bad (hb : isLeaf e1 ∨ isTable e1 ∧ (isLeaf e2 ∨ isTable e2 ∧
    (isLeaf e3 ∧ bits e3 25 16 ≠ 0 ∨ isTable e3 ∧ isTable e4))) : ∃ x, s.walk die va = .bad x := by
  rcases hb with h1 | ⟨h1, h2 | ⟨h2, ⟨h3, hbits⟩ | ⟨h3, h4⟩⟩⟩
  · obtain ⟨rfl, -⟩ := h
    exact ⟨_, by rw [State.walk_eq, State.walkFrom_leaf hg hw h1, if_neg (by decide), if_neg (by decide)]⟩
  · obtain ⟨rfl, rfl, -⟩ := h
    exact ⟨_, by rw [State.walk_eq, State.walkFrom_table hg hw h1, if_neg (by decide), State.walkFrom_leaf hg hw h2,
      if_neg (by decide), if_neg (by decide)]⟩
  · exact ⟨_, by rw [h.walk_large hg hw h1 h2 h3, if_neg hbits]⟩
  · obtain ⟨rfl, rfl, rfl, rfl⟩ := h
    exact ⟨_, by rw [State.walk_eq, State.walkFrom_table hg hw h1, if_neg (by decide), State.walkFrom_table hg hw h2,
      if_neg (by decide), State.walkFrom_table hg hw h3, if_neg (by decide), State.walkFrom_table hg hw h4, if_pos rfl]⟩

end

/-- What a leaf that a walk found does with the access, by its rights (R148 to R150). -/
theorem State.leaf_ends {s : State} {w : Who} {va size : Nat} {t : AccessType} {ea : Nat} {e : W64} {large : Bool}
    (hon : (s.reg w.die 0x100000).getLsbD 0 = true) (hmiss : s.tlbHit w.die w.units va = none)
    (hdies : Table.wf Die.reset s.dies = true) (hmem : Memory.wf s.mem = true) (he : e = BitVec.ofNat 64 (s.readN ea 8))
    (hwalk : s.walk w.die va = .leaf ea e large) :
    let may := (t.reads = true → e.getLsbD 2 = true) ∧ (t.writes = true → e.getLsbD 3 = true) ∧ (t = .fetch → e.getLsbD 4 = true)
    (¬ may → s.translate w va size t = (s, .violation))
    ∧ (may → (∃ st, s.place (leafPa e large va) = .hbm st) → (s.reg 0 0x19FFF8).getLsbD 0 = false →
        (s.reg 1 0x19FFF8).getLsbD 0 = false → e.getLsbD 12 = false → ∃ u : State, s.Walked w va size t ea e large u) := by
  refine ⟨fun hno => ?_, fun hmay ⟨st, hp⟩ h0 h1 hm => ⟨_, State.walked hdies hmem he ?_⟩⟩
  · exact State.translate_walked_denied hon hmiss hwalk (Bool.eq_false_iff.mpr (mt (leafPermits_iff e t).mp hno))
  · exact State.translate_walked hon hmiss hwalk ((leafPermits_iff e t).mpr hmay) hp h0 h1 hm

/-- Settles O54: firmware's writes by what their events give, the walks by the entries they read. -/
theorem pageEvents : Obligations.PageEvents := by
  unfold Obligations.PageEvents
  refine ⟨fun die vpn hdie => ⟨?_, ?_, ?_, ?_, ?_, fun n rest => ?_⟩, fun c l e rest => ?_, ?_⟩
  · exact firmware_of_event (exec_invalPage hdie) fun _ _ => rfl
  · exact firmware_of_event (exec_invalAll hdie) fun _ _ => rfl
  · exact firmware_of_event (exec_resume hdie) fun _ _ => rfl
  · exact firmware_of_event (exec_resume hdie) fun s ⟨ho, hm, hl, hf⟩ => State.NoneHeld.resumePage die ⟨ho, hm, hl, hf⟩
  · exact firmware_of_event (exec_resumeReject hdie) fun _ _ => rfl
  · exact happens_of_event (exec_noticeRepost hdie) fun s ⟨hn, hroom⟩ => by simp [State.repost, hn, hroom]
  · exact happens_of_event (r := fun s => s.replay c.id) (fun _ => rfl) fun s ⟨hc, hlog, hpre, hacc, hgate, hpost, hhit⟩ =>
      State.replay_first hc hlog hpre hacc hgate hpost hhit
  · intro s w va size t _ hon hmiss hg hw hdies hmem at' entry e1 e2 e3 e4 table leaf ends
    have hents : s.Entries w.die va e1 e2 e3 e4 := ⟨rfl, rfl, rfl, rfl⟩
    have hends {ea : Nat} {e : W64} {large : Bool} (he : e = BitVec.ofNat 64 (s.readN ea 8))
        (hwalk : s.walk w.die va = .leaf ea e large) : ends ea e large := by
      obtain ⟨hno, hmay⟩ := State.leaf_ends (size := size) (t := t) hon hmiss hdies hmem he hwalk
      refine ⟨hno, fun h hp h0 h1 hm => ?_⟩
      obtain ⟨u, hu⟩ := hmay h hp h0 h1 hm
      exact ⟨u, hu.result, hu.heat, hu.memory, hu.cached, hu.frame⟩
    refine ⟨fun h1 h2 h3 h4 => ?_, fun h1 h2 h3 hbits => ?_, fun ha => ?_, fun hb => ?_⟩
    · exact hends rfl (hents.walk_leaf hg hw h1 h2 h3 h4)
    · exact hends rfl ((hents.walk_large hg hw h1 h2 h3).trans (if_pos hbits))
    · exact State.translate_absent hon hmiss (hents.walk_absent hg hw ha)
    · obtain ⟨x, hx⟩ := hents.walk_bad hg hw hb
      exact State.translate_bad hon hmiss hx

end Sys2Proof.Machine
end

section
/-! PROOFS. Debug and device events. -/

namespace Sys2Proof.Machine

/-! Registers that firmware writes. -/

/-- A register after another was written. -/
theorem State.reg_setReg_of_ne (s : State) {die off d o : Nat} (h : d * 2 ^ 24 + o ≠ die * 2 ^ 24 + off) (v : W64) :
    (s.setReg die off v).reg d o = s.reg d o := Table.get_set_of_ne h ..

/-- What a die's tables admit at its registers depends on the registers that hold target 37's entries and the control. -/
theorem State.mgmtAdmits_congr {s u : State} {die : Nat} (h : ∀ o, 0x180000 ≤ o → o < 0x200000 → u.reg die o = s.reg die o)
    (master off : Nat) (rd wr : Bool) : u.mgmtAdmits master die off rd wr = s.mgmtAdmits master die off rd wr := by
  have hentry (e : Nat) (he : e ∈ List.range 64) (w : Who) (pa : Nat) :
      u.entryPermits die 37 e w pa 1 rd wr = s.entryPermits die 37 e w pa 1 rd wr := by
    have he := List.mem_range.mp he
    simp only [State.entryPermits]
    rw [h _ (by omega) (by omega), h _ (by omega) (by omega), h _ (by omega) (by omega), h _ (by omega) (by omega)]
  rw [State.mgmtAdmits, State.mgmtAdmits, State.tablePermits, State.tablePermits, h _ (by decide) (by decide),
    Bool.eq_iff_iff]
  simp only [Bool.or_eq_true, List.any_eq_true]
  exact or_congr Iff.rfl (exists_congr fun e => and_congr_right fun he => by rw [hentry e he])

/-- Above the access tables' registers no register says what firmware may do. -/
theorem State.firmwareMay_setReg (s : State) {off : Nat} (h : 0x200000 ≤ off) (v : W64) (o : Nat) (wr : Bool) :
    (s.setReg 0 off v).firmwareMay 0 o wr = s.firmwareMay 0 o wr := by
  have hreg (q : Nat) (_ : 0x180000 ≤ q) (hq : q < 0x200000) : (s.setReg 0 off v).reg 0 q = s.reg 0 q :=
    s.reg_setReg_of_ne (by omega) v
  simp only [State.firmwareMay, State.mgmtAdmits_congr hreg]

theorem State.firmwareWrite_admitted {s : State} {die off : Nat} (h : s.firmwareMay die off true = true) (v : W64) :
    s.firmwareWrite die off v = s.mgmtWrite die off v := if_pos h

theorem State.firmwareWrite_denied {s : State} {die off : Nat} (h : s.firmwareMay die off true = false) (v : W64) :
    s.firmwareWrite die off v = s := if_neg (by rw [h]; decide)

/-! Debug operations (R369, R370). -/

theorem State.mgmtWrite_dbgop (s : State) (v : W64) : s.mgmtWrite 0 0x200080 v = s.setReg 0 0x200080 (v &&& 0xF7FFFF83) := rfl
theorem State.mgmtWrite_dbgmask (s : State) (v : W64) : s.mgmtWrite 0 0x200088 v = s.setReg 0 0x200088 v := rfl
theorem State.mgmtWrite_dbgbuf (s : State) (v : W64) : s.mgmtWrite 0 0x200090 v = s.setReg 0 0x200090 (v &&& 0xFFFFFFFFFFFC0) := rfl
theorem State.mgmtWrite_dbgarg (s : State) (v : W64) : s.mgmtWrite 0 0x200098 v = s.setReg 0 0x200098 v := rfl
theorem State.mgmtWrite_dbggo (s : State) : s.mgmtWrite 0 0x2000A0 1 = s.debugGo := rfl

section
variable {s : State} {k : Nat} {dop mask buf arg : W64}

theorem State.debugOp_admitted (hk : bits dop 31 28 = k)
    (h : ∀ off ∈ [0x200080, 0x200088, 0x200090, 0x200098, 0x2000A0], s.firmwareMay 0 off true = true) :
    s.debugOp k dop mask buf arg = some ((((s.setReg 0 0x200080 (dop &&& 0xF7FFFF83)).setReg 0 0x200088 mask).setReg 0 0x200090
      (buf &&& 0xFFFFFFFFFFFC0)).setReg 0 0x200098 arg).debugGo := by
  simp only [List.forall_mem_cons] at h
  obtain ⟨h80, h88, h90, h98, hA0, -⟩ := h
  have hset {off : Nat} (ho : 0x200000 ≤ off) (u : State) (v : W64) {o : Nat} (hu : u.firmwareMay 0 o true = true) :
      (u.setReg 0 off v).firmwareMay 0 o true = true := (u.firmwareMay_setReg ho v o true).trans hu
  rw [State.debugOp, if_neg (by simpa using hk), State.firmwareWrite_admitted h80, State.mgmtWrite_dbgop]
  have hop {o : Nat} := hset (off := 0x200080) (by decide) s (dop &&& 0xF7FFFF83) (o := o)
  rw [State.firmwareWrite_admitted (hop h88), State.mgmtWrite_dbgmask]
  have hmask {o : Nat} := hset (off := 0x200088) (by decide) (s.setReg 0 0x200080 (dop &&& 0xF7FFFF83)) mask (o := o)
  rw [State.firmwareWrite_admitted (hmask (hop h90)), State.mgmtWrite_dbgbuf]
  have hbuf {o : Nat} := hset (off := 0x200090) (by decide) ((s.setReg 0 0x200080 (dop &&& 0xF7FFFF83)).setReg 0 0x200088 mask)
    (buf &&& 0xFFFFFFFFFFFC0) (o := o)
  rw [State.firmwareWrite_admitted (hbuf (hmask (hop h98))), State.mgmtWrite_dbgarg,
    State.firmwareWrite_admitted (hset (by decide) _ arg (hbuf (hmask (hop hA0)))), State.mgmtWrite_dbggo]

theorem State.debugOp_denied (hk : bits dop 31 28 = k)
    (h : ∀ off ∈ [0x200080, 0x200088, 0x200090, 0x200098, 0x2000A0], s.firmwareMay 0 off true = false) :
    s.debugOp k dop mask buf arg = some s := by
  simp only [List.forall_mem_cons] at h
  obtain ⟨h80, h88, h90, h98, hA0, -⟩ := h
  rw [State.debugOp, if_neg (by simpa using hk), State.firmwareWrite_denied h80, State.firmwareWrite_denied h88,
    State.firmwareWrite_denied h90, State.firmwareWrite_denied h98, State.firmwareWrite_denied hA0]

/-- A grant that is not valid gives no right (R369). -/
theorem State.debugPerform_refused (h : (s.reg 0 0x200040).getLsbD (bits dop 26 24) = false) : s.debugPerform dop mask buf arg = (s, 2) := by
  simp [-BitVec.getLsbD_eq_getElem, State.debugPerform, h]

/-- HALT halts the lanes of the mask that have not exited (R370). -/
theorem State.debugPerform_halt {c : Ctx} (h : (s.reg 0 0x200040).getLsbD (bits dop 26 24) = true) (hk : bits dop 31 28 = 0)
    (hc : s.debugTarget dop arg = some c) : s.debugPerform dop mask buf arg =
      ((s.updCtx c.id fun x => x.updLanes (c.debugLanes mask) fun _ y => { y with halted := true, stepping := false }).afterDebug c.id, 0) := by
  simp [-BitVec.getLsbD_eq_getElem, State.debugPerform, h, hk, hc, State.debugLanesOp]

end

/-- How an event of a debug operation is shown, and that the tables may keep it out. -/
theorem happens_debugOp {i : Instr} {k : Nat} {dop mask buf arg : W64}
    (hx : ∀ s, exec i s = event s (s.debugOp k dop mask buf arg)) :
    Happens i (fun s => bits dop 31 28 = k ∧ ∀ off ∈ [0x200080, 0x200088, 0x200090, 0x200098, 0x2000A0], s.firmwareMay 0 off true = true)
      (fun s => ((((s.setReg 0 0x200080 (dop &&& 0xF7FFFF83)).setReg 0 0x200088 mask).setReg 0 0x200090
        (buf &&& 0xFFFFFFFFFFFC0)).setReg 0 0x200098 arg).debugGo)
    ∧ Happens i (fun s => bits dop 31 28 = k
      ∧ ∀ off ∈ [0x200080, 0x200088, 0x200090, 0x200098, 0x2000A0], s.firmwareMay 0 off true = false) (fun s => s) :=
  ⟨happens_of_event hx fun _ ⟨hk, h⟩ => State.debugOp_admitted hk h, happens_of_event hx fun _ ⟨hk, h⟩ => State.debugOp_denied hk h⟩

/-! Grants (R369). -/

theorem State.mgmtWrite_tag (s : State) {g : Nat} (hg : g ≤ 7) (v : W64) :
    s.mgmtWrite 0 (0x200000 + 8 * g) v = s.regrant (0x200000 + 8 * g) v := by
  interval_cases g <;> rfl

theorem State.grant_admitted {s : State} {g : Nat} (hg : g ≤ 7) {tag : W64} (h : s.firmwareMay 0 (0x200000 + 8 * g) true = true)
    (h' : (s.regrant (0x200000 + 8 * g) tag).firmwareMay 0 0x200040 true = true) :
    s.grant g tag = some ((s.regrant (0x200000 + 8 * g) tag).regrant 0x200040
      (((s.regrant (0x200000 + 8 * g) tag).reg 0 0x200040 ||| BitVec.ofNat 64 (2 ^ g)) &&& 0xFF)) := by
  rw [State.grant, if_neg (by omega), State.firmwareWrite_admitted h, State.mgmtWrite_tag s hg]
  simp only
  rw [State.firmwareWrite_admitted h']
  rfl

theorem State.grant_denied {s : State} {g : Nat} (hg : g ≤ 7) {tag : W64} (h : s.firmwareMay 0 (0x200000 + 8 * g) true = false)
    (h' : s.firmwareMay 0 0x200040 true = false) : s.grant g tag = some s := by
  rw [State.grant, if_neg (by omega), State.firmwareWrite_denied h]
  simp only
  rw [State.firmwareWrite_denied h']

theorem exec_debugRevoke {g : Nat} (hg : g ≤ 7) (s : State) : exec (.debugRevoke g) s =
    event s (some (s.byFirmware 0 0x200040 (s.regrant 0x200040 ((s.reg 0 0x200040 &&& ~~~BitVec.ofNat 64 (2 ^ g)) &&& 0xFF)))) :=
  congrArg (event s) (if_neg (by omega))
/-! What a revocation leaves of the contexts (R369). -/

/-- A context whose launch's grant is gone: DBGST.REV is set, and no lane is halted or steps. -/
structure Ctx.Revoked (c : Ctx) : Prop where
  rev : c.sr.dbgRev = true
  lane : ∀ l, (c.lane l).halted = false ∧ (c.lane l).stepping = false

/-- A lane of a context's list stands at a place of it. -/
theorem Ctx.exists_lane {c : Ctx} {x : Lane} (h : x ∈ c.lanes) : ∃ l, c.lane l = x := by
  obtain ⟨l, hl⟩ := List.getElem?_of_mem h
  exact ⟨l, by rw [Ctx.lane, nth_eq_getD, hl, Option.getD_some]⟩

theorem Ctx.Revoked.of_lanes {c : Ctx} (hrev : c.sr.dbgRev = true) (h : ∀ x ∈ c.lanes, x.halted = false ∧ x.stepping = false) :
    c.Revoked := by
  refine ⟨hrev, fun l => ?_⟩
  rw [Ctx.lane, nth_eq_getD]
  cases hl : c.lanes[l]? with
  | none => exact ⟨rfl, rfl⟩
  | some x => exact h x (List.mem_of_getElem? hl)

/-- A context that stays in its place and launch, and revoked where it was. -/
structure Ctx.KeepsRevoked (x y : Ctx) : Prop where
  id : y.id = x.id
  launch : y.launch = x.launch
  ended : y.ended = x.ended
  revoked : x.Revoked → y.Revoked

theorem Ctx.KeepsRevoked.refl (x : Ctx) : x.KeepsRevoked x := ⟨rfl, rfl, rfl, fun h => h⟩

theorem Ctx.KeepsRevoked.trans {x y z : Ctx} (h : x.KeepsRevoked y) (h' : y.KeepsRevoked z) : x.KeepsRevoked z :=
  ⟨h'.id.trans h.id, h'.launch.trans h.launch, h'.ended.trans h.ended, fun hx => h'.revoked (h.revoked hx)⟩

theorem Ctx.keepsRevoked_updLane (c : Ctx) (l : Nat) {g : Lane → Lane} (hg : ∀ x, (g x).halted = x.halted ∧ (g x).stepping = x.stepping) :
    c.KeepsRevoked (c.updLane l g) := by
  refine ⟨rfl, rfl, rfl, fun h => ⟨h.rev, fun j => ?_⟩⟩
  rw [Ctx.lane, Ctx.updLane_lanes, nth_setNth]
  split
  · rw [(hg _).1, (hg _).2]
    exact h.lane l
  · exact h.lane j

theorem Ctx.keepsRevoked_updLanes (c : Ctx) (ls : List Nat) {g : Nat → Lane → Lane}
    (hg : ∀ l x, (g l x).halted = x.halted ∧ (g l x).stepping = x.stepping) : c.KeepsRevoked (c.updLanes ls g) := by
  induction ls generalizing c with
  | nil => exact .refl c
  | cons l r ih => exact (c.keepsRevoked_updLane l (hg l)).trans (ih _)

theorem Ctx.keepsRevoked_wrM (c : Ctx) (n : Nat) (m : W64) : c.KeepsRevoked (c.wrM n m) := ⟨rfl, rfl, rfl, fun h => ⟨h.rev, h.lane⟩⟩

theorem Ctx.keepsRevoked_release (c : Ctx) : c.KeepsRevoked c.release := by
  rw [Ctx.release_eq]
  refine List.foldlRecOn _ _ (motive := fun d : Ctx => c.KeepsRevoked d) (.refl c) fun d hd n _ => hd.trans ?_
  exact (d.keepsRevoked_updLanes (g := fun _ x => { x with st := .runnable }) (c.parkedOn n) fun _ _ => ⟨rfl, rfl⟩).trans
    (Ctx.keepsRevoked_wrM ..)

/-- Each context of a state goes over into one that keeps it revoked. -/
def State.KeepRevoked (s t : State) : Prop := s.CtxsBy t Ctx.KeepsRevoked

theorem State.KeepRevoked.of_eq {s t : State} (h : t.ctxs = s.ctxs) : s.KeepRevoked t := State.CtxsBy.of_eq h .refl

theorem State.KeepRevoked.trans {s t u : State} (h : s.KeepRevoked t) (h' : t.KeepRevoked u) : s.KeepRevoked u :=
  State.CtxsBy.trans h h' fun _ _ _ _ _ hxy hyz => hxy.trans hyz

theorem State.keepRevoked_updCtx (s : State) (id : Nat) {g : Ctx → Ctx} (hg : ∀ x : Ctx, x.KeepsRevoked (g x)) : s.KeepRevoked (s.updCtx id g) :=
  State.CtxsBy.of_updCtx rfl fun x _ => by
    split
    · exact hg x
    · exact .refl x

theorem State.keepRevoked_barrierRelease (s : State) (bid : Nat) : s.KeepRevoked (s.barrierRelease bid) := by
  unfold State.barrierRelease
  extract_lets ws
  split
  · exact .of_eq rfl
  · exact List.foldlRecOn _ _ (motive := fun t : State => s.KeepRevoked t) (.of_eq rfl) fun t ht c _ =>
      ht.trans (t.keepRevoked_updCtx c.id fun x => x.keepsRevoked_updLanes (g := fun _ x => { x with st := .runnable }) _ fun _ _ => ⟨rfl, rfl⟩)

@[simp] theorem State.reach_ctxs (s : State) (w : Who) (va size : Nat) (t : AccessType) : (s.reach w va size t).1.ctxs = s.ctxs := by
  have htr : (s.translate w va size t).1.ctxs = s.ctxs := by
    unfold State.translate
    split
    · rename_i h
      exact (congrArg (fun r => r.1.ctxs) h.symm).trans (s.translateRaw_ctxs w va size t)
    · exact s.translateRaw_ctxs w va size t
  unfold State.reach
  split
  · rfl
  · split
    · rename_i h
      exact (State.countUnc_ctxs ..).trans ((congrArg (fun r => r.1.ctxs) h.symm).trans htr)
    · exact htr

@[simp] theorem State.wrVa_ctxs (s : State) (w : Who) (va : Nat) (bs : List Byte) : (s.wrVa w va bs).ctxs = s.ctxs := by
  refine List.foldlRecOn _ _ (motive := fun p : State × List Byte => p.1.ctxs = s.ctxs) rfl fun p hp a _ => ?_
  have hr := (p.1.reach_ctxs w a.1 a.2 .write).trans hp
  split
  · rename_i h
    exact (State.wr_ctxs ..).trans ((congrArg (fun r => r.1.ctxs) h.symm).trans hr)
  · rename_i h
    exact (congrArg (fun r => r.1.ctxs) h.symm).trans hr

@[simp] theorem State.refreshImage_ctxs (s : State) (cid : Nat) : (s.refreshImage cid).ctxs = s.ctxs := by
  unfold State.refreshImage
  split
  · split
    · split
      · rfl
      · unfold State.putImage
        split
        · exact State.wr_ctxs ..
        · exact State.wrVa_ctxs ..
    · rfl
  · rfl

theorem State.keepRevoked_afterDebug (s : State) (cid : Nat) : s.KeepRevoked (s.afterDebug cid) := by
  unfold State.afterDebug
  split
  · have hrel : s.KeepRevoked (s.updCtx cid Ctx.release) := s.keepRevoked_updCtx cid Ctx.keepsRevoked_release
    split
    · exact hrel.trans (.of_eq (State.refreshImage_ctxs ..))
    · exact hrel.trans (State.keepRevoked_barrierRelease ..)
  · exact .of_eq rfl

/-- What a revocation makes of a context of the launch. -/
def Ctx.revoke (c : Ctx) : Ctx :=
  { c with
    sr := { c.sr with dbgRev := true }
    lanes := c.lanes.map fun x => { x with halted := false, stepping := false, left := x.left || x.halted } }

theorem Ctx.revoke_revoked (c : Ctx) : c.revoke.Revoked := by
  refine .of_lanes rfl fun x hx => ?_
  obtain ⟨y, -, rfl⟩ := List.mem_map.mp hx
  exact ⟨rfl, rfl⟩

/-- What a revocation does to one context of the launch, and what that may complete. -/
def State.revokeCtx (s : State) (c : Ctx) : State := ((s.updCtx c.id Ctx.revoke).refreshImage c.id).afterDebug c.id

theorem State.revoke_eq (s : State) (lid : Nat) : s.revoke lid =
    (let s1 := s.updLaunch lid fun l => { l with breaks := [], rev := true }
     (s1.ctxs.filter fun c => c.launch == lid && !c.ended).foldl State.revokeCtx s1) := rfl

/-- A context that keeps its revocation, and is revoked if it is one of a list of numbers. -/
def Ctx.RevokedIn (ids : List Nat) (x y : Ctx) : Prop := x.KeepsRevoked y ∧ (x.id ∈ ids → y.Revoked)

theorem State.revokeCtx_ctxsBy (s : State) (c : Ctx) : s.CtxsBy (s.revokeCtx c) (Ctx.RevokedIn [c.id]) := by
  have hupd : s.CtxsBy ((s.updCtx c.id Ctx.revoke).refreshImage c.id) (Ctx.RevokedIn [c.id]) :=
    .of_updCtx (State.refreshImage_ctxs ..) fun x _ => by
      split
      · exact ⟨⟨rfl, rfl, rfl, fun _ => x.revoke_revoked⟩, fun _ => x.revoke_revoked⟩
      · exact ⟨.refl x, fun hx => absurd (List.mem_singleton.mp hx) ‹_›⟩
  exact hupd.trans (State.keepRevoked_afterDebug ..) fun x _ y _ z hxy hyz =>
    ⟨hxy.1.trans hyz, fun hx => hyz.revoked (hxy.2 hx)⟩

theorem State.revokeCtxs_ctxsBy (s : State) (cs : List Ctx) :
    s.CtxsBy (cs.foldl State.revokeCtx s) (Ctx.RevokedIn (cs.map fun c => c.id)) := by
  induction cs generalizing s with
  | nil => exact .of_eq rfl fun x => ⟨.refl x, fun h => absurd h List.not_mem_nil⟩
  | cons c r ih =>
    refine (s.revokeCtx_ctxsBy c).trans (ih _) fun x _ y _ z hxy hyz => ⟨hxy.1.trans hyz.1, fun hx => ?_⟩
    rcases List.mem_cons.mp hx with h | h
    · exact hyz.1.revoked (hxy.2 (List.mem_singleton.mpr h))
    · exact hyz.2 (by rwa [hxy.1.id])

/-- No lane of a revoked launch is halted, and its contexts have DBGST.REV (R369). -/
theorem State.revoke_revoked {s : State} {lid : Nat} {c : Ctx} (hc : c ∈ (s.revoke lid).ctxs) (hl : c.launch = lid)
    (he : c.ended = false) : c.Revoked := by
  rw [State.revoke_eq] at hc
  obtain ⟨x, hx, hkeeps, hin⟩ := (State.revokeCtxs_ctxsBy _ _).exists_of_mem' hc
  refine hin (List.mem_map.mpr ⟨x, List.mem_filter.mpr ⟨hx, ?_⟩, rfl⟩)
  rw [← hkeeps.launch, ← hkeeps.ended, hl, he]
  simp
/-! Access control, clocks and limits (R394 to R400). -/

theorem exec_acctlEnable {die : Nat} (h : die ≤ 1) (s : State) : exec (.acctlEnable die) s =
    event s (some (s.byFirmware die 0x19FFF8 (s.setReg die 0x19FFF8 (s.reg die 0x19FFF8 ||| 1)))) := congrArg (event s) (if_pos h)

theorem exec_acctlLock {die : Nat} (h : die ≤ 1) (s : State) : exec (.acctlLock die) s =
    event s (some (s.byFirmware die 0x19FFF8 (s.setReg die 0x19FFF8 (s.reg die 0x19FFF8 ||| 2)))) := congrArg (event s) (if_pos h)

theorem exec_acsync {die : Nat} (h : die ≤ 1) (s : State) : exec (.acsync die) s = event s (some (s.acsync die)) :=
  congrArg (event s) (if_pos h)

/-- Locked tables keep every write out (R400). -/
theorem State.mgmtWrite_locked {s : State} {die off : Nat} (h : (s.reg die 0x19FFF8).getLsbD 1 = true) (hlo : 0x180000 ≤ off)
    (hhi : off < 0x193000) (v : W64) : s.mgmtWrite die off v = s := by
  unfold State.mgmtWrite
  refine ite_eq_left_iff.mpr fun _ => ?_
  rw [if_neg (by simp; omega), if_neg (by simp; omega), if_neg (by simp; omega), if_neg (by simp; omega), if_neg (by simp; omega),
    if_neg (by simp; omega), if_neg (by simp; omega), if_pos (by simp; omega), if_pos h]

theorem State.writeCap0_eq (s : State) (v : W64) : s.writeCap0 v =
    if ((List.range 64).any fun q => (s.reg 0 (qReg q 1)).getLsbD 16) = true ∨ bits v 53 43 = 0 ∨ 1024 < bits v 53 43 ∨ bits v 53 43 ≤ bits v 63 54
    then s else { s with caps := Table.set (Table.set s.caps 4 (bits v 63 54) (capReset 4)) 5 (bits v 53 43) (capReset 5) } := by
  simp only [State.writeCap0, Bool.or_eq_true, decide_eq_true_eq, beq_iff_eq, or_assoc]

theorem exec_islclkWrite {i : Nat} (h : i < 16) (v : W64) (s : State) : exec (.islclkWrite i v) s =
    event s (some (s.byFirmware 0 (0x160000 + 8 * i) (s.writeClock i v))) := congrArg (event s) (if_pos h)

theorem State.writeClock_eq {i : Nat} (h : i < 16) (s : State) (v : W64) : s.writeClock i v =
    if 600 ≤ bits v 10 0 ∧ bits v 10 0 ≤ 1500 ∧ bits v 10 0 % 25 = 0 then s.setClock i (bits v 10 0) (s.eff i) else s := by
  simp only [State.writeClock, Bool.and_eq_true, decide_eq_true_eq, beq_iff_eq, h, true_and, and_assoc]

theorem State.clockEffect_eq {s : State} {i : Nat} (h : i < 16) (he : s.eff i ≠ min (s.freq i) (s.islCap i)) :
    s.clockEffect i = some (s.setClock i (s.freq i) (min (s.freq i) (s.islCap i))) := if_neg (by simpa [h] using he)

/-! Samples (R397). -/

/-- The cap of one island and what its clock then runs at. -/
def State.capIsland (s : State) (i c : Nat) : State :=
  let s1 : State := { s with islCaps := Table.set s.islCaps i c 1500 }
  s1.setClock i (s1.freq i) (min (s1.eff i) c)

theorem State.mapCaps_eq (s : State) (g : Nat → Nat) : s.mapCaps g = (List.range 16).foldl (fun s i => s.capIsland i (g i)) s := rfl

theorem State.foldl_capIsland {is : List Nat} (g : Nat → Nat) {s : State} (h : Table.wf 1500 s.islCaps = true) (j : Nat) :
    (is.foldl (fun s i => s.capIsland i (g i)) s).islCap j = if j ∈ is then g j else s.islCap j := by
  induction is generalizing s with
  | nil => rfl
  | cons i r ih =>
    have hcap : (s.capIsland i (g i)).islCap j = if j = i then g i else s.islCap j := Table.get_set h j
    rw [List.foldl_cons, ih (Table.wf_set h), hcap]
    by_cases hr : j ∈ r
    · simp [hr]
    · by_cases hj : j = i
      · simp [hj]
      · simp [hr, hj]

theorem State.mapCaps_islCap {s : State} (h : Table.wf 1500 s.islCaps = true) (g : Nat → Nat) {i : Nat} (hi : i < 16) :
    (s.mapCaps g).islCap i = g i := by
  rw [State.mapCaps_eq, State.foldl_capIsland g h, if_pos (List.mem_range.mpr hi)]

/-- A sample above the limit lowers the cap of each island (R397). -/
theorem State.currentSample_islCap {s : State} {amps tj watts : Nat} (htj : tj < 110) (ha : bits (s.reg 0 0x160100) 15 0 < amps)
    (h : Table.wf 1500 s.islCaps = true) {i : Nat} (hi : i < 16) :
    (s.currentSample amps tj watts).islCap i = max 600 (min (s.islCap i) (s.freq i) - 100) := by
  unfold State.currentSample
  extract_lets s1
  have hlimit : s1.reg 0 0x160100 = s.reg 0 0x160100 := s.reg_setReg_of_ne (by decide) _
  have hfreq : s1.freq i = s.freq i := by
    unfold State.freq
    rw [s.reg_setReg_of_ne (by omega)]
  have hcaps : s1.islCaps = s.islCaps := rfl
  clear_value s1
  have hcap : s1.islCap i = s.islCap i := by rw [State.islCap, hcaps, State.islCap]
  rw [if_neg (by omega)]
  unfold State.throttle
  extract_lets limit hot low capped
  rw [if_pos (by simp [limit, hlimit, ha]), ← hfreq, ← hcap]
  have hmap := State.mapCaps_islCap (s := s1) (by rwa [hcaps]) (fun i => max 600 (min (s1.islCap i) (s1.freq i) - 100)) hi
  simpa only [State.islCap, capped] using hmap

/-! A trip, and the reset that ends it (R398, R405). -/

theorem State.currentSample_trip (s : State) {tj : Nat} (h : 110 ≤ tj) (amps watts : Nat) :
    (s.currentSample amps tj watts).tripped = true ∧ (s.currentSample amps tj watts).launches = [] := by
  unfold State.currentSample
  extract_lets s1
  rw [if_pos h]
  exact ⟨rfl, rfl⟩

/-- A trip leaves no work, and memory as it was (R398). -/
theorem exec_thermalTrip {s : State} {tj : Nat} (hr : s.run = none) (h : 110 ≤ tj) : exec (.thermalTrip tj) s = .next (s.trip tj) := by
  have ht : s.thermalTrip tj = some (s.trip tj) := if_neg (by simp [hr, h])
  show always s (s.thermalTrip tj) = _
  rw [ht]
  simp [always, hr]

theorem always_of_idle {s t : State} (hr : s.run = none) : always s (some t) = .next t := by simp [always, hr]

theorem exec_deviceReset {s : State} {img : Image} (h : s.newImage = some img) : exec .deviceReset s = .next (s.restart.boot img) := by
  show Host.Outcome.next s.deviceReset = _
  rw [State.deviceReset, h]

theorem State.stageOk_restart (s : State) : s.restart.stageOk = s.stageOk := rfl

/-- An image all of whose stages verify is installed (R405). -/
theorem State.boot_verified {s : State} {img : Image} (h0 : img.stages ≠ []) (h : ∀ x ∈ img.stages, s.stageOk x = true) :
    s.boot img = { s with installed := some img, verified := img.stages, newImage := none } := by
  have htake : img.stages.takeWhile s.stageOk = img.stages := List.takeWhile_eq_self_iff.mpr h
  simp [State.boot, htake, h0]

/-- The first stage that does not verify ends the boot (R405). -/
theorem State.boot_failed {s : State} {img : Image} {pre post : List FwStage} {x : FwStage} (himg : img.stages = pre ++ x :: post)
    (hpre : ∀ y ∈ pre, s.stageOk y = true) (hx : s.stageOk x = false) : s.boot img = { s with recovery := true, verified := pre } := by
  have htake : img.stages.takeWhile s.stageOk = pre := by
    rw [himg, List.takeWhile_append_of_pos hpre, List.takeWhile_cons_of_neg (by simp [hx]), List.append_nil]
  have hlen : pre.length ≠ img.stages.length := by simp [himg]
  simp [State.boot, htake, hlen]

theorem State.stageOk_iff (s : State) (x : FwStage) : s.stageOk x = true ↔
    shake256 x.key 64 = s.fusedKey ∧ s.version ≤ x.version ∧ ed448Verifies x.key (leBytes 8 x.version ++ x.code) x.signature = true := by
  simp only [State.stageOk, stageBytes, Bool.and_eq_true, beq_iff_eq, decide_eq_true_eq, and_assoc]

/-! The management port and the masters of registers (R399, R400). -/

theorem State.measurements_unlocked {s : State} (h : s.installed ≠ none) (hd : ∀ d ≤ 1, (s.reg d 0x19FFF8).getLsbD 1 = false) :
    s.measurements = s.verified.flatMap fun x => shake256 (leBytes 8 x.version ++ x.code) 64 := by
  have hi : s.installed.isNone = false := by simpa [Option.isSome_iff_ne_none] using h
  have hlock : ([0, 1].filter fun d => (s.reg d 0x19FFF8).getLsbD 1) = [] :=
    List.filter_eq_nil_iff.mpr fun d hm => by
      have : d ≤ 1 := by simp at hm; omega
      rw [hd d this]
      decide
  rw [State.measurements, hlock, hi]
  exact List.append_nil _

theorem exec_pldmMonitoring {s : State} {n : Nat} {x : W64} (hr : s.run = none) (h : s.sensor n = some x) :
    exec (.pldmMonitoring n) s = .next (s.answer [x]) := by
  show always s ((s.sensor n).map fun x => s.answer [x]) = _
  rw [h]
  exact always_of_idle hr

theorem State.masterWrite_eq {master die off : Nat} (hdie : die ≤ 1) (hm : master = 18 ∨ master = 21) (ho : off < 2 ^ 24) (s : State)
    (v : W64) : s.masterWrite master die off v =
      some (if s.mgmtAdmits master die off false true = true then s.mgmtWrite die off v else s) := by
  refine if_neg ?_
  rcases hm with rfl | rfl <;> simp <;> omega
/-! Application cores (R401 to R403). -/

section
variable {s : State} {pa size st : Nat}

theorem State.appAccess_ctrlRead {die off : Nat} (hdie : die ≤ 1) (ho : off < 2 ^ 24) (hs : size = 1 ∨ size = 2 ∨ size = 4 ∨ size = 8)
    (ha : off % size = 0) : s.appAccess (.ctrlRead die off size) =
      some (if s.mgmtAdmits 21 die off true false = true then s.answer [s.mgmtPart die off size] else s) := by
  refine if_neg ?_
  have hd : ¬ 1 < die := by omega
  have hoff : ¬ 2 ^ 24 ≤ off := by omega
  simp only [hd, hoff, ha, decide_false, Bool.false_or, bne_self_eq_false, Bool.or_false]
  rcases hs with rfl | rfl | rfl | rfl <;> decide

theorem State.appAccess_readMgmt {die : Nat} (h : s.appPlace pa size true false = some (.mgmt die)) :
    s.appAccess (.read pa size) = some (s.answer [s.mgmtPart die (pa % 2 ^ 24) size]) := by simp only [State.appAccess, h]

theorem State.appAccess_read (h : s.appPlace pa size true false = some (.hbm st)) (hb : s.badRead pa size = false) :
    s.appAccess (.read pa size) = some (s.answer [BitVec.ofNat 64 (s.readN pa size)]) := by
  simp [State.appAccess, h, hb]

theorem State.appAccess_write (h : s.appPlace pa size false true = some (.hbm st)) (v : W64) :
    s.appAccess (.write pa size v) = some (s.wrN pa size v.toNat) := by simp only [State.appAccess, h]

theorem State.appAmo_hbm (h : s.appPlace pa size true true = some (.hbm st)) (hb : s.badRead pa size = false)
    (hs : size = 4 ∨ size = 8) (g : Nat → Nat) : s.appAmo pa size g =
      some ((s.wrN pa size (g (s.readN pa size) % 2 ^ (8 * size))).answer [BitVec.ofNat 64 (s.readN pa size)]) := by
  have hsize : ¬ (size != 4 && size != 8) = true := by rcases hs with rfl | rfl <;> decide
  rw [State.appAmo, if_neg hsize, h]
  simp [hb]

/-- How an atomic access of an application core is shown. -/
theorem happens_amo {a : AppAccess} {g : Nat → Nat} (hx : ∀ s : State, s.appAccess a = s.appAmo pa size g) :
    Happens (.applicationCoreAccess a)
      (fun s => (s.appPlace pa size true true = some (.hbm st) ∧ (true = true → s.badRead pa size = false)) ∧ (size = 4 ∨ size = 8))
      (fun s => (s.wrN pa size (g (s.readN pa size) % 2 ^ (8 * size))).answer [BitVec.ofNat 64 (s.readN pa size)]) :=
  happens_of_event (r := fun s => s.appAccess a) (fun _ => rfl) fun s ⟨⟨hp, hb⟩, hs⟩ =>
    (hx s).trans (State.appAmo_hbm hp (hb rfl) hs g)

end

/-! Soft errors (R404). -/

/-- How a soft error is shown. -/
theorem happens_softError {t : ErrTarget} {cor : Bool} {pre : State → Prop} {g : State → State}
    (h : ∀ s, pre s → s.softError t cor = some (g s)) : Happens (.softError t cor) pre g :=
  happens_of_event (r := fun s => s.softError t cor) (fun _ => rfl) h

section
variable {s : State} {pa : Nat}

theorem State.softError_memory {st : Nat} (h : s.place pa = .hbm st) (cor : Bool) : s.softError (.memory pa) cor =
    some (if cor = true then s.bumpReg (st / 4) 0x1E0000 else { s with badGranules := Table.set s.badGranules (pa / 32) 1 0 }) := by
  simp only [State.softError, h]

theorem State.softError_l2 {st : Nat} (h : s.place pa = .hbm st) (cor : Bool) : s.softError (.l2 pa) cor =
    some (if cor = true then s.bumpReg (s.errWhere pa).1 0x1E0000 else { s with badGranules := Table.set s.badGranules (pa / 32) 2 0 }) := by
  simp only [State.softError, h]

theorem State.softError_l1 {die cl core : Nat} (hdie : die ≤ 1) (hcore : core < 24) (h : cl < s.cap die) (cor : Bool) :
    s.softError (.l1 die cl core pa) cor = some (if cor = true then s.bumpReg die 0x1E0000 else s.countError die cl core 3 pa) := by
  have hin : ¬ (decide (1 < die) || decide (s.cap die ≤ cl) || decide (24 ≤ core)) = true := by simp; omega
  rw [State.softError]
  simp only
  rw [if_neg hin]
  cases cor <;> rfl

theorem State.softError_array {die cl u off : Nat} {w : Win} (h : s.place pa = .map die cl u off w) (cor : Bool) :
    s.softError (.array pa) cor =
      some (if cor = true then s.bumpReg die 0x1E0000 else { s with badWords := Table.set s.badWords (pa / 4) true false }) := by
  simp only [State.softError, h]

theorem State.softError_vreg {c : Ctx} {n l : Nat} (h : s.ctx? c.id = some c) (he : c.ended = false) (hs : c.saved = false)
    (hn : n < c.vregs) (hl : l < c.width) (cor : Bool) : s.softError (.vreg c.id n l) cor =
      some (if cor = true then s.bumpReg c.loc.die 0x1E0000 else { s with badVregs :=
        if (c.id, n, l) ∈ s.badVregs then s.badVregs else s.badVregs ++ [(c.id, n, l)] }) := by
  have hin : ¬ (c.ended || c.saved || decide (c.vregs ≤ n) || decide (c.width ≤ l)) = true := by simp [he, hs]; omega
  simp only [State.softError, h]
  rw [if_neg hin]
  simp only [List.contains_iff_mem]

end

/-! Marks that a write clears. -/

/-- An empty list of marks has none to clear. -/
theorem Table.get_ite_isEmpty {α : Type} {d : α} {t u : List (Nat × α)} {q : Nat} {x : α} (hnil : t = [] → x = d) (h : Table.get u q d = x) :
    Table.get (if t.isEmpty = true then [] else u) q d = x := by
  split
  · rw [hnil (List.isEmpty_iff.mp ‹_›)]
    rfl
  · exact h

section
variable {α : Type} [DecidableEq α]

theorem Table.wf_clearMarks {d : α} {t : List (Nat × α)} (h : Table.wf d t = true) (k n : Nat) : Table.wf d (clearMarks d t k n) = true := by
  induction n generalizing t k with
  | zero => exact h
  | succ n ih => exact ih (Table.wf_set h) (k + 1)

/-- What each mark is after those from one place on were cleared. -/
theorem Table.get_clearMarks {d : α} {t : List (Nat × α)} (h : Table.wf d t = true) (k n q : Nat) :
    Table.get (clearMarks d t k n) q d = if k ≤ q ∧ q < k + n then d else Table.get t q d := by
  induction n generalizing t k with
  | zero => rw [if_neg (by omega)]; rfl
  | succ n ih =>
    rw [clearMarks, ih (Table.wf_set h), Table.get_set h]
    by_cases hq : q = k
    · subst hq
      rw [if_neg (by omega), if_pos rfl, if_pos (by omega)]
    · rw [if_neg hq]
      exact if_congr (by omega) rfl rfl

end

/-- The marks of words and granules that a write leaves: those it covers whole are cleared (R404). -/
theorem State.wr_badWords {s : State} (h : Table.wf false s.badWords = true) (pa : Nat) (bs : List Byte) (w : Nat) :
    Table.get (s.wr pa bs).badWords w false =
      if pa ≤ 4 * w ∧ 4 * w + 4 ≤ pa + bs.length then false else Table.get s.badWords w false := by
  have hput : (s.putBytes pa bs).badWords = s.badWords := by rw [s.putBytes_eq]
  rw [State.wr, State.settleJoins_eq]
  simp only [State.heal, hput]
  refine Table.get_ite_isEmpty (fun hn => by simp [hn]) ?_
  rw [Table.get_clearMarks h]
  exact if_congr (by omega) rfl rfl

theorem State.wr_badGranules {s : State} (h : Table.wf 0 s.badGranules = true) (pa : Nat) (bs : List Byte) (g : Nat) :
    Table.get (s.wr pa bs).badGranules g 0 =
      if pa ≤ 32 * g ∧ 32 * g + 32 ≤ pa + bs.length then 0 else Table.get s.badGranules g 0 := by
  have hput : (s.putBytes pa bs).badGranules = s.badGranules := by rw [s.putBytes_eq]
  rw [State.wr, State.settleJoins_eq]
  simp only [State.heal, hput]
  refine Table.get_ite_isEmpty (fun hn => by simp [hn]) ?_
  rw [Table.get_clearMarks h]
  exact if_congr (by omega) rfl rfl

/-! An instruction that reads what is marked (R404). -/

/-- An instruction whose look-ups change nothing executes in its environment. -/
theorem exec_of_looked {i : Instr} {s : State} {v : Env} (hv : s.envOf i = some v) (hl : v.looked = v.s) :
    ∃ body, exec i s = .next (v.execute body) := by
  obtain ⟨hview, -, -, hs⟩ := s.envOf_eq hv
  rcases exec_of_view hview with ⟨body, he⟩ | ⟨body, he⟩
  · exact ⟨body, by rw [he, execIsa_envOf body hv]⟩
  · exact ⟨body, by rw [he, execTable_envOf body hv, hl, hs, execIsa_envOf body hv]⟩

/-- An instruction that reads a marked register kills its block. -/
theorem exec_badRegister {i : Instr} {s : State} {v : Env} {l : Nat} (hv : s.envOf i = some v) (hc : v.checkFails = none)
    (hb : v.badRegister = some l) : exec i s = .next ((v.counted.countReg v.c.loc).killUnc v.c.block v.r.pc l 0) := by
  obtain ⟨body, he⟩ := exec_of_looked hv (by simp [Env.looked, hb])
  rw [he, Env.execute, hc, hb]
  rfl

/-- Only a read of the matrix files meets a marked word of them, and it looks up no table. -/
theorem Env.lookups_of_badFile {v : Env} {p : Nat × Nat} (h : v.badFile = some p) : v.lookups = [] := by
  have hk : v.k = .trd ∨ v.k = .acrd := by
    unfold Env.badFile at h
    extract_lets file at h
    split at h
    · cases h
    · split at h
      · exact .inl ‹_›
      · exact .inr ‹_›
      · cases h
  rcases hk with hk | hk <;> simp [Env.lookups, hk]

/-- An instruction that reads a marked word of its files kills the owner. -/
theorem exec_badFile {i : Instr} {s : State} {v : Env} {pa l : Nat} (hv : s.envOf i = some v) (hc : v.checkFails = none)
    (hb : v.badRegister = none) (hf : v.badFile = some (pa, l)) : exec i s = .next (v.counted.uncHit pa v.r.pc l) := by
  obtain ⟨body, he⟩ := exec_of_looked hv (by simp [Env.looked, Env.lookups_of_badFile hf])
  rw [he, Env.execute, hc, hb, hf]
  rfl

/-! The statement. -/

theorem debugOperations (dop mask buf arg : W64) :
    ∀ p ∈ [(Instr.debugHalt, 0), (.debugResume, 1), (.debugStep, 2), (.bpset, 3), (.bpclr, 4), (.debugRead, 5), (.debugWrite, 6),
        (.debugSample, 7)],
      Happens (p.1 dop mask buf arg) (fun s => bits dop 31 28 = p.2
          ∧ ∀ off ∈ [0x200080, 0x200088, 0x200090, 0x200098, 0x2000A0], s.firmwareMay 0 off true = true) (fun s =>
        ((((s.setReg 0 0x200080 (dop &&& 0xF7FFFF83)).setReg 0 0x200088 mask).setReg 0 0x200090 (buf &&& 0xFFFFFFFFFFFC0)).setReg 0
          0x200098 arg).debugGo)
      ∧ Happens (p.1 dop mask buf arg) (fun s => bits dop 31 28 = p.2
          ∧ ∀ off ∈ [0x200080, 0x200088, 0x200090, 0x200098, 0x2000A0], s.firmwareMay 0 off true = false) (fun s => s) := by
  intro p hp
  simp only [List.mem_cons, List.not_mem_nil, or_false] at hp
  rcases hp with rfl | rfl | rfl | rfl | rfl | rfl | rfl | rfl
  all_goals exact happens_debugOp fun _ => rfl

theorem applicationAtomics (pa size st : Nat) (v : W64) :
    ∀ p ∈ [(AppAccess.amoAdd pa size v, fun x => x + v.toNat), (.amoSwap pa size v, fun _ => v.toNat),
        (.amoAnd pa size v, fun x => x &&& v.toNat), (.amoOr pa size v, fun x => x ||| v.toNat), (.amoXor pa size v, fun x => x ^^^ v.toNat),
        (.amoMin pa size false v, fun x => pickN false false size x v.toNat), (.amoMin pa size true v, fun x => pickN false true size x v.toNat),
        (.amoMax pa size false v, fun x => pickN true false size x v.toNat), (.amoMax pa size true v, fun x => pickN true true size x v.toNat)],
      Happens (.applicationCoreAccess p.1)
        (fun s => (s.appPlace pa size true true = some (.hbm st) ∧ (true = true → s.badRead pa size = false)) ∧ (size = 4 ∨ size = 8))
        (fun s => (s.wrN pa size (p.2 (s.readN pa size) % 2 ^ (8 * size))).answer [BitVec.ofNat 64 (s.readN pa size)]) := by
  intro p hp
  simp only [List.mem_cons, List.not_mem_nil, or_false] at hp
  rcases hp with rfl | rfl | rfl | rfl | rfl | rfl | rfl | rfl | rfl
  all_goals exact happens_amo fun _ => rfl

/-- Settles O60: each event by what its arm gives, a revocation by what it makes of each context, a write's marks by the places that
clearing covers. -/
theorem debugAndDeviceEvents : Obligations.DebugAndDeviceEvents := by
  unfold Obligations.DebugAndDeviceEvents
  refine ⟨fun dop mask buf arg => ⟨debugOperations dop mask buf arg, fun s => State.debugPerform_refused, fun s c => State.debugPerform_halt⟩,
    fun g tag hg => ⟨?_, ?_, ?_⟩, fun s lid c hc hl he => ?_, fun die hdie => ⟨?_, ?_, ?_, ?_, ?_⟩, fun v => ?_, fun i v hi => ⟨?_, ?_⟩,
    fun v => ?_, fun amps tj watts => ⟨?_, fun s => ⟨?_, ?_⟩⟩, fun s tj hr h => ?_, fun s img hr => ?_, fun s img himg => ⟨?_, ?_⟩,
    State.stageOk_iff, fun s hr => ⟨?_, ?_, ?_, ?_, ?_, ?_⟩, fun master die off v hdie hm ho => ?_, fun die off size hdie ho hs ha => ⟨?_, ?_⟩,
    fun pa size st v => ⟨?_, ?_, ?_⟩, fun pa st => ⟨?_, ?_, ?_, ?_, fun die cl core hdie hcore => ⟨?_, ?_⟩⟩,
    fun a die cl u off w => ⟨?_, ?_⟩, fun c n l => ⟨?_, ?_⟩, fun s pa bs hw hg => ⟨State.wr_badWords hw pa bs, State.wr_badGranules hg pa bs⟩,
    fun i s v hv hc => ⟨fun l => exec_badRegister hv hc, fun pa l => exec_badFile hv hc⟩⟩
  -- grants and their revocation
  · exact happens_of_event (r := fun s => s.grant g tag) (fun _ => rfl) fun s ⟨h, h'⟩ => State.grant_admitted hg h h'
  · exact happens_of_event (r := fun s => s.grant g tag) (fun _ => rfl) fun s ⟨h, h'⟩ => State.grant_denied hg h h'
  · exact firmware_of_event (exec_debugRevoke hg) fun _ _ => rfl
  · have hrev := State.revoke_revoked hc hl he
    refine ⟨hrev.rev, fun x hx => ?_⟩
    obtain ⟨l, rfl⟩ := Ctx.exists_lane hx
    exact hrev.lane l
  -- access control
  · exact firmware_of_event (exec_acctlEnable hdie) fun _ _ => rfl
  · exact firmware_of_event (exec_acctlLock hdie) fun _ _ => rfl
  · exact happens_of_event (exec_acsync hdie) fun s h => congrArg some (if_pos h)
  · exact happens_of_event (exec_acsync hdie) fun s h => congrArg some (if_neg (by rw [h]; decide))
  · exact fun s off v h hlo hhi => State.mgmtWrite_locked h hlo hhi v
  · exact firmware_of_event (u := fun s => s.writeCap0 v) (fun _ => rfl) fun s _ => s.writeCap0_eq v
  -- clocks, limits, samples
  · exact firmware_of_event (exec_islclkWrite hi v) fun s _ => s.writeClock_eq hi v
  · exact happens_of_event (r := fun s => s.clockEffect i) (fun _ => rfl) fun s h => State.clockEffect_eq hi h
  · exact firmware_of_event (u := fun s => s.writeLimit v) (fun _ => rfl) fun _ _ => rfl
  · exact happens_of_event (r := fun s => some (s.currentSample amps tj watts)) (fun _ => rfl) fun _ _ => rfl
  · exact fun htj ha hcaps i hi => State.currentSample_islCap htj ha hcaps hi
  · exact fun htj => s.currentSample_trip htj amps watts
  -- trips, images, resets
  · exact ⟨_, exec_thermalTrip hr h, rfl, rfl, rfl, rfl, rfl⟩
  · exact always_of_idle hr
  · exact fun h0 h => (exec_deviceReset himg).trans (congrArg _ (State.boot_verified h0 h))
  · exact fun pre x post hst hpre hx => (exec_deviceReset himg).trans (congrArg _ (State.boot_failed hst hpre hx))
  -- the management port
  · exact fun n hn => exec_pldmMonitoring hr (if_pos hn)
  · exact exec_pldmMonitoring hr rfl
  · exact exec_pldmMonitoring hr rfl
  · exact exec_pldmMonitoring hr rfl
  · exact always_of_idle hr
  · exact State.measurements_unlocked
  -- registers and application cores
  · exact happens_of_event (r := fun s => s.masterWrite master die off v) (fun _ => rfl) fun s _ => State.masterWrite_eq hdie hm ho s v
  · exact happens_of_event (r := fun s => s.appAccess (.ctrlRead die off size)) (fun _ => rfl) fun s _ =>
      State.appAccess_ctrlRead hdie ho hs ha
  · exact fun pa => happens_of_event (r := fun s => s.appAccess (.read pa size)) (fun _ => rfl) fun s h => State.appAccess_readMgmt h
  · exact happens_of_event (r := fun s => s.appAccess (.read pa size)) (fun _ => rfl) fun s ⟨hp, hb⟩ => State.appAccess_read hp (hb rfl)
  · exact happens_of_event (r := fun s => s.appAccess (.write pa size v)) (fun _ => rfl) fun s ⟨hp, _⟩ => State.appAccess_write hp v
  · exact applicationAtomics pa size st v
  -- soft errors
  · exact happens_softError fun s h => State.softError_memory h true
  · exact happens_softError fun s h => State.softError_memory h false
  · exact happens_softError fun s h => State.softError_l2 h true
  · exact happens_softError fun s h => State.softError_l2 h false
  · exact happens_softError fun s h => State.softError_l1 hdie hcore h true
  · exact happens_softError fun s h => State.softError_l1 hdie hcore h false
  · exact happens_softError fun s h => State.softError_array h true
  · exact happens_softError fun s h => State.softError_array h false
  · exact happens_softError fun s ⟨h, he, hs, hn, hl⟩ => State.softError_vreg h he hs hn hl true
  · exact happens_softError fun s ⟨h, he, hs, hn, hl⟩ => State.softError_vreg h he hs hn hl false

end Sys2Proof.Machine
end
